-- ==== Sys2Proof/Word.lean ====
section
/-! DEFINITION. The word types of the IZ-460: bytes, 16-bit bus words and the 32-bit time base. -/

namespace Sys2Proof

/-- A byte of the stacked DRAM, of a message or of a record. -/
abbrev Byte := BitVec 8

/-- A 16-bit word of PD[15:0] or FD[15:0], or any 16-bit field. -/
abbrev Half := BitVec 16

/-- A value of the time base: a tick count modulo 2^32 (00_scope.md 1.7.2). -/
abbrev Time := BitVec 32

end Sys2Proof
end

