-- ==== Sys2Proof/Syntax.lean ====
section
/-! DEFINITION. The commands of the IZ-460: one constructor per row of spec/opcode_table.json. The table gives the
rows no operands; those given here are what the rules say the event brings with it (log entry 4). -/

namespace Sys2Proof

/-- The two requesters of the fetch port: 0 is the application processor, 1 the display controller. -/
inductive Requester where
  | r0 | r1
  deriving DecidableEq, Repr

/-- The reasons an end request can carry (R12, R13). -/
inductive EndReason where
  | extent | closed | stripsFull | fault
  deriving DecidableEq, Repr

/-- What an engine burst moved: a read or a write of `len` bytes beginning at byte `addr` of the stacked DRAM. The
spec does not order the engine's bursts, so the command says which one it was (log entry 5). -/
inductive EngineMove where
  | read (addr len : Nat)
  | write (addr len : Nat)
  deriving DecidableEq, Repr

/-- What has become of the words that a burst reads since they were written (R144), by word number (byte address
divided by 8): those now found with a single-bit error and those with an error of two or more bits, beside the errors the
state holds already; and, for a read of self-test, those whose data come back different although the check data show
nothing (R180). Faults of the memory are not the block's to decide (log entry 6). -/
structure MemErrors where
  single : List Nat
  multi : List Nat
  differs : List Nat
  deriving DecidableEq, Repr

/-- The commands. Each docstring names the row of the table and the rule that opens it. -/
inductive Instr where
  /-- POWER_ON (R177) -/
  | powerOn
  /-- RESETN_ASSERT (R177) -/
  | resetnAssert
  /-- RESETN_RELEASE (R177) -/
  | resetnRelease
  /-- DRAM_INITIALISED (R132); the level of the TEST strap at this sample (R177) -/
  | dramInitialised (strap : Bool)
  /-- SELFTEST_COMPLETE (R179); 0, or the number of the failed test (R180) -/
  | selftestComplete (outcome : Nat)
  /-- CONFIGURE (R170): tag and payload of the command transaction (R183) -/
  | configure (tag : Byte) (payload : List Byte)
  /-- ARM (R3) -/
  | arm (tag : Byte) (payload : List Byte)
  /-- START (R4) -/
  | start (tag : Byte) (payload : List Byte)
  /-- STOP (R7) -/
  | stop (tag : Byte) (payload : List Byte)
  /-- ABORT (R17) -/
  | abort (tag : Byte) (payload : List Byte)
  /-- QUERY (R172) -/
  | query (tag : Byte) (payload : List Byte)
  /-- READ_ATTENTION (R174) -/
  | readAttention (tag : Byte) (payload : List Byte)
  /-- ACK_ATTENTION (R175) -/
  | ackAttention (tag : Byte) (payload : List Byte)
  /-- SET_ATTENTION (R176) -/
  | setAttention (tag : Byte) (payload : List Byte)
  /-- SELFTEST (R179) -/
  | selftest (tag : Byte) (payload : List Byte)
  /-- RESET (R178) -/
  | reset (tag : Byte) (payload : List Byte)
  /-- UNKNOWN_COMMAND (R169): a command transaction whose kind is none of the eleven -/
  | unknownCommand (kind tag : Byte) (payload : List Byte)
  /-- COMMAND_DISCARDED (R167) -/
  | commandDiscarded
  /-- REPLY_TRANSACTION (R168); how many bytes the application processor clocked after the first -/
  | replyTransaction (clocked : Nat)
  /-- SWEEP_TIME_LIMIT (R11) -/
  | sweepTimeLimit
  /-- END_REQUEST (R12, R13) -/
  | endRequest (reason : EndReason)
  /-- FRAME_START (R46): FV rises -/
  | frameStart
  /-- HEADER_ARRIVAL (R48): the words of the header line taken so far, sixteen, or fewer for a short header -/
  | headerArrival (words : List Half)
  /-- PIXEL_LINE_START (R56): LV rises -/
  | pixelLineStart
  /-- LINE_TOO_LONG (R58): word W_f+1 of the line arrives -/
  | lineTooLong
  /-- PIXEL_LINE_CLOSE (R56): LV falls; the words of the line -/
  | pixelLineClose (words : List Half)
  /-- FRAME_END (R58): FV falls -/
  | frameEnd
  /-- SAMPLE_STROBE (R24) -/
  | sampleStrobe
  /-- MDRDY_SEEN (R25) -/
  | mdrdySeen
  /-- GOOD_SAMPLE (R25): the six bytes of the read, the first in the top bits (10.3) -/
  | goodSample (bytes : BitVec 48)
  /-- SAMPLE_MISSED (R26) -/
  | sampleMissed
  /-- MOTION_WAIT_EXPIRY (R72) -/
  | motionWaitExpiry
  /-- SEARCH_COMPLETE (R101) -/
  | searchComplete
  /-- STRIP_WRITES_COMPLETE (R119) -/
  | stripWritesComplete
  /-- HARVEST_COMPLETE (R89) -/
  | harvestComplete
  /-- PREVIEW_UPDATE_COMPLETE (R122) -/
  | previewUpdateComplete
  /-- CLOSING_WORK_COMPLETE (R123) -/
  | closingWorkComplete
  /-- MEMORY_BURST_COMPLETE (R142); what the burst moved if it was the engine's, and the errors found -/
  | memoryBurstComplete (move : EngineMove) (errors : MemErrors)
  /-- FETCH_REQUEST (R150): the requester and the 40 bits of its message, the first bit on top (R184) -/
  | fetchRequest (requester : Requester) (message : BitVec 40)
  /-- FETCH_ABANDON (R152): the same, with active 0 -/
  | fetchAbandon (requester : Requester) (message : BitVec 40)
  /-- RETURN_BURST_COMPLETE (R162) -/
  | returnBurstComplete
  /-- FETCH_WAIT_EXPIRY (R160) -/
  | fetchWaitExpiry
  /-- TRANSACTION_START (R166): CCSn falls -/
  | transactionStart
  /-- REQUEST_MESSAGE_START (R184): the start bit of a request message -/
  | requestMessageStart (requester : Requester)
  deriving DecidableEq, Repr

end Sys2Proof
end

