-- ==== Sys2Proof/Decode.lean ====
section
/-! DEFINITION. The command that a word spells by the bits of spec/opcode_table.json. No row of this table has bits
(its rows are events of the block), so no word spells a command. The wire formats of the commands' operands are
in Machine/Operands.lean. -/

namespace Sys2Proof

/-- The command spelled by a word of `nbits` bits: none, because the table gives no row any bits. -/
def decodeTableWord (_nbits _w : Nat) : Option Instr := none

end Sys2Proof
end

