-- ==== Sys2Proof/Config.lean ====
section
/-! DEFINITION. The configuration record of R170 with its defaults, and the free values of the model (opaque
constants with no body: a claim about one of them holds whatever it is). -/

namespace Sys2Proof

/-- Canvas modes (R170 field 5). -/
inductive CanvasMode where
  | linear | ring
  deriving DecidableEq, Repr

/-- Bias modes (R170 field 11). -/
inductive BiasMode where
  | auto | fixed
  deriving DecidableEq, Repr

/-- Service orders of the memory arbiter and the return bus (R170 field 15). -/
inductive ServiceOrder where
  | fixed | rotate
  deriving DecidableEq, Repr

/-- The gyro's axes (R28). -/
inductive Axis where
  | x | y | z
  deriving DecidableEq, Repr

/-- The axis map (R28, R170 field 10): an axis and a sign for yaw and for pitch. -/
structure AxisMap where
  yawAxis : Axis
  yawNegated : Bool
  pitchAxis : Axis
  pitchNegated : Bool
  deriving DecidableEq, Repr

/-- A pixel as the fill configures it: Y, U and V (R138). -/
structure FillPixel where
  y : Byte
  u : Byte
  v : Byte
  deriving DecidableEq, Repr

/-- The configuration record, field by field as R170 numbers them. -/
structure Configuration where
  /-- 1: W_f -/
  frameWidth : Nat
  /-- 2: H_f -/
  frameHeight : Nat
  /-- 3: m -/
  margin : Nat
  /-- 4: p, in au per column -/
  columnAngle : Nat
  /-- 5 -/
  mode : CanvasMode
  /-- 6: W_c -/
  canvasWidth : Nat
  /-- 7: FSR -/
  fsr : Nat
  /-- 8: P -/
  prescale : Nat
  /-- 9: N -/
  sampleCount : Nat
  /-- 10 -/
  axisMap : AxisMap
  /-- 11 -/
  biasMode : BiasMode
  /-- 12 -/
  biasYaw : Int
  /-- 13 -/
  biasPitch : Int
  /-- 14: B -/
  blend : Nat
  /-- 15 -/
  serviceOrder : ServiceOrder
  /-- 16 -/
  motionLatency : Nat
  /-- 17: L_cap -/
  captureLatency : Nat
  /-- 18 -/
  stillThreshold : Nat
  /-- 19, in sample periods -/
  motionWait : Nat
  /-- 20: S, the search range -/
  searchRange : Nat
  /-- 21: M_min -/
  minPatches : Nat
  /-- 22 -/
  sadLimit : Nat
  /-- 23 -/
  sadMargin : Nat
  /-- 24 -/
  textureThreshold : Nat
  /-- 25: Z -/
  seamReach : Nat
  /-- 26: J -/
  jumpLimit : Nat
  /-- 27: O_min -/
  minOverlap : Nat
  /-- 28: A_min -/
  minAdvance : Nat
  /-- 29 -/
  closureTolerance : Nat
  /-- 30, in ticks -/
  sweepTimeLimit : Nat
  /-- 31, in ticks -/
  fetchWaitLimit : Nat
  /-- 32, 33, 34: fill Y, U, V -/
  fill : FillPixel
  deriving DecidableEq, Repr

/-- The configuration's defaults (R170). -/
def Configuration.default : Configuration where
  frameWidth := 1280
  frameHeight := 960
  margin := 32
  columnAngle := 1800
  mode := .linear
  canvasWidth := 8192
  fsr := 500
  prescale := 16
  sampleCount := 1499
  axisMap := ⟨.z, false, .x, false⟩
  biasMode := .auto
  biasYaw := 0
  biasPitch := 0
  blend := 16
  serviceOrder := .fixed
  motionLatency := 0
  captureLatency := 0
  stillThreshold := 64
  motionWait := 4
  searchRange := 16
  minPatches := 3
  sadLimit := 3072
  sadMargin := 256
  textureThreshold := 2048
  seamReach := 128
  jumpLimit := 16
  minOverlap := 64
  minAdvance := 16
  closureTolerance := 8
  sweepTimeLimit := 1440000000
  fetchWaitLimit := 4800000
  fill := ⟨0, 128, 128⟩

/-- FREE VALUE (log entry 8). The content of a field of the given number of bits when the value to be shown does
not fit in it: the spec gives the layout (R124, R127, R182) and states no result there. -/
opaque Config.unstatedField : Nat → Int → Nat

/-- FREE VALUE (log entry 7). Which of two things that arrive together at a free memory or a free return bus is
taken first ("either may be taken first", R142, R161): true for the fetch port, or for requester 0. -/
opaque Config.firstTaken : Nat → Bool

/-- A vector of self-test's test 4 (R180): an FSR, the P and N of a sample period, and steps, each the yaw and the pitch
rate code and the Δt of one sample. -/
structure IntegratorVector where
  fsr : Nat
  prescale : Nat
  sampleCount : Nat
  steps : List (BitVec 16 × BitVec 16 × Nat)
  deriving DecidableEq, Repr

/-- A vector of self-test's test 5 (R180): a patch and a window, as rows of luma, the ranges of dx and dy that the window
leaves room for, a SAD limit and a SAD margin. -/
structure PatchVector where
  patch : List (List Nat)
  window : List (List Nat)
  rangeX : Nat
  rangeY : Nat
  sadLimit : Nat
  sadMargin : Nat
  deriving DecidableEq, Repr

/-- FREE VALUE (log entry 30). The fixed list that test 4 of self-test runs (R180 does not list it). -/
opaque Config.integratorVectors : List IntegratorVector

/-- FREE VALUE (log entry 30). The fixed patches and windows of test 5 (R180 does not list them). -/
opaque Config.patchVectors : List PatchVector

/-- FREE VALUE (log entry 30). The fixed (old, new, z) sets of test 6 for a B (R180 does not list them). -/
opaque Config.blendVectors : Nat → List (Nat × Nat × Nat)

/-- FREE VALUE (log entry 30). The fixed blocks of test 6's preview averages: 64 luma values and 32 chroma values each
(R180 does not list them). -/
opaque Config.previewVectors : List (List Nat × List Nat)

/-- FREE VALUE (log entry 4). What CSO carries at byte n of a poll, after the link status (R166 states no byte there). -/
opaque Config.pollByte : Nat → BitVec 8

/-- FREE VALUE (log entry 9). The byte that the memory tests of self-test write at an offset of their area ("a value
formed from the word's offset", R180). -/
opaque Config.testByte : Nat → BitVec 8

end Sys2Proof
end

