-- ==== Sys2Proof/Machine/State.lean ====
section
/-! DEFINITION. The state of the IZ-460, block by block as the chapters own it, as plain data; its value right after
power-on; the reasons a step can stop. -/

namespace Sys2Proof.Machine

/-- Sweep states (R1). `opened` is the spec's OPEN. -/
inductive SweepState where
  | init | test | idle | armed | opened | draining | done
  deriving DecidableEq, Repr

/-- Why the current or most recent sweep ended (R1, R18); `unset` is the spec's NONE. -/
inductive LastReason where
  | unset | stopped | timeLimit | extent | closed | stripsFull | fault | aborted
  deriving DecidableEq, Repr

/-- The counters of R20 that the sweep record keeps; corrected is the canvas store's. -/
structure Counters where
  received : Nat
  composited : Nat
  guide : Nat
  still : Nat
  noAdvance : Nat
  dropped : Nat
  truncated : Nat
  rejected : Nat
  discarded : Nat
  skipped : Nat
  samplesMissed : Nat
  motionLosses : Nat
  deriving DecidableEq, Repr

/-- Every counter at 0 (R2, R3). -/
def Counters.zero : Counters := ⟨0, 0, 0, 0, 0, 0, 0, 0, 0, 0, 0, 0⟩

/-- The sweep controller's part of the sweep record (R1), and the end requests sent to it and not yet taken. -/
structure SweepControl where
  state : SweepState
  lastReason : LastReason
  openPending : Bool
  openTime : Option Time
  limitRunning : Bool
  counters : Counters
  endRequests : List EndReason
  deriving DecidableEq, Repr

/-- States of the motion link (R40). -/
inductive LinkState where
  | off | sampling | lost
  deriving DecidableEq, Repr

/-- The sample transaction (R24, R25, R27): none, the data-ready window open, the six-byte read in flight, or a read
whose sample is discarded because the sample clock stopped. -/
inductive SampleTransaction where
  | absent
  | window (strobe sample : Time)
  | reading (sample start : Time)
  | discarding (start : Time)
  deriving DecidableEq, Repr

/-- Where the bias in use came from (R1). -/
inductive BiasSource where
  | fixed | pending | estimated | fallback
  deriving DecidableEq, Repr

/-- An entry of the pose ring (R37). -/
structure PoseEntry where
  time : Time
  yaw : Int
  pitch : Int
  rateYaw : Int
  ratePitch : Int
  gap : Bool
  sat : Bool
  deriving DecidableEq, Repr

/-- The angle and residual of one axis (R33). -/
structure AxisIntegral where
  angle : Int
  residual : Int
  deriving DecidableEq, Repr

/-- The integrator (R33). -/
structure Integrator where
  yaw : AxisIntegral
  pitch : AxisIntegral
  lastTime : Time
  started : Bool
  deriving DecidableEq, Repr

/-- Angles and residuals 0, started mark clear (R33, R44). -/
def Integrator.zero : Integrator := ⟨⟨0, 0⟩, ⟨0, 0⟩, 0, false⟩

/-- The motion unit (chapter 2). `ring` and the windows are oldest first. -/
structure Motion where
  clockRunning : Bool
  armTime : Time
  strobes : Nat
  strobeTime : Option Time
  tx : SampleTransaction
  missCount : Nat
  goodCount : Nat
  link : LinkState
  integ : Integrator
  ring : List PoseEntry
  yawWindow : List Int
  pitchWindow : List Int
  goodSinceArm : Nat
  biasYaw : Int
  biasPitch : Int
  biasSource : BiasSource
  deriving DecidableEq, Repr

/-- States of a slot (R53). -/
inductive SlotState where
  | free | filling | queued | held | engaged
  deriving DecidableEq, Repr

/-- The slot record (R55). -/
structure SlotRecord where
  seq : Half
  tSof : Time
  exposure : Nat
  rowPeriod : Nat
  guide : Bool
  opening : Bool
  linesWritten : Nat
  deriving DecidableEq, Repr

/-- A slot of the pool. -/
structure Slot where
  state : SlotState
  info : SlotRecord
  deriving DecidableEq, Repr

/-- The frame on the pixel input port (R46, R48, R56): FV low; a frame ignored to its FV fall; a frame whose header
has not arrived; a FILLING frame with the number of its next or present pixel line and whether LV is high. -/
inductive PortFrame where
  | low
  | ignored
  | header (tSof : Time)
  | filling (slot line : Nat) (lineHigh : Bool)
  deriving DecidableEq, Repr

/-- A closed line that holds an entry of the line buffer (R56): its slot, its number, its words and how many of its
bytes have been asked of the arbiter. -/
structure BufferedLine where
  slot : Nat
  line : Nat
  words : List Half
  asked : Nat
  deriving DecidableEq, Repr

/-- The ingest unit (chapter 3). `slots` has six entries; `queue` and `lines` are oldest first. -/
structure Ingest where
  port : PortFrame
  slots : List Slot
  queue : List Nat
  lines : List BufferedLine
  seqRef : Option Half
  openingAssigned : Bool
  deriving DecidableEq, Repr

/-- The sweep direction (R1). -/
inductive Direction where
  | unknown | plus | minus
  deriving DecidableEq, Repr

/-- The flags of the working placement record (R67). -/
structure FrameFlags where
  trackShort : Bool
  extrapolated : Bool
  gap : Bool
  rateSat : Bool
  pitchClamp : Bool
  rsClamp : Bool
  deriving DecidableEq, Repr

/-- No flag set. -/
def FrameFlags.clear : FrameFlags := ⟨false, false, false, false, false, false⟩

/-- The class of a frame at its take (R66). -/
inductive FrameClass where
  | opening | earlyGuide | guide | ordinary
  deriving DecidableEq, Repr

/-- Where a placement comes from (R67). -/
inductive Source where
  | track | history
  deriving DecidableEq, Repr

/-- States of the placement unit (R67). -/
inductive PlaceState where
  | ready | placing | waitMotion | passed
  deriving DecidableEq, Repr

/-- Where a frame stands in the steps of 4.5: at the reference lookup, at the lookup of band k, waiting as the
deciding frame for strip 0 to commit (R80), or with every lookup behind it. -/
inductive PlaceStage where
  | reference
  | band (k : Nat)
  | awaitStrip0
  | placed
  deriving DecidableEq, Repr

/-- The working placement record (R67), with the slot and stage of the frame, whether its motion wait limit has been
taken as expired, and whether the frame has met the motion-lost mark with the strip count at 0 (R74). -/
structure Working where
  slot : Nat
  seq : Half
  cls : FrameClass
  takeTime : Time
  trimYaw : Int
  trimPitch : Int
  source : Source
  tRef : Time
  refYaw : Int
  refPitch : Int
  yP : Int
  bandTimes : List Time
  bandYaws : List Int
  xC : Int
  shifts : List Int
  correction : Option (Int × Int)
  finalX : Int
  finalY : Int
  edges : List Int
  flags : FrameFlags
  expired : Bool
  metLoss : Bool
  stage : PlaceStage
  deriving DecidableEq, Repr

/-- The saved poses of the opening frame (R78). -/
structure SavedPoses where
  theta0 : Int
  bandYaws : List Int
  flags : FrameFlags
  deriving DecidableEq, Repr

/-- The placement unit (chapter 4). -/
structure Placement where
  state : PlaceState
  work : Option Working
  saved : Option SavedPoses
  motionLost : Bool
  direction : Direction
  originYaw : Option Int
  originPitch : Option Int
  deriving DecidableEq, Repr

/-- An entry of a patch table (R87): 16 rows of 16 luma samples, top row first. -/
structure Patch where
  band : Nat
  x : Int
  y : Nat
  samples : List (List Nat)
  deriving DecidableEq, Repr

/-- States of the registration unit (R105). -/
inductive RegState where
  | idle | searching | harvesting
  deriving DecidableEq, Repr

/-- The registration unit (chapter 5). `openingHarvest` says that the harvest in progress has replaced LEAD and is at
OPENING (R90, R91, log entry 27). -/
structure Registration where
  state : RegState
  lead : List Patch
  opening : List Patch
  openingHarvest : Bool
  deriving DecidableEq, Repr

/-- The result of a registration (R101); `correction` is none for MOTION_ONLY. -/
structure RegResult where
  correction : Option (Int × Int)
  confident : Nat
  inliers : Nat
  closure : Option (Int × Int)
  deriving DecidableEq, Repr

/-- The flags of a strip record (R124): the six of the frame and the compositor's own. -/
structure StripFlags where
  frame : FrameFlags
  motionOnly : Bool
  detached : Bool
  closing : Bool
  closurePoor : Bool
  wrapped : Bool
  deriving DecidableEq, Repr

/-- A strip record (R124). -/
structure StripRecord where
  index : Nat
  seq : Half
  tRef : Time
  xC : Int
  yP : Int
  shifts : List Int
  prevFront : Int
  newFront : Int
  seams : List (Option Int)
  correction : Option (Int × Int)
  confident : Nat
  inliers : Nat
  closure : Option (Int × Int)
  flags : StripFlags
  deriving DecidableEq, Repr

/-- Strip classes (R109). -/
inductive StripClass where
  | normal | closing | extent
  deriving DecidableEq, Repr

/-- A frame handed over to the compositor (R77, R80, R109): whether it is strip 0 (its seams, blends and release
differ), its slot, its final placement with the registration result, and what the compositor has formed of it:
the highest band edge, the class, F', the seams and the strip flags; `planned` once the seams are chosen. -/
structure StripJob where
  strip0 : Bool
  slot : Nat
  seq : Half
  tRef : Time
  xC : Int
  yP : Int
  shifts : List Int
  edges : List Int
  result : RegResult
  frameFlags : FrameFlags
  cls : StripClass
  newFront : Int
  planned : Bool
  seams : List (Option Int)
  detached : Bool
  wrapped : Bool
  deriving DecidableEq, Repr

/-- What a pixel still to be written belongs to: a canvas cell of a band at a stored column (R118), or a preview
pixel at a preview column and row (R122). -/
inductive WriteTarget where
  | cell (band column : Nat)
  | preview (column row : Nat)
  deriving DecidableEq, Repr

/-- A pixel still to be written: its byte address, its two bytes and what it belongs to. -/
structure WriteUnit where
  addr : Nat
  y : Byte
  c : Byte
  target : WriteTarget
  deriving DecidableEq, Repr

/-- States of the compositor (R108). -/
inductive CompState where
  | ready | compositing | harvesting | updating | closing
  deriving DecidableEq, Repr

/-- Speed statuses of the guide record (R127). -/
inductive SpeedStatus where
  | still | tooFast | fast | slow | good
  deriving DecidableEq, Repr

/-- The last correction of the guide record (R128). -/
structure LastCorrection where
  correction : Option (Int × Int)
  confident : Nat
  inliers : Nat
  deriving DecidableEq, Repr

/-- The guide record (R127, R128). -/
structure GuideRecord where
  count : Half
  seq : Half
  guideMark : Bool
  direction : Direction
  speed : SpeedStatus
  advance : Int
  overlap : Int
  yP : Int
  margin : Nat
  progress : Int
  target : Int
  motion : LinkState
  flags : FrameFlags
  last : Option LastCorrection
  deriving DecidableEq, Repr

/-- A re-anchor (R42, R84): the regain time and the regain yaw. -/
structure Reanchor where
  time : Time
  yaw : Int
  deriving DecidableEq, Repr

/-- The compositor (chapter 6). `strips` is in commit order; `todo` is what its present operation still has to
write. -/
structure Compositor where
  state : CompState
  front : Int
  settled : Int
  clean : Option Int
  trimYaw : Int
  trimPitch : Int
  strips : List StripRecord
  closureError : Option (Int × Int)
  closurePoor : Bool
  guide : GuideRecord
  pendingReanchor : Option Reanchor
  job : Option StripJob
  waiting : Option StripJob
  todo : List WriteUnit
  halted : Bool
  deriving DecidableEq, Repr

/-- The canvas store (chapter 7): the stacked DRAM as (address, byte) pairs in canonical form, the set flags of the
coverage map (band × 16384 + stored column) and of the preview, each in rising order, the sweep fill, the
corrected count, and what the check data say of the words: the numbers (byte address divided by 8) of the words with a
single-bit error and of those with an error of two or more bits, each in rising order (R144). -/
structure CanvasStore where
  mem : List Host.Cell
  coverage : List Nat
  computed : List Nat
  fill : FillPixel
  corrected : Nat
  singleFlaws : List Nat
  multiFlaws : List Nat
  deriving DecidableEq, Repr

/-- The two units of the engine that ask for memory (R142). -/
inductive EngineUnit where
  | registration | compositor
  deriving DecidableEq, Repr

/-- A write burst of the ingest unit (R56): the bytes, and whether it is the last of its line. -/
structure IngestBurst where
  slot : Nat
  addr : Nat
  bytes : List Byte
  last : Bool
  deriving DecidableEq, Repr

/-- What a fetch item is (R148). -/
inductive FetchKind where
  | canvas | preview | strips | guide | invalid
  deriving DecidableEq, Repr

/-- A read burst of the fetch port (R154): `len` bytes from byte `offset` of an item, which lie at byte `addr` of the
stacked DRAM. -/
structure FetchRead where
  requester : Requester
  kind : FetchKind
  item : Nat
  offset : Nat
  len : Nat
  addr : Nat
  deriving DecidableEq, Repr

/-- A burst of self-test (R180): the test, its pass (0 write, 1 read back, 2 write the complement, 3 read back) and
the offset of its 64 bytes in the test's area. -/
structure SelfBurst where
  test : Nat
  pass : Nat
  offset : Nat
  deriving DecidableEq, Repr

/-- An area in use that an operation of the engine may read or write (R131, R142): a slot, the canvas or the preview. -/
structure MoveArea where
  base : Nat
  size : Nat
  reads : Bool
  writes : Bool
  deriving DecidableEq, Repr

/-- The burst in progress on the memory (R142), by client. An engine burst keeps the areas of the operation it was
granted for, and when that operation has ended, or is an update that the closing work has absorbed, the pixels it may
still store (R123, R146). A fetch burst holds the data captured at its grant (R140). `live` is false when the operation has ended (R146). -/
inductive InFlight where
  | ingest (burst : IngestBurst) (live : Bool)
  | engine (unit : EngineUnit) (live : Bool) (late : List WriteUnit) (areas : List MoveArea)
  | fetch (burst : FetchRead) (data : List Byte) (live : Bool)
  | selfTest (burst : SelfBurst) (live : Bool)
  deriving DecidableEq, Repr

/-- Who was last served between the engine and the fetch port (R143). -/
inductive LastServed where
  | engine | fetch
  deriving DecidableEq, Repr

/-- The memory arbiter (R142, R143): at most one burst in progress and one waiting request of each client. `regReads` and
`compReads` are the words that the present operation of the registration unit and of the compositor has still to read
(R91, R105, R112, R116, R117, R122), absent while the unit has planned no operation. -/
structure Arbiter where
  inProgress : Option InFlight
  ingestWait : Option IngestBurst
  engineWait : Option EngineUnit
  fetchWait : Option FetchRead
  selfWait : Option SelfBurst
  lastServed : LastServed
  engineTurn : EngineUnit
  regReads : Option (List Nat)
  compReads : Option (List Nat)
  deriving DecidableEq, Repr

/-- A fetch request as its message carries it (R148). -/
structure FetchReq where
  kind : FetchKind
  first : Nat
  count : Nat
  again : Bool
  deriving DecidableEq, Repr

/-- Statuses of a return burst (R155). -/
inductive BurstStatus where
  | data | dataLast | waiting | errorRange | errorNoSweep | errorNotSettled | errorMemory | abandoned
  deriving DecidableEq, Repr

/-- A burst of the return bus (R155). -/
structure ReturnBurst where
  requester : Requester
  status : BurstStatus
  item : Nat
  data : List Byte
  deriving DecidableEq, Repr

/-- A transfer with its progress (R149): the next item and the next byte within it, the bytes of the burst in
preparation that are in hand and that have been asked for, whether the readiness test of the item has passed
(R154), an ERROR RANGE header (with its item) that follows a WAITING header still to be sent (R159), and the number of
the pass in progress, from 0. -/
structure Transfer where
  req : FetchReq
  item : Nat
  byte : Nat
  inHand : List Byte
  asked : Nat
  tested : Bool
  rangeAfter : Option Nat
  pass : Nat
  deriving DecidableEq, Repr

/-- Where a transfer stands (R149). -/
inductive Phase where
  | preparing | posted | sending | stalled
  deriving DecidableEq, Repr

/-- A request line (R148, R184): idle, or a message shifting in, to be taken or to be ignored at its end. -/
inductive RequestLine where
  | idle | shifting | ignored
  deriving DecidableEq, Repr

/-- What the fetch port keeps for one requester (R149). -/
structure PortSide where
  transfer : Option Transfer
  phase : Phase
  posted : Option ReturnBurst
  held : Option (FetchReq × Bool)
  waitStart : Option Time
  stallLimit : Nat
  line : RequestLine
  deriving DecidableEq, Repr

/-- The fetch port (chapter 8). -/
structure FetchPort where
  p0 : PortSide
  p1 : PortSide
  busTurn : Requester
  memTurn : Requester
  bus : Option ReturnBurst
  deriving DecidableEq, Repr

/-- Link statuses (R166). -/
inductive LinkStatus where
  | noReply | replyReady | executing
  deriving DecidableEq, Repr

/-- Command results (R169). -/
inductive CommandResult where
  | done | clamped | state | range | stillActive | unknown | length
  deriving DecidableEq, Repr

/-- A reply (R183). -/
structure Reply where
  tag : Byte
  kind : Byte
  result : CommandResult
  detail : Nat
  payload : List Byte
  deriving DecidableEq, Repr

/-- The control link (9.1): the status latched at the fall of CCSn, the command slot (kind and tag), the reply slot,
what the last transaction has shifted out on CSO, the link status and the bytes of a reply that were clocked, and whether
it was a poll. Every further byte of a command or reply transaction is 0, whatever its length (R168, R183); `csoByte`
gives the byte at a place. -/
structure ControlLink where
  latched : Option LinkStatus
  command : Option (Byte × Byte)
  reply : Option Reply
  cso : List Byte
  polled : Bool
  deriving DecidableEq, Repr

/-- The attention unit (R173): bit c−1 stands for the cause with code c. -/
structure Attention where
  pendingSet : BitVec 7
  enableSet : BitVec 7
  deriving DecidableEq, Repr

/-- Self-test results (R177, R179). -/
inductive SelfResult where
  | passed
  | failed (test : Nat)
  | running
  | notRun
  deriving DecidableEq, Repr

/-- A run of the tests (R179, R180): the memory test whose bursts are next (3 when both are behind), its pass, the
next offset, and the memory test that has failed. -/
structure SelfRun where
  test : Nat
  pass : Nat
  offset : Nat
  failed : Option Nat
  deriving DecidableEq, Repr

/-- Self-test. -/
structure SelfTest where
  result : SelfResult
  run : Option SelfRun
  deriving DecidableEq, Repr

/-- The state of the IZ-460. `sweepCfg` is the configuration that was in force when ARM was last accepted;
`freeIndex` is the model's own counter for free values; `pending` is the queue of commands, oldest first. -/
structure State where
  timeBase : Time
  inReset : Bool
  config : Configuration
  sweepCfg : Configuration
  sweep : SweepControl
  motion : Motion
  ingest : Ingest
  place : Placement
  reg : Registration
  comp : Compositor
  store : CanvasStore
  arb : Arbiter
  fetch : FetchPort
  ctl : ControlLink
  attn : Attention
  selfTest : SelfTest
  freeIndex : Nat
  pending : List Instr
  deriving DecidableEq, Repr

/-- Why a step can stop with a fault. -/
inductive Fault where
  /-- Raised by MEMORY_BURST_COMPLETE for an engine burst that reaches beyond the 64 MiB of R131. Safe: no burst of a
  configuration that R170 admits does. -/
  | outsideDram
  deriving DecidableEq, Repr

/-- Why a step can be refused. -/
inductive Refusal where
  /-- Raised by an arm of exec whose command has no meaning yet. Safe: nothing can be proved of the next state. -/
  | notModelled (mnemonic : String)
  deriving DecidableEq, Repr

/-- A slot record that has not been used (R64; the values are log entry 21's). -/
def SlotRecord.unused : SlotRecord := ⟨0, 0, 0, 0, false, false, 0⟩

/-- Six FREE slots with their records unused (R64). -/
def freeSlots : List Slot := List.replicate 6 ⟨.free, SlotRecord.unused⟩

/-- The target of the guide record with G as given (R127). -/
def guideTarget (cfg : Configuration) (clean : Option Int) : Int :=
  match cfg.mode with
  | .ring => ((20736000 + cfg.columnAngle - 1) / cfg.columnAngle : Nat)
  | .linear => (cfg.canvasWidth : Int) - clean.getD 0

/-- The guide record's initial form (R128). -/
def GuideRecord.initial (cfg : Configuration) : GuideRecord where
  count := 0
  seq := 0
  guideMark := false
  direction := .unknown
  speed := .still
  advance := 0
  overlap := 0
  yP := 0
  margin := cfg.margin
  progress := 0
  target := guideTarget cfg none
  motion := .off
  flags := FrameFlags.clear
  last := none

/-- The sweep controller after power-on (R2). -/
def SweepControl.reset : SweepControl where
  state := .init
  lastReason := .unset
  openPending := false
  openTime := none
  limitRunning := false
  counters := Counters.zero
  endRequests := []

/-- The motion unit after power-on (R44). -/
def Motion.reset : Motion where
  clockRunning := false
  armTime := 0
  strobes := 0
  strobeTime := none
  tx := .absent
  missCount := 0
  goodCount := 0
  link := .off
  integ := Integrator.zero
  ring := []
  yawWindow := []
  pitchWindow := []
  goodSinceArm := 0
  biasYaw := 0
  biasPitch := 0
  biasSource := .pending

/-- The ingest unit after power-on (R64). -/
def Ingest.reset : Ingest where
  port := .low
  slots := freeSlots
  queue := []
  lines := []
  seqRef := none
  openingAssigned := false

/-- The placement unit after power-on (R86). -/
def Placement.reset : Placement where
  state := .ready
  work := none
  saved := none
  motionLost := false
  direction := .unknown
  originYaw := none
  originPitch := none

/-- The registration unit after power-on (R92). -/
def Registration.reset : Registration := ⟨.idle, [], [], false⟩

/-- The compositor after power-on, and after ARM with the configuration then in force (R107, R130). -/
def Compositor.initial (cfg : Configuration) : Compositor where
  state := .ready
  front := 0
  settled := 0
  clean := none
  trimYaw := 0
  trimPitch := 0
  strips := []
  closureError := none
  closurePoor := false
  guide := GuideRecord.initial cfg
  pendingReanchor := none
  job := none
  waiting := none
  todo := []
  halted := false

/-- The canvas store after power-on (R132, R138, R147); no word shows an error. -/
def CanvasStore.reset : CanvasStore := ⟨[], [], [], ⟨0, 128, 128⟩, 0, [], []⟩

/-- The memory arbiter after power-on (R143, R147). -/
def Arbiter.reset : Arbiter := ⟨none, none, none, none, none, .engine, .compositor, none, none⟩

/-- A requester's side of the fetch port after power-on (R149). -/
def PortSide.reset : PortSide := ⟨none, .preparing, none, none, none, 0, .idle⟩

/-- The fetch port after power-on (R149). -/
def FetchPort.reset : FetchPort := ⟨PortSide.reset, PortSide.reset, .r0, .r1, none⟩

/-- The control link after power-on (R177). -/
def ControlLink.reset : ControlLink := ⟨none, none, none, [], false⟩

/-- The attention unit after power-on: nothing pending, every cause enabled except STRIP, code 7 (R176). -/
def Attention.reset : Attention := ⟨0, 0b0111111⟩

/-- The machine right after power-on: every block at its power-on values, the time base at 0, the state INIT
(R177), no command waiting. -/
def State.reset : State where
  timeBase := 0
  inReset := false
  config := Configuration.default
  sweepCfg := Configuration.default
  sweep := SweepControl.reset
  motion := Motion.reset
  ingest := Ingest.reset
  place := Placement.reset
  reg := Registration.reset
  comp := Compositor.initial Configuration.default
  store := CanvasStore.reset
  arb := Arbiter.reset
  fetch := FetchPort.reset
  ctl := ControlLink.reset
  attn := Attention.reset
  selfTest := ⟨.notRun, none⟩
  freeIndex := 0
  pending := []

end Sys2Proof.Machine
end

