-- ==== Sys2Proof/Machine/Ops.lean ====
section
/-! DEFINITION. The named operations over the state that the meanings share: time, saturation, the stacked DRAM,
flag sets, counters, attention causes, slots and the loss of the engine's, the ingest unit's and the fetch
port's memory bursts when their operation ends. -/

namespace Sys2Proof.Machine

/-! ## Time, clamping and saturation -/

/-- The difference of two times, taken modulo 2^32 and read as a signed number (1.7.2). -/
def ticksSince (a b : Time) : Int := (a - b).toInt

/-- The time base once an event due at `due` is taken: it moves on to `due` if that is still ahead (log entry 2). -/
def advanceTo (due now : Time) : Time := if 0 < ticksSince due now then due else now

/-- clamp(v, lo, hi) (1.7.5). -/
def clampInt (v lo hi : Int) : Int := if v < lo then lo else if hi < v then hi else v

/-- An angle saturates at −2^40 and 2^40 (1.7.3). -/
def satAngle (v : Int) : Int := clampInt v (-1099511627776) 1099511627776

/-- A count holds at 4,294,967,295 (R20, R144). -/
def holdCount (n : Nat) : Nat := min n 4294967295

/-- even-floor (1.7.5). -/
def evenFloor (v : Int) : Int := v - v % 2

/-- Rounding up to a multiple of 4 (R111). -/
def upToFour (v : Int) : Int := v + (-v) % 4

/-- The least of a list of integers, `d` for the empty list. -/
def minOf (d : Int) : List Int → Int
  | [] => d
  | x :: xs => xs.foldl min x

/-- The greatest of a list of integers, `d` for the empty list. -/
def maxOf (d : Int) : List Int → Int
  | [] => d
  | x :: xs => xs.foldl max x

/-- A value put into a sorted list. -/
def insertAscending (v : Int) : List Int → List Int
  | [] => [v]
  | x :: xs => if v ≤ x then v :: x :: xs else x :: insertAscending v xs

/-- The list sorted in ascending order. -/
def sortAscending : List Int → List Int
  | [] => []
  | x :: xs => insertAscending x (sortAscending xs)

/-- The lower median: the element at index floor((n−1)/2) after sorting (1.7.5). -/
def lowerMedian (vs : List Int) : Int := (sortAscending vs).getD ((vs.length - 1) / 2) 0

/-! ## The stacked DRAM -/

/-- The number of bytes of the stacked DRAM (R131). -/
def dramBytes : Nat := 67108864

/-- The byte at an address; an unlisted address reads 0, as INIT leaves every byte (R132). -/
def memRead : List Host.Cell → Nat → Byte
  | [], _ => 0
  | (a, v) :: rest, k => if a = k then v else memRead rest k

/-- A byte stored at an address. The list stays in canonical form: addresses rising, no byte 0 listed. -/
def memWrite : List Host.Cell → Nat → Byte → List Host.Cell
  | [], k, v => if v = 0 then [] else [(k, v)]
  | (a, w) :: rest, k, v =>
    if k < a then (if v = 0 then (a, w) :: rest else (k, v) :: (a, w) :: rest)
    else if k = a then (if v = 0 then rest else (k, v) :: rest)
    else (a, w) :: memWrite rest k v

/-- Bytes stored from an address upward. -/
def memWriteBytes (mem : List Host.Cell) (addr : Nat) : List Byte → List Host.Cell
  | [] => mem
  | b :: bs => memWriteBytes (memWrite mem addr b) (addr + 1) bs

/-- Every listed address is at least `lo`, addresses rise strictly, and no listed byte is 0. -/
def memWfFrom (lo : Nat) : List Host.Cell → Bool
  | [] => true
  | (a, v) :: rest => decide (lo ≤ a) && decide (v ≠ 0) && memWfFrom (a + 1) rest

/-- The memory is in canonical form. -/
def memWf (mem : List Host.Cell) : Bool := memWfFrom 0 mem

/-! ## Flag sets: the coverage map and the preview computed-flags -/

/-- A flag is set. -/
def flagSet (flags : List Nat) (i : Nat) : Bool := flags.contains i

/-- The flags with one more set, in rising order and without repeats. -/
def setFlag : List Nat → Nat → List Nat
  | [], i => [i]
  | x :: xs, i => if i < x then i :: x :: xs else if i = x then x :: xs else x :: setFlag xs i

/-- The number of a coverage flag: band and stored column (R136). -/
def coverageIndex (band column : Nat) : Nat := band * 16384 + column

/-! ## Words and check data (R144) -/

/-- The 8-byte words that `len` bytes from byte `addr` touch. -/
def touchedWords (addr len : Nat) : List Nat :=
  if len = 0 then [] else (List.range ((addr + len - 1) / 8 + 1 - addr / 8)).map fun i => addr / 8 + i

/-- A word read shows an uncorrectable error: one it has had since it was written, or a new one (R144). -/
def uncorrectable (store : CanvasStore) (e : MemErrors) (word : Nat) : Bool :=
  flagSet store.multiFlaws word || e.multi.contains word

/-- A word read shows a single-bit error and no more, so it is corrected (R144). -/
def correctable (store : CanvasStore) (e : MemErrors) (word : Nat) : Bool :=
  !uncorrectable store e word && (flagSet store.singleFlaws word || e.single.contains word)

/-- The words among those read that have an uncorrectable error. -/
def badWords (words : List Nat) (e : MemErrors) (store : CanvasStore) : List Nat := words.filter (uncorrectable store e)

/-- The words among those read that are corrected. -/
def correctedWords (words : List Nat) (e : MemErrors) (store : CanvasStore) : List Nat :=
  words.filter (correctable store e)

/-- Words are read: each one corrected adds 1 to the corrected count, and what the check data showed stays with the word
until it is rewritten, because a corrected word is not written back (R144). -/
def checkWords (words : List Nat) (e : MemErrors) (s : State) : State :=
  { s with store := { s.store with
      corrected := holdCount (s.store.corrected + (correctedWords words e s.store).length)
      singleFlaws := ((correctedWords words e s.store).foldl setFlag s.store.singleFlaws).filter
        fun w => !(badWords words e s.store).contains w
      multiFlaws := (badWords words e s.store).foldl setFlag s.store.multiFlaws } }

/-- Words are written with new check data, so they carry no earlier error (R144). -/
def rewriteWords (words : List Nat) (store : CanvasStore) : CanvasStore :=
  { store with
    singleFlaws := store.singleFlaws.filter fun w => !words.contains w
    multiFlaws := store.multiFlaws.filter fun w => !words.contains w }

/-- Whole words are stored: their bytes and new check data (R144). -/
def storeBytes (addr : Nat) (bytes : List Byte) (store : CanvasStore) : CanvasStore :=
  rewriteWords (touchedWords addr bytes.length) { store with mem := memWriteBytes store.mem addr bytes }

/-! ## Attention -/

/-- The attention causes with their codes (R173). -/
inductive Cause where
  | fault | sweepEnd | motionLost | drop | pitchLimit | fetchTimeout | strip
  deriving DecidableEq, Repr

/-- The code of a cause (R173). -/
def causeCode : Cause → Nat
  | .fault => 1
  | .sweepEnd => 2
  | .motionLost => 3
  | .drop => 4
  | .pitchLimit => 5
  | .fetchTimeout => 6
  | .strip => 7

/-- The mark of the cause with code c: bit c−1 (10.4). -/
def causeMark (code : Nat) : BitVec 7 := 1#7 <<< (code - 1)

/-- A block raises a cause: its pending mark is set, whatever its enable (R173). -/
def raiseCause (cause : Cause) (s : State) : State :=
  { s with attn := { s.attn with pendingSet := s.attn.pendingSet ||| causeMark (causeCode cause) } }

/-! ## Counters and slots -/

/-- What becomes of a frame whose slot is made FREE (R54). -/
inductive Fate where
  | composited | guide | still | noAdvance | truncated | discarded
  deriving DecidableEq, Repr

/-- The counter that records a fate increases by one (R20, R54). -/
def countFate (fate : Fate) (c : Counters) : Counters :=
  match fate with
  | .composited => { c with composited := holdCount (c.composited + 1) }
  | .guide => { c with guide := holdCount (c.guide + 1) }
  | .still => { c with still := holdCount (c.still + 1) }
  | .noAdvance => { c with noAdvance := holdCount (c.noAdvance + 1) }
  | .truncated => { c with truncated := holdCount (c.truncated + 1) }
  | .discarded => { c with discarded := holdCount (c.discarded + 1) }

/-- A slot is not FREE. -/
def occupied (slot : Slot) : Bool := decide (slot.state ≠ .free)

/-- How many slots are not FREE (R21). -/
def occupiedSlots (slots : List Slot) : Nat := (slots.filter occupied).length

/-- The state of a slot; a number that names no slot counts as FREE. -/
def slotState (slots : List Slot) (i : Nat) : SlotState :=
  match slots[i]? with
  | some slot => slot.state
  | none => .free

/-- The record of a slot. -/
def slotInfo (slots : List Slot) (i : Nat) : SlotRecord :=
  match slots[i]? with
  | some slot => slot.info
  | none => SlotRecord.unused

/-- Some slot is in the given state. -/
def anySlot (slots : List Slot) (st : SlotState) : Bool := slots.any fun slot => decide (slot.state = st)

/-- The lowest-numbered slot in the given state. -/
def firstSlot (slots : List Slot) (st : SlotState) : Option Nat := slots.findIdx? fun slot => decide (slot.state = st)

/-- An occupied slot passes to another occupied state (R54); a FREE slot stays FREE. -/
def moveSlot (slots : List Slot) (i : Nat) (st : SlotState) : List Slot :=
  slots.modify i fun slot => if occupied slot then { slot with state := st } else slot

/-- An occupied slot is made FREE and the counter of its frame's fate increases in the same event (R54, R62). Nothing
happens to a slot that is FREE already. -/
def freeSlot (i : Nat) (fate : Fate) (s : State) : State :=
  if slotState s.ingest.slots i = .free then s
  else
    { s with
      ingest := { s.ingest with
        slots := s.ingest.slots.modify i fun slot => { slot with state := .free },
        queue := s.ingest.queue.filter fun k => decide (k ≠ i) },
      sweep := { s.sweep with counters := countFate fate s.sweep.counters } }

/-! ## What the engine has still to read (R142) -/

/-- The words that a unit's present operation has still to read. -/
def engineReads (a : Arbiter) : EngineUnit → Option (List Nat)
  | .registration => a.regReads
  | .compositor => a.compReads

/-- A unit has still to read these words. -/
def setReads (unit : EngineUnit) (reads : Option (List Nat)) (a : Arbiter) : Arbiter :=
  match unit with
  | .registration => { a with regReads := reads }
  | .compositor => { a with compReads := reads }

/-- The words left to read; none are left when nothing is planned. -/
def readsLeft (s : State) (unit : EngineUnit) : List Nat := (engineReads s.arb unit).getD []

/-- A unit has read all that its operation needs. -/
def readsDone (s : State) (unit : EngineUnit) : Bool := (readsLeft s unit).isEmpty

/-- A unit has read these words. -/
def countRead (unit : EngineUnit) (words : List Nat) (s : State) : State :=
  { s with arb :=
      setReads unit ((engineReads s.arb unit).map fun left => left.filter fun w => !words.contains w) s.arb }

/-! ## The loss of memory bursts (R146) -/

/-- The waiting request of an engine unit is withdrawn, and a burst of it in progress belongs to an operation that
has ended: it keeps the pixels it may still store (R146). What the operation had still to read is dropped. -/
def dropEngine (unit : EngineUnit) (s : State) : State :=
  { s with
    arb := { s.arb with
      regReads := if unit = .registration then none else s.arb.regReads
      compReads := if unit = .compositor then none else s.arb.compReads
      engineWait := if s.arb.engineWait = some unit then none else s.arb.engineWait,
      inProgress := match s.arb.inProgress with
        | some (.engine u true late areas) =>
          if u = unit then
            some (.engine u false (if unit = .compositor then s.comp.todo else late) areas)
          else some (.engine u true late areas)
        | other => other } }

/-- The ingest unit's writes for one slot are dropped (R58, R60, R146). DESIGN CHOICE (log entry 18), unsafe: they go by the
slot's number, so the lines that an earlier frame of this slot left in the line buffer, when it was released before they
were written, are dropped with those of the truncated frame; R58 speaks of this frame's lines. -/
def dropLines (slot : Nat) (s : State) : State :=
  { s with
    ingest := { s.ingest with lines := s.ingest.lines.filter fun l => decide (l.slot ≠ slot) },
    arb := { s.arb with
      ingestWait := match s.arb.ingestWait with
        | some b => if b.slot = slot then none else some b
        | none => none,
      inProgress := match s.arb.inProgress with
        | some (.ingest b live) => some (.ingest b (live && decide (b.slot ≠ slot)))
        | other => other } }

/-- The line buffer is free: its lines are dropped, the ingest unit's waiting request is withdrawn, and a burst of it in
progress only stores its bytes (R65, R146). -/
def freeLines (s : State) : State :=
  { s with
    ingest := { s.ingest with lines := [] },
    arb := { s.arb with
      ingestWait := none,
      inProgress := match s.arb.inProgress with
        | some (.ingest b _) => some (.ingest b false)
        | other => other } }

/-- The line buffer is free, and the frame on the port is ignored to its FV fall (R60, R65). -/
def dropAllLines (s : State) : State :=
  let s1 := freeLines s
  { s1 with ingest := { s1.ingest with
      port := match s1.ingest.port with
        | .low => .low
        | _ => .ignored } }

/-- A requester's memory request is withdrawn, and a burst of it in progress is dropped (R146, R152, R163). -/
def dropFetch (r : Requester) (s : State) : State :=
  { s with
    arb := { s.arb with
      fetchWait := match s.arb.fetchWait with
        | some b => if b.requester = r then none else some b
        | none => none,
      inProgress := match s.arb.inProgress with
        | some (.fetch b data live) => some (.fetch b data (live && decide (b.requester ≠ r)))
        | other => other } }

/-- Every slot that is not FREE is made FREE and counted as discarded; the queue is empty, the line buffer is free and
the frame on the port is ignored (R14, R17, R60, R65). -/
def discardSlots (s : State) : State :=
  dropAllLines
    { s with
      sweep := { s.sweep with
        counters := { s.sweep.counters with
          discarded := holdCount (s.sweep.counters.discarded + occupiedSlots s.ingest.slots) } },
      ingest := { s.ingest with
        slots := s.ingest.slots.map fun slot => { slot with state := .free },
        queue := [] } }

end Sys2Proof.Machine
end

