-- ==== Sys2Proof/Machine/Geometry.lean ====
section
/-! DEFINITION. What the configuration decides about the canvas, the areas of the stacked DRAM and the sample clock
(chapters 4 and 7), and how reads of the canvas, the slots and the preview are served. -/

namespace Sys2Proof.Machine

/-- H_c = H_f − 2m (R69). -/
def canvasHeight (cfg : Configuration) : Nat := cfg.frameHeight - 2 * cfg.margin

/-- The rows of a band, H_c/8 (R69). -/
def bandRows (cfg : Configuration) : Nat := canvasHeight cfg / 8

/-- W_ring = ceil(20,736,000 / p) (R135). -/
def ringWidth (cfg : Configuration) : Nat := (20736000 + cfg.columnAngle - 1) / cfg.columnAngle

/-- The group count (R134). -/
def groupCount (cfg : Configuration) : Nat :=
  match cfg.mode with
  | .linear => cfg.canvasWidth / 16
  | .ring => (ringWidth cfg + 15) / 16

/-- The preview width in preview columns (R141). -/
def previewWidth (cfg : Configuration) : Nat := 2 * groupCount cfg

/-- The sample period T = P × (N+1) ticks (R22). -/
def samplePeriod (cfg : Configuration) : Nat := cfg.prescale * (cfg.sampleCount + 1)

/-- The sweep column of the opening frame's centre, x_0 = W_f/2 + 64 (R76). -/
def originColumn (cfg : Configuration) : Int := (cfg.frameWidth / 2 + 64 : Nat)

/-- The centre canvas row of band k, floor((2k+1) × H_c / 16) (R69). -/
def bandCentre (cfg : Configuration) (k : Nat) : Nat := (2 * k + 1) * canvasHeight cfg / 16

/-- The bands, top to bottom. -/
def bands : List Nat := [0, 1, 2, 3, 4, 5, 6, 7]

/-- The stored column of a sweep column (R135). -/
def storedColumn (cfg : Configuration) (x : Int) : Nat :=
  match cfg.mode with
  | .linear => x.toNat
  | .ring => (x % (ringWidth cfg : Int)).toNat

/-- First byte of the canvas area (R131). -/
def canvasArea : Nat := 16777216

/-- First byte of the preview area (R131). -/
def previewArea : Nat := 50331648

/-- The bytes of a slot's buffer (R133). -/
def slotBytes : Nat := 2457600

/-- Where a frame pixel lies: slot, pixel line, frame column (R133). -/
def slotAddress (cfg : Configuration) (slot line column : Nat) : Nat :=
  slot * slotBytes + line * cfg.frameWidth * 2 + 2 * column

/-- Where a canvas cell lies: stored column and canvas row (R134). -/
def cellAddress (cfg : Configuration) (column row : Nat) : Nat :=
  canvasArea + column / 16 * (canvasHeight cfg * 32) + row * 32 + 2 * (column % 16)

/-- Where a preview pixel lies: preview column and row (R141). -/
def previewAddress (cfg : Configuration) (column row : Nat) : Nat :=
  previewArea + row * previewWidth cfg * 2 + 2 * column

/-- The words of a slot that hold frame columns `c1` to `c2`, in either order, of a pixel line (R133). -/
def lineWords (cfg : Configuration) (slot line c1 c2 : Nat) : List Nat :=
  touchedWords (slotAddress cfg slot line (min c1 c2)) (2 * (max c1 c2 + 1 - min c1 c2))

/-- The bytes of a slot that a frame uses (R133). -/
def slotUsed (cfg : Configuration) : Nat := cfg.frameWidth * cfg.frameHeight * 2

/-- The bytes of the canvas area in use (R134). -/
def canvasUsed (cfg : Configuration) : Nat := groupCount cfg * (canvasHeight cfg * 32)

/-- The bytes of the preview area in use (R141). -/
def previewUsed (cfg : Configuration) : Nat := canvasHeight cfg / 8 * (previewWidth cfg * 2)

/-- A run of bytes lies wholly in an area in use (R131, R142). -/
def areaHolds (a : MoveArea) (addr len : Nat) : Bool := decide (a.base ≤ addr ∧ addr + len ≤ a.base + a.size)

/-- Where byte `offset` of a fetch item lies in the DRAM (R134, R141, R185). -/
def fetchAddress (cfg : Configuration) (kind : FetchKind) (item offset : Nat) : Nat :=
  match kind with
  | .canvas => canvasArea + item * (canvasHeight cfg * 32) + offset
  | .preview | .strips | .guide | .invalid => previewArea + item * previewWidth cfg * 2 + offset

/-- The band of a canvas row (R69). -/
def bandOfRow (cfg : Configuration) (row : Nat) : Nat := row / bandRows cfg

/-- A canvas cell as a read returns it (R139): Y, chroma, and whether it is written. -/
structure CellRead where
  y : Byte
  c : Byte
  written : Bool
  deriving DecidableEq, Repr

/-- The fill's chroma for a column: U at an even one, V at an odd one (R139, R141). -/
def fillChroma (fill : FillPixel) (column : Nat) : Byte := if column % 2 = 0 then fill.u else fill.v

/-- A read of the canvas at a stored column and a row, served through the coverage map (R139). -/
def readCell (cfg : Configuration) (store : CanvasStore) (column row : Nat) : CellRead :=
  if flagSet store.coverage (coverageIndex (bandOfRow cfg row) column) then
    ⟨memRead store.mem (cellAddress cfg column row), memRead store.mem (cellAddress cfg column row + 1), true⟩
  else ⟨store.fill.y, fillChroma store.fill column, false⟩

/-- A read of the preview (R141): the stored pixel of a computed column, otherwise the fill. -/
def readPreview (cfg : Configuration) (store : CanvasStore) (column row : Nat) : Byte × Byte :=
  if flagSet store.computed column then
    (memRead store.mem (previewAddress cfg column row), memRead store.mem (previewAddress cfg column row + 1))
  else (store.fill.y, fillChroma store.fill column)

/-- The luma of a frame pixel in a slot. -/
def slotLuma (cfg : Configuration) (store : CanvasStore) (slot line column : Nat) : Byte :=
  memRead store.mem (slotAddress cfg slot line column)

/-- The chroma sample of a frame pixel in a slot. -/
def slotChroma (cfg : Configuration) (store : CanvasStore) (slot line column : Nat) : Byte :=
  memRead store.mem (slotAddress cfg slot line column + 1)

/-- The sign of the sweep direction; an UNKNOWN direction is taken as +1. -/
def dirSign : Direction → Int
  | .minus => -1
  | .plus => 1
  | .unknown => 1

/-- The frame column of a sweep-order column u (R77). -/
def frameColumn (cfg : Configuration) (dir : Direction) (u : Nat) : Nat :=
  match dir with
  | .minus => cfg.frameWidth - 1 - u
  | _ => u

/-- The frame column whose chroma sample a sweep-order column takes: the pair keeps its U and V (R77). -/
def chromaColumn (cfg : Configuration) (dir : Direction) (u : Nat) : Nat :=
  2 * (frameColumn cfg dir u / 2) + u % 2

/-- Byte `n` of a column group as the fetch port reads it: 32 bytes a row, two a cell (R134, R185). -/
def groupByte (cfg : Configuration) (store : CanvasStore) (group n : Nat) : Byte :=
  let cell := readCell cfg store (16 * group + n % 32 / 2) (n / 32)
  if n % 2 = 0 then cell.y else cell.c

/-- Byte `n` of a preview row as the fetch port reads it (R141, R185). -/
def previewByte (cfg : Configuration) (store : CanvasStore) (row n : Nat) : Byte :=
  let pixel := readPreview cfg store (n / 2) row
  if n % 2 = 0 then pixel.1 else pixel.2

/-- The bytes a fetch burst reads. -/
def fetchBytes (cfg : Configuration) (store : CanvasStore) (b : FetchRead) : List Byte :=
  (List.range b.len).map fun i =>
    match b.kind with
    | .canvas => groupByte cfg store b.item (b.offset + i)
    | _ => previewByte cfg store b.item (b.offset + i)

end Sys2Proof.Machine
end

