-- ==== Sys2Proof/Machine/Flags.lean ====
section
/-! DEFINITION. The flag computations: the flags a frame gathers, the flag words of the strip and guide records, the
attention sets and ATN, and the link status. -/

namespace Sys2Proof.Machine

/-! ## Frame and strip flags -/

/-- The flags of either set. -/
def mergeFlags (a b : FrameFlags) : FrameFlags :=
  ⟨a.trackShort || b.trackShort, a.extrapolated || b.extrapolated, a.gap || b.gap, a.rateSat || b.rateSat,
    a.pitchClamp || b.pitchClamp, a.rsClamp || b.rsClamp⟩

/-- The flags that the ring entries used by a lookup give to the frame (R75). -/
def usedFlags (used : List PoseEntry) : FrameFlags :=
  { FrameFlags.clear with gap := used.any PoseEntry.gap, rateSat := used.any PoseEntry.sat }

/-- The value of a flag at a bit place. -/
def flagBit (b : Bool) (place : Nat) : Nat := if b then 2 ^ place else 0

/-- Bits 1..6 of a flag word: the six flags of a frame (10.5). -/
def frameFlagBits (f : FrameFlags) : Nat :=
  flagBit f.extrapolated 1 + flagBit f.trackShort 2 + flagBit f.gap 3 + flagBit f.rateSat 4 + flagBit f.pitchClamp 5 +
    flagBit f.rsClamp 6

/-- The flag word of a strip record (10.5). -/
def stripFlagBits (f : StripFlags) : Nat :=
  flagBit f.motionOnly 0 + frameFlagBits f.frame + flagBit f.detached 7 + flagBit f.closing 8 + flagBit f.closurePoor 9 +
    flagBit f.wrapped 10

/-! ## Attention -/

/-- The causes that are both pending and enabled (R173). -/
def activeCauses (a : Attention) : BitVec 7 := a.pendingSet &&& a.enableSet

/-- ATN is high exactly when an enabled cause is pending (R173). -/
def atnHigh (a : Attention) : Bool := decide (activeCauses a ≠ 0)

/-- The code of the highest-priority cause that is pending and enabled, or 0 (R174): the lowest code wins. -/
def attentionAnswer (a : Attention) : Nat :=
  match ([1, 2, 3, 4, 5, 6, 7] : List Nat).find? fun code => (activeCauses a).getLsbD (code - 1) with
  | some code => code
  | none => 0

/-! ## Link status -/

/-- The link status (R166): EXECUTING while the command slot is taken, REPLY_READY while the reply slot holds a
reply. -/
def linkStatus (l : ControlLink) : LinkStatus :=
  if l.command.isSome then .executing else if l.reply.isSome then .replyReady else .noReply

end Sys2Proof.Machine
end

