-- ==== Sys2Proof/Machine/Operands.lean ====
section
/-! DEFINITION. The operands of the commands as they come in on the wires (chapter 10): the frame header record, the
gyro sample, the configuration record with its checks and clamps, and the fetch request message. -/

namespace Sys2Proof.Machine

/-! ## Frame header record (R47, 10.2) -/

/-- The fields of a header record (R47). -/
structure Header where
  seq : Half
  width : Nat
  height : Nat
  exposure : Nat
  rowPeriod : Nat
  startMark : Bool
  stopMark : Bool
  guideMark : Bool
  deriving DecidableEq, Repr

/-- The byte of a word that comes first: bits 15:8 (R182). -/
def highByte (w : Half) : Byte := w.extractLsb' 8 8

/-- The byte of a word that comes second: bits 7:0 (R182). -/
def lowByte (w : Half) : Byte := w.extractLsb' 0 8

/-- The header record of a header line, or none for a short header: fewer than 16 words (R47). -/
def parseHeader (words : List Half) : Option Header :=
  if words.length < 16 then none
  else
    let w := fun i => words.getD i 0
    some
      { seq := w 0
        width := (w 1).toNat
        height := (w 2).toNat
        exposure := (w 3).toNat * 256 + (highByte (w 4)).toNat
        rowPeriod := (w 5).toNat
        startMark := (w 4).getLsbD 0
        stopMark := (w 4).getLsbD 1
        guideMark := (w 4).getLsbD 2 }

/-! ## Gyro sample (10.3) and axis map (R28) -/

/-- The rate code of an axis in the six bytes of a read: X, Y, Z, signed, first byte on top. -/
def axisCode (bytes : BitVec 48) : Axis → Int
  | .x => (bytes.extractLsb' 32 16).toInt
  | .y => (bytes.extractLsb' 16 16).toInt
  | .z => (bytes.extractLsb' 0 16).toInt

/-- The raw value of an axis: the code, negated for sign − (R28). -/
def rawRate (code : Int) (negated : Bool) : Int := if negated then -code else code

/-- A code at a limit sets SAT (R28). -/
def codeSaturates (code : Int) : Bool := decide (code = 32767 ∨ code = -32768)

/-! ## Configuration record (R170, R171, 10.4) -/

/-- The unsigned number in `len` bytes from byte `pos`, most significant byte first (R182). -/
def bytesNat (payload : List Byte) (pos len : Nat) : Nat :=
  ((payload.drop pos).take len).foldl (fun acc b => acc * 256 + b.toNat) 0

/-- The signed 16-bit number at byte `pos`. -/
def bytesInt16 (payload : List Byte) (pos : Nat) : Int := (BitVec.ofNat 16 (bytesNat payload pos 2)).toInt

/-- The axis that a two-bit code names; 3 names none. -/
def axisOf : Nat → Option Axis
  | 0 => some .x
  | 1 => some .y
  | 2 => some .z
  | _ => none

/-- The axis map byte (10.4); none if an axis is out of range or both are the same (R28, R170 field 10). -/
def parseAxisMap (b : Nat) : Option AxisMap :=
  match axisOf (b % 4), axisOf (b / 8 % 4) with
  | some yawAxis, some pitchAxis =>
    if yawAxis = pitchAxis then none
    else some ⟨yawAxis, b / 4 % 2 = 1, pitchAxis, b / 32 % 2 = 1⟩
  | _, _ => none

/-- The canvas mode of a code. -/
def modeOf : Nat → Option CanvasMode
  | 0 => some .linear
  | 1 => some .ring
  | _ => none

/-- The bias mode of a code. -/
def biasModeOf : Nat → Option BiasMode
  | 0 => some .auto
  | 1 => some .fixed
  | _ => none

/-- The service order of a code. -/
def serviceOrderOf : Nat → Option ServiceOrder
  | 0 => some .fixed
  | 1 => some .rotate
  | _ => none

/-- The record as sent, its codes read: a value out of a set shows as none. -/
structure RawConfiguration where
  values : Configuration
  mode : Option CanvasMode
  axisMap : Option AxisMap
  biasMode : Option BiasMode
  serviceOrder : Option ServiceOrder
  deriving DecidableEq, Repr

/-- The fields of a configuration record at their places in the payload (10.4). -/
def parseConfiguration (payload : List Byte) : RawConfiguration :=
  let n := bytesNat payload
  let mode := modeOf (n 7 1)
  let axisMap := parseAxisMap (n 15 1)
  let biasMode := biasModeOf (n 16 1)
  let serviceOrder := serviceOrderOf (n 22 1)
  { values :=
      { frameWidth := n 0 2
        frameHeight := n 2 2
        margin := n 4 1
        columnAngle := n 5 2
        mode := mode.getD .linear
        canvasWidth := n 8 2
        fsr := n 10 2
        prescale := n 12 1
        sampleCount := n 13 2
        axisMap := axisMap.getD Configuration.default.axisMap
        biasMode := biasMode.getD .auto
        biasYaw := bytesInt16 payload 17
        biasPitch := bytesInt16 payload 19
        blend := n 21 1
        serviceOrder := serviceOrder.getD .fixed
        motionLatency := n 23 2
        captureLatency := n 25 3
        stillThreshold := n 28 2
        motionWait := n 30 1
        searchRange := n 31 1
        minPatches := n 32 1
        sadLimit := n 33 2
        sadMargin := n 35 2
        textureThreshold := n 37 3
        seamReach := n 40 2
        jumpLimit := n 42 1
        minOverlap := n 43 2
        minAdvance := n 45 2
        closureTolerance := n 47 1
        sweepTimeLimit := n 48 4
        fetchWaitLimit := n 52 4
        fill := ⟨BitVec.ofNat 8 (n 56 1), BitVec.ofNat 8 (n 57 1), BitVec.ofNat 8 (n 58 1)⟩ }
    mode := mode
    axisMap := axisMap
    biasMode := biasMode
    serviceOrder := serviceOrder }

/-- A number of a range that is a multiple of a step. -/
def inSteps (v lo hi step : Nat) : Bool := decide (lo ≤ v ∧ v ≤ hi ∧ v % step = 0)

/-- RING needs p ≥ 1266 and an even ceil(20,736,000 / p) (R170 field 5). -/
def ringAllowed (p : Nat) : Bool := decide (1266 ≤ p ∧ (20736000 + p - 1) / p % 2 = 0)

/-- The fields marked "refuse" in number order, each with whether it is in range (R170). A condition that joins two
fields is reported against the later. -/
def refuseChecks (raw : RawConfiguration) : List (Nat × Bool) :=
  let c := raw.values
  [ (1, inSteps c.frameWidth 320 1280 16),
    (2, inSteps c.frameHeight 240 960 8),
    (3, inSteps c.margin 0 128 4 && decide (2 * c.margin + 128 ≤ c.frameHeight)),
    (4, decide (256 ≤ c.columnAngle ∧ c.columnAngle ≤ 16383)),
    (5, match raw.mode with
        | none => false
        | some .linear => true
        | some .ring => ringAllowed c.columnAngle),
    (6, match raw.mode with
        | some .ring => true
        | _ => inSteps c.canvasWidth (c.frameWidth + 128) 16384 16),
    (7, [250, 500, 1000, 2000].contains c.fsr),
    (8, [1, 4, 16, 64].contains c.prescale),
    (9, decide (c.sampleCount ≤ 4095 ∧ 6000 ≤ samplePeriod c ∧ samplePeriod c ≤ 96000)),
    (10, raw.axisMap.isSome),
    (11, raw.biasMode.isSome),
    (14, [8, 16, 32, 64].contains c.blend),
    (15, raw.serviceOrder.isSome) ]

/-- The number of the first field that is out of range and refused. -/
def firstRefused (raw : RawConfiguration) : Option Nat :=
  ((refuseChecks raw).find? fun check => !check.2).map Prod.fst

/-- A value brought into a range (R171). -/
def clampNat (v lo hi : Nat) : Nat := if v < lo then lo else if hi < v then hi else v

/-- A value rounded down to a multiple (R171). -/
def downTo (step v : Nat) : Nat := v - v % step

/-- The "clamp" fields brought into range (R170, R171). -/
def clampConfiguration (c : Configuration) : Configuration :=
  { c with
    motionLatency := clampNat c.motionLatency 0 65535
    captureLatency := clampNat c.captureLatency 0 1048575
    stillThreshold := clampNat c.stillThreshold 1 4096
    motionWait := clampNat c.motionWait 1 16
    searchRange := clampNat c.searchRange 4 32
    minPatches := clampNat c.minPatches 1 8
    sadLimit := clampNat c.sadLimit 256 65280
    sadMargin := clampNat c.sadMargin 0 4096
    textureThreshold := clampNat c.textureThreshold 0 131071
    seamReach := downTo 4 (clampNat c.seamReach c.blend 256)
    jumpLimit := downTo 4 (clampNat c.jumpLimit 0 64)
    minOverlap := clampNat c.minOverlap 16 512
    minAdvance := downTo 2 (clampNat c.minAdvance 2 256)
    closureTolerance := clampNat c.closureTolerance 0 32
    sweepTimeLimit := clampNat c.sweepTimeLimit 24000000 1440000000
    fetchWaitLimit := clampNat c.fetchWaitLimit 0 24000000 }

/-- The clamped fields, in number order. -/
def clampFields (c : Configuration) : List Nat :=
  [ c.motionLatency, c.captureLatency, c.stillThreshold, c.motionWait, c.searchRange, c.minPatches, c.sadLimit,
    c.sadMargin, c.textureThreshold, c.seamReach, c.jumpLimit, c.minOverlap, c.minAdvance, c.closureTolerance,
    c.sweepTimeLimit, c.fetchWaitLimit ]

/-- How many fields' values two records differ in. -/
def changedFields (a b : Configuration) : Nat :=
  (((clampFields a).zip (clampFields b)).filter fun p => decide (p.1 ≠ p.2)).length

/-! ## Fetch request message (R148, R184) -/

/-- The kind of a three-bit code; 4..7 are invalid. -/
def kindOf : Nat → FetchKind
  | 0 => .canvas
  | 1 => .preview
  | 2 => .strips
  | 3 => .guide
  | _ => .invalid

/-- The request a message carries; repeat is honoured for PREVIEW and GUIDE alone (R148). -/
def parseRequest (message : BitVec 40) : FetchReq :=
  let kind := kindOf (message.extractLsb' 35 3).toNat
  { kind := kind
    first := (message.extractLsb' 16 16).toNat
    count := (message.extractLsb' 0 16).toNat
    again := message.getLsbD 34 && decide (kind = .preview ∨ kind = .guide) }

/-- The active bit of a message (R184). -/
def requestActive (message : BitVec 40) : Bool := message.getLsbD 38

end Sys2Proof.Machine
end

