-- ==== Sys2Proof/Machine/Motion.lean ====
section
/-! DEFINITION. The motion unit's operations (chapter 2): the sample clock, the rates, the bias, the integrator, the
pose ring and the link states. -/

namespace Sys2Proof.Machine

/-! ## Sample clock -/

/-- The due time of the next strobe: strobe k is due at t_arm + k × T (R23). -/
def nextStrobe (cfg : Configuration) (m : Motion) : Time :=
  m.armTime + BitVec.ofNat 32 ((m.strobes + 1) * samplePeriod cfg)

/-- The length of the data-ready window, floor(T/2) (R24). -/
def windowTicks (cfg : Configuration) : Nat := samplePeriod cfg / 2

/-- The ticks of the six-byte read (R25). -/
def readTicks : Nat := 200

/-- The sample transaction when the sample clock stops: an open window closes, a read in flight is discarded (R27). -/
def stoppedTransaction : SampleTransaction → SampleTransaction
  | .window _ _ => .absent
  | .reading _ start => .discarding start
  | other => other

/-- The sample clock stops and the link state is OFF (R23, R40, R45). -/
def stopMotion (m : Motion) : Motion :=
  { m with clockRunning := false, link := .off, tx := stoppedTransaction m.tx }

/-- The motion unit at an accepted ARM (R23, R30, R31, R33, R38, R40, R45). DESIGN CHOICE (log entry 40), unsafe: the last
integrated time, which R33 and R45 leave open here, is 0, and the recorded strobe time (R24), which R23 and R45 leave open
until the first strobe, is absent. -/
def armMotion (cfg : Configuration) (now : Time) (m : Motion) : Motion :=
  { m with
    clockRunning := true
    armTime := now
    strobes := 0
    strobeTime := none
    missCount := 0
    goodCount := 0
    link := .sampling
    integ := Integrator.zero
    ring := []
    yawWindow := []
    pitchWindow := []
    goodSinceArm := 0
    biasYaw := match cfg.biasMode with
      | .fixed => cfg.biasYaw
      | .auto => 0
    biasPitch := match cfg.biasMode with
      | .fixed => cfg.biasPitch
      | .auto => 0
    biasSource := match cfg.biasMode with
      | .fixed => .fixed
      | .auto => .pending }

/-- The motion unit at SELFTEST (R45). DESIGN CHOICE (log entry 40), unsafe: the last integrated time is 0, as at ARM; the
recorded strobe time is kept, because no rule changes it there. -/
def selfTestMotion (m : Motion) : Motion :=
  { stopMotion m with
    missCount := 0
    goodCount := 0
    integ := Integrator.zero
    ring := []
    yawWindow := []
    pitchWindow := []
    goodSinceArm := 0 }

/-! ## Rates -/

/-- The rate fed to the integrator: clamp(raw − bias, −32768, 32767) (R29). -/
def integratorRate (raw bias : Int) : Int := clampInt (raw - bias) (-32768) 32767

/-! ## Bias estimation -/

/-- A raw value joins an estimator window of 256 (R31). -/
def joinWindow (window : List Int) (raw : Int) : List Int :=
  (if 256 ≤ window.length then window.drop 1 else window) ++ [raw]

/-- The mean of a window, rounded half up: floor((2 × sum + n) / 2n) (R32). -/
def windowMean (window : List Int) : Int :=
  (2 * window.foldl (· + ·) 0 + (window.length : Int)) / (2 * (window.length : Int))

/-- The mean as R32 uses it, clamped to −32768..32767 before it is used. -/
def clampedMean (window : List Int) : Int := clampInt (windowMean window) (-32768) 32767

/-- Every value lies within the still threshold of the mean (R32). -/
def windowStill (threshold : Nat) (window : List Int) : Bool :=
  window.all fun v => decide (Int.natAbs (v - clampedMean window) ≤ threshold)

/-- The bias test of R32: at least 64 samples, and both windows still. -/
def biasEstimable (cfg : Configuration) (m : Motion) : Bool :=
  decide (64 ≤ min m.goodSinceArm 256) && windowStill cfg.stillThreshold m.yawWindow &&
    windowStill cfg.stillThreshold m.pitchWindow

/-- The decision of the sweep bias at the opening (R30, R32). -/
def decideBias (cfg : Configuration) (m : Motion) : Motion :=
  match cfg.biasMode with
  | .fixed => m
  | .auto =>
    if biasEstimable cfg m then
      { m with
        biasYaw := clampedMean m.yawWindow
        biasPitch := clampedMean m.pitchWindow
        biasSource := .estimated }
    else { m with biasYaw := cfg.biasYaw, biasPitch := cfg.biasPitch, biasSource := .fallback }

/-! ## Integrator -/

/-- The integrator's divisor D (2.6). -/
def angleDivisor : Int := 40960000

/-- The numerator of a step, u = r' × FSR × Δt × 3 (R34). -/
def stepNumerator (fsr : Nat) (rate dt : Int) : Int := rate * fsr * dt * 3

/-- One step of one axis with its residual (R34). A step that would carry the angle beyond an end of its range sets
it to that end with residual 0 (R36). -/
def integrateAxis (a : AxisIntegral) (u : Int) : AxisIntegral :=
  let sum := u + a.residual
  let angle := a.angle + sum / angleDivisor
  if angle < -1099511627776 then ⟨-1099511627776, 0⟩
  else if 1099511627776 < angle then ⟨1099511627776, 0⟩
  else ⟨angle, sum % angleDivisor⟩

/-- Δt before its clamp, and after it: at most 8 × T (R35). -/
def clampedDelta (cfg : Configuration) (delta : Int) : Int := min delta (8 * (samplePeriod cfg : Int))

/-- The clamp on Δt bites, so the entry carries GAP (R35). DESIGN CHOICE (log entry 33), unsafe: Δt is the signed
difference of two times (1.7.2), so after a gap of more than 2^31 ticks between good samples, which only ARMED can have,
it is negative, the clamp does not bite and there is no GAP; R35's "every k ≥ 9" would have both. -/
def deltaGap (cfg : Configuration) (delta : Int) : Bool := decide (8 * (samplePeriod cfg : Int) < delta)

/-- The integrator takes a good sample with its rates (R33, R34). -/
def integrate (cfg : Configuration) (i : Integrator) (sample : Time) (rateYaw ratePitch : Int) : Integrator :=
  if i.started then
    let dt := clampedDelta cfg (ticksSince sample i.lastTime)
    { yaw := integrateAxis i.yaw (stepNumerator cfg.fsr rateYaw dt)
      pitch := integrateAxis i.pitch (stepNumerator cfg.fsr ratePitch dt)
      lastTime := sample
      started := true }
  else { i with lastTime := sample, started := true }

/-! ## Pose ring -/

/-- An entry joins the ring at the newest end; beyond 512 the oldest is removed (R38). -/
def joinRing (ring : List PoseEntry) (entry : PoseEntry) : List PoseEntry :=
  (if 512 ≤ ring.length then ring.drop 1 else ring) ++ [entry]

/-- The raw yaw and pitch values of a sample (R28). -/
def rawYaw (cfg : Configuration) (bytes : BitVec 48) : Int :=
  rawRate (axisCode bytes cfg.axisMap.yawAxis) cfg.axisMap.yawNegated

/-- The raw pitch value of a sample (R28). -/
def rawPitch (cfg : Configuration) (bytes : BitVec 48) : Int :=
  rawRate (axisCode bytes cfg.axisMap.pitchAxis) cfg.axisMap.pitchNegated

/-- The SAT mark of a sample: the yaw-axis or pitch-axis code is at a limit (R28). -/
def sampleSaturated (cfg : Configuration) (bytes : BitVec 48) : Bool :=
  codeSaturates (axisCode bytes cfg.axisMap.yawAxis) || codeSaturates (axisCode bytes cfg.axisMap.pitchAxis)

/-- In AUTO mode while ARMED, a good sample's raw values join the windows and c counts it (R31). DEDUCED (log entry 42),
unsafe: c counts the samples that join the windows and no others, so it stays 0 in FIXED mode and keeps its value from the
open on; R31's sentence on c repeats neither condition. -/
def estimate (cfg : Configuration) (armed : Bool) (bytes : BitVec 48) (m : Motion) : Motion :=
  if armed ∧ cfg.biasMode = .auto then
    { m with
      yawWindow := joinWindow m.yawWindow (rawYaw cfg bytes)
      pitchWindow := joinWindow m.pitchWindow (rawPitch cfg bytes)
      goodSinceArm := min (m.goodSinceArm + 1) 65535 }
  else m

/-- The entry of a sample (R37): the angles after its step, its rates and its flags. -/
def poseEntry (cfg : Configuration) (m : Motion) (sample : Time) (bytes : BitVec 48) : PoseEntry :=
  let rateYaw := integratorRate (rawYaw cfg bytes) m.biasYaw
  let ratePitch := integratorRate (rawPitch cfg bytes) m.biasPitch
  let after := integrate cfg m.integ sample rateYaw ratePitch
  { time := sample
    yaw := after.yaw.angle
    pitch := after.pitch.angle
    rateYaw := rateYaw
    ratePitch := ratePitch
    gap := m.integ.started && deltaGap cfg (ticksSince sample m.integ.lastTime)
    sat := sampleSaturated cfg bytes }

/-- A good sample is integrated and its entry joins the ring (R33, R34, R38). -/
def takeSample (cfg : Configuration) (sample : Time) (bytes : BitVec 48) (m : Motion) : Motion :=
  let entry := poseEntry cfg m sample bytes
  { m with
    integ := integrate cfg m.integ sample entry.rateYaw entry.ratePitch
    ring := joinRing m.ring entry }

/-! ## Link states -/

/-- A good sample brings a regain: the fourth in a row while LOST (R40, R42). -/
def regains (m : Motion) : Bool := decide (m.link = .lost ∧ 4 ≤ m.goodCount + 1)

/-- The counts and the link state after a good sample (R40, R42). -/
def goodLink (m : Motion) : Motion :=
  { m with
    missCount := 0
    goodCount := min (m.goodCount + 1) 4
    link := if regains m then .sampling else m.link }

/-- A missed sample brings a loss: the eighth in a row while SAMPLING (R40, R41). -/
def loses (m : Motion) : Bool := decide (m.link = .sampling ∧ 8 ≤ m.missCount + 1)

/-- The counts and the link state after a missed sample (R26, R40, R41). -/
def missLink (m : Motion) : Motion :=
  { m with
    goodCount := 0
    missCount := min (m.missCount + 1) 8
    link := if loses m then .lost else m.link }

end Sys2Proof.Machine
end

