-- ==== Sys2Proof/Machine/Placement.lean ====
section
/-! DEFINITION. The placement unit's computations (chapter 4): row and band times, pose lookup and extrapolation,
pitch offset, columns and edges, the history column and the re-anchor's trim. -/

namespace Sys2Proof.Machine

/-! ## Times and rows (R68, R69) -/

/-- The centre-exposure time of frame row i (R68). -/
def rowTime (cfg : Configuration) (info : SlotRecord) (i : Nat) : Time :=
  info.tSof - BitVec.ofNat 32 cfg.captureLatency + BitVec.ofNat 32 (i * info.rowPeriod / 16) -
    BitVec.ofNat 32 (info.exposure / 2)

/-- The reference time, the row time of frame row H_f/2 (R68). -/
def referenceTime (cfg : Configuration) (info : SlotRecord) : Time := rowTime cfg info (cfg.frameHeight / 2)

/-- The band row of band k in the frame, c_k + m + y_p (R69). -/
def bandRow (cfg : Configuration) (k : Nat) (yP : Int) : Nat := ((bandCentre cfg k : Int) + cfg.margin + yP).toNat

/-- The band time t_k (R69). -/
def bandTime (cfg : Configuration) (info : SlotRecord) (k : Nat) (yP : Int) : Time :=
  rowTime cfg info (bandRow cfg k yP)

/-! ## Pose lookup (R70, R71, R73) -/

/-- A pose found for a frame: yaw, pitch and the flags it gives. -/
structure PoseFound where
  yaw : Int
  pitch : Int
  flags : FrameFlags
  deriving DecidableEq, Repr

/-- Interpolation between the entries a and b around time t (R70). -/
def interpolate (a b : PoseEntry) (t : Time) (va vb : Int) : Int :=
  va + (vb - va) * ticksSince t a.time / ticksSince b.time a.time

/-- The newest entry with time before t. -/
def entryBefore (ring : List PoseEntry) (t : Time) : Option PoseEntry :=
  ring.reverse.find? fun e => decide (ticksSince e.time t < 0)

/-- The oldest entry with time after t. -/
def entryAfter (ring : List PoseEntry) (t : Time) : Option PoseEntry :=
  ring.find? fun e => decide (0 < ticksSince e.time t)

/-- The answer that the ring itself gives at time t (R70, R71); none when t is after the newest entry or the ring is
empty (R72). -/
def lookupRing (ring : List PoseEntry) (t : Time) : Option PoseFound :=
  match ring.find? fun e => decide (e.time = t) with
  | some e => some ⟨e.yaw, e.pitch, usedFlags [e]⟩
  | none =>
    match entryBefore ring t, entryAfter ring t with
    | some a, some b => some ⟨interpolate a b t a.yaw b.yaw, interpolate a b t a.pitch b.pitch, usedFlags [a, b]⟩
    | none, some _ =>
      match ring.head? with
      | some e => some ⟨e.yaw, e.pitch, { usedFlags [e] with trackShort := true }⟩
      | none => none
    | _, none => none

/-- One axis extrapolated from the newest entry (R73); an angle saturates (1.7.3, log entry 14). -/
def extrapolateAxis (cfg : Configuration) (angle rate span : Int) : Int :=
  satAngle (angle + stepNumerator cfg.fsr rate span / angleDivisor)

/-- A lookup answered by extrapolation (R73). -/
def extrapolate (cfg : Configuration) (ring : List PoseEntry) (t : Time) : PoseFound :=
  match ring.getLast? with
  | some n =>
    { yaw := extrapolateAxis cfg n.yaw n.rateYaw (ticksSince t n.time)
      pitch := extrapolateAxis cfg n.pitch n.ratePitch (ticksSince t n.time)
      flags := { usedFlags [n] with extrapolated := true } }
  | none => ⟨0, 0, { FrameFlags.clear with extrapolated := true, trackShort := true }⟩

/-- The motion wait limit in ticks (R72). -/
def waitTicks (cfg : Configuration) : Nat := cfg.motionWait * samplePeriod cfg

/-- The due time of a frame's motion wait limit (R72). -/
def waitDue (cfg : Configuration) (w : Working) : Time := w.takeTime + BitVec.ofNat 32 (waitTicks cfg)

/-- The frame's motion wait limit has expired (R72, R73). -/
def waitExpired (cfg : Configuration) (now : Time) (w : Working) : Bool :=
  w.expired || decide (0 ≤ ticksSince now (waitDue cfg w))

/-- What a lookup brings: the pose, a wait, or the turn to the strip history (R72, R74). -/
inductive LookupAnswer where
  | found (pose : PoseFound)
  | wait
  | history
  deriving DecidableEq, Repr

/-- The frame meets the motion-lost mark with the strip count at 0: from then on none of its lookups waits (R74). -/
def meetLoss (s : State) (w : Working) : Working :=
  if s.place.motionLost ∧ s.comp.strips = [] then { w with metLoss := true } else w

/-- A lookup at time t for the frame w (R70 to R74). -/
def lookupPose (cfg : Configuration) (s : State) (w : Working) (t : Time) : LookupAnswer :=
  if s.place.motionLost ∧ s.comp.strips ≠ [] then .history
  else
    match lookupRing s.motion.ring t with
    | some pose => .found pose
    | none =>
      if s.place.motionLost ∨ w.metLoss ∨ waitExpired cfg s.timeBase w then .found (extrapolate cfg s.motion.ring t) else .wait

/-! ## Pitch, columns and edges (R69, R76, R77) -/

/-- The pitch offset before its clamp, floor((θp + trim − θp0) / p) (R69). -/
def rawPitchOffset (cfg : Configuration) (pitch trim origin : Int) : Int := (pitch + trim - origin) / cfg.columnAngle

/-- A pitch offset clamped to −m..m (R69, R77). -/
def clampPitch (cfg : Configuration) (y : Int) : Int := clampInt y (-(cfg.margin : Int)) cfg.margin

/-- The clamp of a pitch offset bites. -/
def pitchClamps (cfg : Configuration) (y : Int) : Bool := decide (clampPitch cfg y ≠ y)

/-- The predicted centre x_c (R76). -/
def predictedCentre (cfg : Configuration) (dir : Direction) (yaw trim origin : Int) : Int :=
  originColumn cfg + dirSign dir * (yaw + trim - origin) / cfg.columnAngle

/-- A band shift before its clamp (R76). -/
def rawShift (cfg : Configuration) (dir : Direction) (bandYaw refYaw : Int) : Int :=
  dirSign dir * (bandYaw - refYaw) / cfg.columnAngle

/-- A band shift clamped to −64..64 (R76). -/
def clampShift (v : Int) : Int := clampInt v (-64) 64

/-- The band shifts of a frame. -/
def bandShifts (cfg : Configuration) (dir : Direction) (refYaw : Int) (yaws : List Int) : List Int :=
  yaws.map fun yaw => clampShift (rawShift cfg dir yaw refYaw)

/-- Some band shift is clamped: RS_CLAMP (R76). -/
def shiftsClamp (cfg : Configuration) (dir : Direction) (refYaw : Int) (yaws : List Int) : Bool :=
  yaws.any fun yaw => decide (clampShift (rawShift cfg dir yaw refYaw) ≠ rawShift cfg dir yaw refYaw)

/-- A band edge, even-floor(x + s_k − W_f/2) (R76, R77). -/
def bandEdge (cfg : Configuration) (x shift : Int) : Int := evenFloor (x + shift - (cfg.frameWidth / 2 : Nat))

/-- The band edges a_k of a placement. -/
def bandEdges (cfg : Configuration) (x : Int) (shifts : List Int) : List Int := shifts.map (bandEdge cfg x)

/-- min_k b_k, with b_k = a_k + W_f. -/
def leastEnd (cfg : Configuration) (edges : List Int) : Int := minOf 0 edges + cfg.frameWidth

/-- Δ of the direction test (R79). -/
def directionDelta (cfg : Configuration) (yaw trim origin : Int) : Int := (yaw + trim - origin) / cfg.columnAngle

/-! ## History and re-anchor (R83, R84) -/

/-- The history column at time t from the strip table (R83). -/
def historyColumn (strips : List StripRecord) (t : Time) : Int :=
  match strips.reverse with
  | [] => 0
  | [n] => n.xC
  | n :: before :: _ =>
    if 0 < ticksSince n.tRef before.tRef then
      n.xC + (n.xC - before.xC) * ticksSince t n.tRef / ticksSince n.tRef before.tRef
    else n.xC

/-- The yaw trim that a re-anchor sets (R84), saturating (R107). -/
def reanchorTrim (cfg : Configuration) (dir : Direction) (strips : List StripRecord) (origin : Int) (r : Reanchor) :
    Int :=
  satAngle (dirSign dir * (historyColumn strips r.time - originColumn cfg) * cfg.columnAngle - (r.yaw - origin))

end Sys2Proof.Machine
end

