-- ==== Sys2Proof/Machine/Registration.lean ====
section
/-! DEFINITION. The registration unit's computations (chapter 5): texture energy, harvests, projection, search,
confidence, consensus and the closure measurement. -/

namespace Sys2Proof.Machine

/-! ## Texture energy (R88) -/

/-- The sample of a 16 × 16 block at row r and column c. -/
def sampleAt (block : List (List Nat)) (r c : Nat) : Nat := (block.getD r []).getD c 0

/-- |a − b| of two luma values. -/
def lumaDiff (a b : Nat) : Nat := Int.natAbs ((a : Int) - b)

/-- The two differences that the sample at (r, c) adds (R88). -/
def sampleEnergy (block : List (List Nat)) (r c : Nat) : Nat :=
  lumaDiff (sampleAt block r (if c = 15 then 14 else c + 1)) (sampleAt block r c) +
    lumaDiff (sampleAt block (if r = 15 then 14 else r + 1) c) (sampleAt block r c)

/-- The sum of a function over the 256 places of a block. -/
def blockSum (f : Nat → Nat → Nat) : Nat :=
  ((List.range 16).map fun r => ((List.range 16).map fun c => f r c).sum).sum

/-- The texture energy of a block (R88). -/
def textureEnergy (block : List (List Nat)) : Nat := blockSum (sampleEnergy block)

/-! ## Harvest (R89, R90) -/

/-- The top row of band k's patches, c_k − 8 (R87). -/
def patchRow (cfg : Configuration) (k : Nat) : Nat := bandCentre cfg k - 8

/-- A candidate is eligible if its band's coverage flag is set at each of its 16 stored columns (R89). -/
def eligible (cfg : Configuration) (store : CanvasStore) (k : Nat) (x : Int) : Bool :=
  (List.range 16).all fun j => flagSet store.coverage (coverageIndex k (storedColumn cfg (x + (j : Int))))

/-- The canvas luma under a candidate patch (R89). -/
def patchSamples (cfg : Configuration) (store : CanvasStore) (k : Nat) (x : Int) : List (List Nat) :=
  (List.range 16).map fun r =>
    (List.range 16).map fun (j : Nat) => (readCell cfg store (storedColumn cfg (x + (j : Int))) (patchRow cfg k + r)).y.toNat

/-- The eligible candidate of highest energy so far; of equal energies the higher column, which comes later. -/
def betterCandidate (best : Option (Patch × Nat)) (next : Patch × Nat) : Option (Patch × Nat) :=
  match best with
  | none => some next
  | some b => if b.2 ≤ next.2 then some next else some b

/-- A band's entry from its candidate columns in rising order (R89). -/
def harvestBand (cfg : Configuration) (store : CanvasStore) (columns : List Int) (k : Nat) : Option Patch :=
  let candidates := (columns.filter (eligible cfg store k)).map fun x =>
    let block := patchSamples cfg store k x
    ((⟨k, x, patchRow cfg k, block⟩ : Patch), textureEnergy block)
  match candidates.foldl betterCandidate none with
  | some (patch, energy) => if cfg.textureThreshold ≤ energy then some patch else none
  | none => none

/-- The words that hold the cells of a candidate patch (R91, R134). -/
def patchWords (cfg : Configuration) (k : Nat) (x : Int) : List Nat :=
  (List.range 16).flatMap fun r =>
    ((List.range 16).map fun (j : Nat) => cellAddress cfg (storedColumn cfg (x + (j : Int))) (patchRow cfg k + r) / 8).dedup

/-- The words that a harvest of one table reads: those of every eligible candidate, row by row (R89, R91). A candidate that
is not eligible is not read. -/
def harvestWords (cfg : Configuration) (store : CanvasStore) (columns : List Int) : List Nat :=
  bands.flatMap fun k => (columns.filter (eligible cfg store k)).flatMap (patchWords cfg k)

/-- The candidate rows of a band in each column group that a candidate lies in: 16 runs of 32 bytes (R134). -/
def patchAreas (cfg : Configuration) (k : Nat) (x : Int) : List MoveArea :=
  ((List.range 16).map fun (j : Nat) => storedColumn cfg (x + (j : Int)) / 16).dedup.map fun group =>
    ⟨cellAddress cfg (16 * group) (patchRow cfg k), 512, true, false⟩

/-- Where a harvest of one table reads: the rows of its eligible candidates (R91). -/
def harvestAreas (cfg : Configuration) (store : CanvasStore) (columns : List Int) : List MoveArea :=
  (bands.flatMap fun k => (columns.filter (eligible cfg store k)).flatMap (patchAreas cfg k)).dedup

/-- A patch table harvested from the canvas (R89). -/
def harvestTable (cfg : Configuration) (store : CanvasStore) (columns : List Int) : List Patch :=
  bands.filterMap (harvestBand cfg store columns)

/-- LEAD's candidate columns F' − 96, F' − 88, …, F' − 32 (R89). -/
def leadColumns (front : Int) : List Int := (List.range 9).map fun (i : Nat) => front - 96 + 8 * (i : Int)

/-- OPENING's candidate columns G, G + 8, …, G + 32 (R90). -/
def openingColumns (clean : Int) : List Int := (List.range 5).map fun (i : Nat) => clean + 8 * (i : Int)

/-! ## Search (R94 to R98) -/

/-- A frame handed to the registration unit (R93), with what the search reads of it. -/
structure SearchFrame where
  slot : Nat
  dir : Direction
  xC : Int
  yP : Int
  shifts : List Int
  source : Source
  deriving DecidableEq, Repr

/-- The dx range of a source: S, or min(2S, 32) for HISTORY (R94). -/
def rangeX (cfg : Configuration) : Source → Nat
  | .track => cfg.searchRange
  | .history => min (2 * cfg.searchRange) 32

/-- The dy range: half the dx range, rounded down (R94). -/
def rangeY (cfg : Configuration) (src : Source) : Nat := rangeX cfg src / 2

/-- The integers −n..n. -/
def symmetricRange (n : Nat) : List Int := (List.range (2 * n + 1)).map fun (i : Nat) => (i : Int) - n

/-- The projected sweep-order column u_0 (R95, R102); `turn` is 0 for LEAD and W_ring for OPENING. -/
def projectColumn (cfg : Configuration) (f : SearchFrame) (turn : Int) (p : Patch) : Int :=
  p.x + turn - (f.xC + f.shifts.getD p.band 0 - (cfg.frameWidth / 2 : Nat))

/-- The projected frame row i_0 (R95). -/
def projectRow (cfg : Configuration) (f : SearchFrame) (p : Patch) : Int := (p.y : Int) + cfg.margin + f.yP

/-- A position is evaluable when its 16 × 16 window lies wholly in the frame (R96). -/
def evaluable (cfg : Configuration) (u i : Int) : Bool :=
  decide (0 ≤ u ∧ u + 15 ≤ (cfg.frameWidth : Int) - 1 ∧ 0 ≤ i ∧ i + 15 ≤ (cfg.frameHeight : Int) - 1)

/-- The evaluable offsets of a patch (R96). -/
def offsets (cfg : Configuration) (f : SearchFrame) (turn : Int) (p : Patch) : List (Int × Int) :=
  ((symmetricRange (rangeY cfg f.source)).flatMap fun dy =>
    (symmetricRange (rangeX cfg f.source)).map fun dx => (dx, dy)).filter fun o =>
      evaluable cfg (projectColumn cfg f turn p + o.1) (projectRow cfg f p + o.2)

/-- The words of the slot under a patch's windows: every window row, from the leftmost window to the rightmost (R96, R105).
The evaluable offsets are a rectangle, from the first of them to the last. -/
def windowWords (cfg : Configuration) (f : SearchFrame) (turn : Int) (p : Patch) : List Nat :=
  match (offsets cfg f turn p).head?, (offsets cfg f turn p).getLast? with
  | some first, some last =>
    let u := projectColumn cfg f turn p
    let i := projectRow cfg f p
    (List.range (last.2 - first.2 + 16).toNat).flatMap fun r =>
      lineWords cfg f.slot ((i + first.2).toNat + r)
        (frameColumn cfg f.dir (u + first.1).toNat) (frameColumn cfg f.dir (u + last.1 + 15).toNat)
  | _, _ => []

/-- The SAD of a patch against the luma at the places of a 16 × 16 window (R97). -/
def blockSad (patch : List (List Nat)) (luma : Nat → Nat → Nat) : Nat :=
  blockSum fun r c => lumaDiff (sampleAt patch r c) (luma r c)

/-- The SAD of a patch against the frame at an offset (R95, R97). -/
def sadAt (cfg : Configuration) (store : CanvasStore) (f : SearchFrame) (turn : Int) (p : Patch) (o : Int × Int) : Nat :=
  let u := (projectColumn cfg f turn p + o.1).toNat
  let i := (projectRow cfg f p + o.2).toNat
  blockSad p.samples fun r c => (slotLuma cfg store f.slot (i + r) (frameColumn cfg f.dir (u + c))).toNat

/-- Offset a with its SAD goes before b with its own (R97): the smaller SAD, then the smaller |dx| + |dy|, the smaller
|dy|, the lower dy, the lower dx. -/
def beforeOffset (a b : (Int × Int) × Nat) : Bool :=
  let sum := fun o : Int × Int => o.1.natAbs + o.2.natAbs
  decide
    (a.2 < b.2 ∨ (a.2 = b.2 ∧
      (sum a.1 < sum b.1 ∨ (sum a.1 = sum b.1 ∧
        (a.1.2.natAbs < b.1.2.natAbs ∨ (a.1.2.natAbs = b.1.2.natAbs ∧
          (a.1.2 < b.1.2 ∨ (a.1.2 = b.1.2 ∧ a.1.1 < b.1.1))))))))

/-- The best of a list of scored offsets (R97). -/
def bestOffset : List ((Int × Int) × Nat) → Option ((Int × Int) × Nat)
  | [] => none
  | x :: xs => some (xs.foldl (fun best o => if beforeOffset o best then o else best) x)

/-- An offset lies more than 1 away from the best in dx or in dy (R98). -/
def farFrom (best o : Int × Int) : Bool := decide (1 < (o.1 - best.1).natAbs ∨ 1 < (o.2 - best.2).natAbs)

/-- A patch with these scored offsets and this best one is confident (R98). -/
def confident (cfg : Configuration) (scored : List ((Int × Int) × Nat)) (best : (Int × Int) × Nat) : Bool :=
  decide (best.2 ≤ cfg.sadLimit) &&
    (scored.filter fun o => farFrom best.1 o.1).all fun o => decide (best.2 + cfg.sadMargin ≤ o.2)

/-- The measured offset of a patch if it is usable and confident (R96 to R98). -/
def measurePatch (cfg : Configuration) (store : CanvasStore) (f : SearchFrame) (turn : Int) (p : Patch) :
    Option (Int × Int) :=
  let scored := (offsets cfg f turn p).map fun o => (o, sadAt cfg store f turn p o)
  match bestOffset scored with
  | none => none
  | some best => if confident cfg scored best then some best.1 else none

/-! ## Consensus (R99, R100) -/

/-- The consensus of a table: the correction if there is one, the confident count and the inlier count. -/
structure Consensus where
  correction : Option (Int × Int)
  confident : Nat
  inliers : Nat
  deriving DecidableEq, Repr

/-- The pair of lower medians of the measured offsets (R99). -/
def medianOffset (measured : List (Int × Int)) : Int × Int :=
  (lowerMedian (measured.map Prod.fst), lowerMedian (measured.map Prod.snd))

/-- A measured offset is an inlier (R100). -/
def inlier (median o : Int × Int) : Bool := decide ((o.1 - median.1).natAbs ≤ 1 ∧ (o.2 - median.2).natAbs ≤ 1)

/-- The consensus of the measured offsets of the confident patches (R99, R100). -/
def consensus (minPatches : Nat) (measured : List (Int × Int)) : Consensus :=
  if measured.length < minPatches ∨ measured = [] then ⟨none, measured.length, 0⟩
  else
    let median := medianOffset measured
    let inliers := (measured.filter (inlier median)).length
    ⟨if inliers < minPatches then none else some median, measured.length, inliers⟩

/-- The consensus of a table's search in a frame. -/
def searchTable (cfg : Configuration) (store : CanvasStore) (f : SearchFrame) (turn : Int) (table : List Patch) :
    Consensus :=
  consensus cfg.minPatches (table.filterMap (measurePatch cfg store f turn))

/-! ## Closure measurement (R102, R103) -/

/-- The closure measurement is made (R102): an ordinary frame in RING mode, OPENING not empty, and the predicted
edges reach the start of the panorama. -/
def closureDue (cfg : Configuration) (cls : FrameClass) (opening : List Patch) (clean : Option Int)
    (predictedEdges : List Int) : Bool :=
  decide (cls = .ordinary ∧ cfg.mode = .ring ∧ opening ≠ []) &&
    match clean with
    | some g => decide (g + (ringWidth cfg : Int) ≤ leastEnd cfg predictedEdges)
    | none => false

/-- The closure measurement from the two consensuses (R103). -/
def closureMeasure (lead : Option (Int × Int)) (opening : Option (Int × Int)) : Option (Int × Int) :=
  opening.map fun o => (o.1 - (lead.getD (0, 0)).1, o.2 - (lead.getD (0, 0)).2)

/-- The result of a search (R101). -/
def searchResult (cfg : Configuration) (store : CanvasStore) (f : SearchFrame) (lead opening : List Patch)
    (due : Bool) : RegResult :=
  let leadConsensus := searchTable cfg store f 0 lead
  let closure :=
    if due then
      closureMeasure leadConsensus.correction (searchTable cfg store f (ringWidth cfg) opening).correction
    else none
  ⟨leadConsensus.correction, leadConsensus.confident, leadConsensus.inliers, closure⟩

end Sys2Proof.Machine
end

