-- ==== Sys2Proof/Machine/Compositor.lean ====
section
/-! DEFINITION. The compositor's computations (chapter 6): the advance test, seam choice, blending, the pixels of a
strip and of the preview, the trims and the guide record. -/

namespace Sys2Proof.Machine

/-! ## Advance test (R109, R110) -/

/-- The class of a strip and its new front F' from F'_raw (R109); `g` is G, or strip 0's highest band edge (R110). -/
def classifyStrip (cfg : Configuration) (g raw : Int) : StripClass × Int :=
  match cfg.mode with
  | .ring =>
    if g + (ringWidth cfg : Int) + 64 ≤ raw then (.closing, g + (ringWidth cfg : Int))
    else (.normal, min raw (g + (ringWidth cfg : Int) - cfg.blend))
  | .linear => if (cfg.canvasWidth : Int) ≤ raw then (.extent, cfg.canvasWidth) else (.normal, raw)

/-- A strip advances unless it is a normal strip other than strip 0 with F' − F below A_min (R109, R110). -/
def stripAdvances (cfg : Configuration) (front : Int) (strip0 : Bool) (cls : StripClass) (newFront : Int) : Bool :=
  strip0 || decide (cls ≠ .normal ∨ (cfg.minAdvance : Int) ≤ newFront - front)

/-- G as a strip's rules use it: its own highest edge for strip 0, otherwise the sweep's (R110). -/
def stripClean (clean : Option Int) (job : StripJob) : Int :=
  if job.strip0 then maxOf 0 job.edges else clean.getD 0

/-! ## Seams (R111 to R114) -/

/-- lo_k of the seam range (R111). -/
def seamLow (cfg : Configuration) (front edge : Int) : Int :=
  upToFour (max (edge + (cfg.blend / 2 : Nat)) (front - cfg.seamReach))

/-- hi_k of the seam range (R111). -/
def seamHigh (cfg : Configuration) (front : Int) : Int := front - (cfg.blend / 2 : Nat)

/-- The candidates of a band, lowest first (R111). -/
def seamCandidates (cfg : Configuration) (front edge : Int) : List Int :=
  let lo := seamLow cfg front edge
  if lo ≤ seamHigh cfg front then
    (List.range ((seamHigh cfg front - lo) / 4 + 1).toNat).map fun (i : Nat) => lo + 4 * (i : Int)
  else []

/-- The luma this strip would place at a cell of band k (R77, R112). -/
def newLuma (cfg : Configuration) (store : CanvasStore) (dir : Direction) (job : StripJob) (k : Nat) (x : Int)
    (row : Nat) : Byte :=
  slotLuma cfg store job.slot ((row : Int) + cfg.margin + job.yP).toNat
    (frameColumn cfg dir (x - job.edges.getD k 0).toNat)

/-- The chroma sample this strip would place at a cell of band k (R77). -/
def newChroma (cfg : Configuration) (store : CanvasStore) (dir : Direction) (job : StripJob) (k : Nat) (x : Int)
    (row : Nat) : Byte :=
  slotChroma cfg store job.slot ((row : Int) + cfg.margin + job.yP).toNat
    (chromaColumn cfg dir (x - job.edges.getD k 0).toNat)

/-- The canvas rows of a band. -/
def rowsOfBand (cfg : Configuration) (k : Nat) : List Nat := (List.range (bandRows cfg)).map fun r => k * bandRows cfg + r

/-- The cost of a candidate (R112). -/
def seamCost (cfg : Configuration) (store : CanvasStore) (dir : Direction) (job : StripJob) (k : Nat) (c : Int) : Nat :=
  ((rowsOfBand cfg k).map fun row =>
    lumaDiff (readCell cfg store (storedColumn cfg c) row).y.toNat (newLuma cfg store dir job k c row).toNat).sum

/-- A blend band in the seam choice: its lowest and highest candidates, its feasible candidates with their
accumulated costs, whether it follows another band of its run and whether the jump limit applies between the
two (R113). -/
structure SeamBand where
  first : Int
  last : Int
  feasible : List (Int × Nat)
  linked : Bool
  limited : Bool
  deriving DecidableEq, Repr

/-- Two columns lie within the jump limit. -/
def withinJump (jump : Nat) (a b : Int) : Bool := decide ((a - b).natAbs ≤ jump)

/-- The jump limit applies between two bands (R113). -/
def jumpApplies (jump : Nat) (above : List (Int × Nat)) (costs : List (Int × Nat)) : Bool :=
  above.any fun p => costs.any fun c => withinJump jump c.1 p.1

/-- The allowed predecessors of a column (R113). -/
def allowedAbove (jump : Nat) (limited : Bool) (above : List (Int × Nat)) (c : Int) : List (Int × Nat) :=
  above.filter fun p => !limited || withinJump jump c p.1

/-- The least accumulated cost of a list of candidates. -/
def leastCost : List (Int × Nat) → Option Nat
  | [] => none
  | x :: xs => some ((xs.map Prod.snd).foldl min x.2)

/-- The feasible candidates of a band below another, with their accumulated costs (R113). -/
def accumulate (jump : Nat) (limited : Bool) (above costs : List (Int × Nat)) : List (Int × Nat) :=
  costs.filterMap fun c => (leastCost (allowedAbove jump limited above c.1)).map fun least => (c.1, c.2 + least)

/-- The bands taken top to bottom (R113); `costs` is empty for a no-blend band. -/
def accumulateBands (jump : Nat) : Option (List (Int × Nat)) → List (List (Int × Nat)) → List (Option SeamBand)
  | _, [] => []
  | above, costs :: rest =>
    match costs.head?, costs.getLast? with
    | some first, some last =>
      let band : SeamBand := match above with
        | none => ⟨first.1, last.1, costs, false, false⟩
        | some feasible =>
          let limited := jumpApplies jump feasible costs
          ⟨first.1, last.1, accumulate jump limited feasible costs, true, limited⟩
      some band :: accumulateBands jump (some band.feasible) rest
    | _, _ => none :: accumulateBands jump none rest

/-- Candidate a goes before b in a band (R114): the smaller accumulated cost, then the smaller distance from the
middle of the band's candidates, then the lower column. -/
def beforeSeam (middle2 : Int) (a b : Int × Nat) : Bool :=
  let distance := fun c : Int × Nat => (2 * c.1 - middle2).natAbs
  decide (a.2 < b.2 ∨ (a.2 = b.2 ∧ (distance a < distance b ∨ (distance a = distance b ∧ a.1 < b.1))))

/-- The chosen candidate of a list (R114). -/
def chooseSeam (middle2 : Int) : List (Int × Nat) → Option Int
  | [] => none
  | x :: xs => some (xs.foldl (fun best c => if beforeSeam middle2 c best then c else best) x).1

/-- The seams fixed from the last band upward (R114), on the bands in reverse order; `below` is the seam of the band
below in the same run and whether the jump limit applies to it. -/
def fixSeams (jump : Nat) : Option (Int × Bool) → List (Option SeamBand) → List (Option Int)
  | _, [] => []
  | _, none :: rest => none :: fixSeams jump none rest
  | below, some band :: rest =>
    let options := match below with
      | none => band.feasible
      | some (c, limited) => allowedAbove jump limited band.feasible c
    let seam := chooseSeam (band.first + band.last) options
    seam :: fixSeams jump (if band.linked then seam.map fun c => (c, band.limited) else none) rest

/-- The seams of all bands from their candidates' costs (R113, R114). -/
def solveSeams (jump : Nat) (costs : List (List (Int × Nat))) : List (Option Int) :=
  (fixSeams jump none (accumulateBands jump none costs).reverse).reverse

/-- The costs of band k's candidates. -/
def bandCosts (cfg : Configuration) (store : CanvasStore) (dir : Direction) (front : Int) (job : StripJob) (k : Nat) :
    List (Int × Nat) :=
  (seamCandidates cfg front (job.edges.getD k 0)).map fun c => (c, seamCost cfg store dir job k c)

/-- The seams of a strip; strip 0 has none (R110). -/
def stripSeams (cfg : Configuration) (store : CanvasStore) (dir : Direction) (front : Int) (job : StripJob) :
    List (Option Int) :=
  if job.strip0 then List.replicate 8 none
  else solveSeams cfg.jumpLimit (bands.map (bandCosts cfg store dir front job))

/-! ## Blending (R116, R117) -/

/-- The blend of R116 at zone index z. -/
def blendValue (b z old new : Nat) : Nat := (old * (2 * b - 2 * z - 1) + new * (2 * z + 1) + b) / (2 * b)

/-- The reverse blend of R117 at zone index z. -/
def reverseValue (b z old new : Nat) : Nat := blendValue b z new old

/-- A mix of two bytes. -/
def mixBytes (mix : Nat → Nat → Nat) (old new : Byte) : Byte := BitVec.ofNat 8 (mix old.toNat new.toNat)

/-- Where band k's write begins (R115). -/
def writeStart (cfg : Configuration) (front : Int) (job : StripJob) (seams : List (Option Int)) (k : Nat) : Int :=
  if job.strip0 then job.edges.getD k 0
  else
    match seams.getD k none with
    | some c => c - (cfg.blend / 2 : Nat)
    | none => max (job.edges.getD k 0) front

/-- The output of a cell (R115 to R117): the new pixel, blended in the zone around the seam and in the reverse zone of
a closing strip where the old cell is written. -/
def stripPixel (cfg : Configuration) (store : CanvasStore) (dir : Direction) (clean : Int) (job : StripJob)
    (seams : List (Option Int)) (k : Nat) (x : Int) (row : Nat) : Byte × Byte :=
  let old := readCell cfg store (storedColumn cfg x) row
  let y := newLuma cfg store dir job k x row
  let c := newChroma cfg store dir job k x row
  let half : Int := (cfg.blend / 2 : Nat)
  let reverseFrom := clean + (ringWidth cfg : Int) - cfg.blend
  if old.written then
    match seams.getD k none with
    | some seam =>
      if seam - half ≤ x ∧ x < seam + half then
        let z := (x - (seam - half)).toNat
        (mixBytes (blendValue cfg.blend z) old.y y, mixBytes (blendValue cfg.blend (z - z % 2)) old.c c)
      else if job.cls = .closing ∧ reverseFrom ≤ x then
        let z := (x - reverseFrom).toNat
        (mixBytes (reverseValue cfg.blend z) old.y y, mixBytes (reverseValue cfg.blend (z - z % 2)) old.c c)
      else (y, c)
    | none =>
      if job.cls = .closing ∧ reverseFrom ≤ x then
        let z := (x - reverseFrom).toNat
        (mixBytes (reverseValue cfg.blend z) old.y y, mixBytes (reverseValue cfg.blend (z - z % 2)) old.c c)
      else (y, c)
  else (y, c)

/-- The sweep columns that band k writes (R115). -/
def writtenColumns (cfg : Configuration) (front : Int) (job : StripJob) (seams : List (Option Int)) (k : Nat) : List Int :=
  let start := writeStart cfg front job seams k
  (List.range (job.newFront - start).toNat).map fun (i : Nat) => start + (i : Int)

/-- The pixels a strip writes (R115 to R117), each with the band and stored column whose flag it helps to set
(R118). DESIGN CHOICE (log entry 35), unsafe: when W_f exceeds W_ring, strip 0 reaches one stored column by two sweep
columns although R115 writes a cell once; both pixels are written, and of two in one burst the higher sweep column's
stays. -/
def stripUnits (cfg : Configuration) (store : CanvasStore) (dir : Direction) (front clean : Int) (job : StripJob)
    (seams : List (Option Int)) : List WriteUnit :=
  bands.flatMap fun k =>
    (writtenColumns cfg front job seams k).flatMap fun x =>
      (rowsOfBand cfg k).map fun row =>
        let pixel := stripPixel cfg store dir clean job seams k x row
        ⟨cellAddress cfg (storedColumn cfg x) row, pixel.1, pixel.2, .cell k (storedColumn cfg x)⟩

/-- The words of the slot under band k's new pixels: from its lowest candidate or its first written column to F' (R112,
R115). -/
def newWords (cfg : Configuration) (dir : Direction) (front : Int) (job : StripJob) (seams : List (Option Int)) (k : Nat) :
    List Nat :=
  let edge := job.edges.getD k 0
  let start := writeStart cfg front job seams k
  let first := match if job.strip0 then none else (seamCandidates cfg front edge).head? with
    | some c => min c start
    | none => start
  if first < job.newFront then
    (rowsOfBand cfg k).flatMap fun row =>
      lineWords cfg job.slot ((row : Int) + cfg.margin + job.yP).toNat
        (frameColumn cfg dir (first - edge).toNat) (frameColumn cfg dir (job.newFront - 1 - edge).toNat)
  else []

/-- The old value of a cell enters its output: a column of band k's blend zone, or of a closing strip's reverse zone (R116,
R117). -/
def mixesOld (cfg : Configuration) (clean : Int) (job : StripJob) (seams : List (Option Int)) (k : Nat) (x : Int) : Bool :=
  let half : Int := (cfg.blend / 2 : Nat)
  (match seams.getD k none with
    | some seam => decide (seam - half ≤ x ∧ x < seam + half)
    | none => false) ||
    decide (job.cls = .closing ∧ clean + (ringWidth cfg : Int) - cfg.blend ≤ x)

/-- The sweep columns of band k whose old cells the compositor reads: the candidates, and the columns whose old value
enters their output (R112, R116, R117). -/
def oldColumns (cfg : Configuration) (front clean : Int) (job : StripJob) (seams : List (Option Int)) (k : Nat) : List Int :=
  (if job.strip0 then [] else seamCandidates cfg front (job.edges.getD k 0)) ++
    (writtenColumns cfg front job seams k).filter (mixesOld cfg clean job seams k)

/-- The words of the canvas under band k's old cells, of those that are written (R112, R116, R117, R139). -/
def oldWords (cfg : Configuration) (store : CanvasStore) (front clean : Int) (job : StripJob) (seams : List (Option Int))
    (k : Nat) : List Nat :=
  ((oldColumns cfg front clean job seams k).filter fun x =>
    flagSet store.coverage (coverageIndex k (storedColumn cfg x))).flatMap fun x =>
      (rowsOfBand cfg k).map fun row => cellAddress cfg (storedColumn cfg x) row / 8

/-- The words that the compositing of a strip reads (R112, R115 to R117). -/
def stripWords (cfg : Configuration) (store : CanvasStore) (dir : Direction) (front clean : Int) (job : StripJob) :
    List Nat :=
  bands.flatMap fun k => newWords cfg dir front job job.seams k ++ oldWords cfg store front clean job job.seams k

/-- Some band has a hole: a no-blend band with a_k above F (R111). -/
def stripDetached (front : Int) (job : StripJob) (seams : List (Option Int)) : Bool :=
  !job.strip0 && bands.any fun k => (seams.getD k none).isNone && decide (front < job.edges.getD k 0)

/-- Some write lands on a stored column different from its sweep column (R115). -/
def stripWrapped (cfg : Configuration) (front : Int) (job : StripJob) (seams : List (Option Int)) : Bool :=
  bands.any fun k =>
    (writtenColumns cfg front job seams k).any fun x => decide ((storedColumn cfg x : Int) ≠ x)

/-! ## Preview (R122, R123) -/

/-- The 64 canvas cells of a preview block, with their stored columns. -/
def blockCells (cfg : Configuration) (store : CanvasStore) (column row : Nat) : List (Nat × CellRead) :=
  (List.range 8).flatMap fun dr =>
    (List.range 8).map fun dx => (8 * column + dx, readCell cfg store (8 * column + dx) (8 * row + dr))

/-- The words of the canvas under a preview block, of those that hold a written cell (R122, R139). -/
def blockWords (cfg : Configuration) (store : CanvasStore) (column row : Nat) : List Nat :=
  (List.range 8).flatMap fun dr =>
    (([8 * column, 8 * column + 4] : List Nat).filter fun x =>
      (List.range 4).any fun d => flagSet store.coverage (coverageIndex (bandOfRow cfg (8 * row + dr)) (x + d))).map fun x =>
        cellAddress cfg x (8 * row + dr) / 8

/-- The words that must have been read before a pixel is written: under a preview pixel its block, and under a canvas cell
the word that the write covers, whose old cells are read before they are overwritten (R115, R122). -/
def sourceWords (cfg : Configuration) (store : CanvasStore) (u : WriteUnit) : List Nat :=
  match u.target with
  | .cell _ _ => [u.addr / 8]
  | .preview j q => blockWords cfg store j q

/-- The words that an update or the closing work reads for the pixels it has to write (R122, R123). -/
def previewWords (cfg : Configuration) (store : CanvasStore) (todo : List WriteUnit) : List Nat :=
  todo.flatMap (sourceWords cfg store)

/-- The average of `n` samples, rounded half up: 64 of luma, 32 of chroma (R122). -/
def previewAverage (n : Nat) (samples : List Nat) : Nat := (samples.sum + n / 2) / n

/-- A preview pixel: the averages rounded half up of the block's luma and of its chroma of one kind (R122). -/
def previewPixel (cfg : Configuration) (store : CanvasStore) (column row : Nat) : Byte × Byte :=
  let cells := blockCells cfg store column row
  let chroma := cells.filter fun c => decide (c.1 % 2 = column % 2)
  (BitVec.ofNat 8 (previewAverage 64 (cells.map fun c => c.2.y.toNat)),
    BitVec.ofNat 8 (previewAverage 32 (chroma.map fun c => c.2.c.toNat)))

/-- The pixels of preview columns still to be written. -/
def previewUnits (cfg : Configuration) (store : CanvasStore) (columns : List Nat) : List WriteUnit :=
  columns.flatMap fun j =>
    (List.range (canvasHeight cfg / 8)).map fun q =>
      let pixel := previewPixel cfg store j q
      ⟨previewAddress cfg j q, pixel.1, pixel.2, .preview j q⟩

/-- The preview columns not yet computed, in ascending order (R123). -/
def closingColumns (cfg : Configuration) (store : CanvasStore) : List Nat :=
  (List.range (previewWidth cfg)).filter fun j => !flagSet store.computed j

/-- A preview column's eight stored columns are all settled under S (R122). -/
def previewSettled (cfg : Configuration) (settled : Int) (clean : Option Int) (j : Nat) : Bool :=
  match cfg.mode with
  | .linear => decide ((8 * j + 7 : Nat) < settled)
  | .ring =>
    match clean with
    | some g => decide (g ≤ (8 * j : Nat) ∧ ((8 * j + 7 : Nat) : Int) < settled ∧ 8 * j + 7 < ringWidth cfg)
    | none => false

/-- The preview columns of an update (R122). -/
def updateColumns (cfg : Configuration) (store : CanvasStore) (settled : Int) (clean : Option Int) : List Nat :=
  (closingColumns cfg store).filter (previewSettled cfg settled clean)

/-! ## Commit (R119, R124, R125) -/

/-- The closing strip's closure is poor (R125). -/
def closurePoor (cfg : Configuration) (closure : Option (Int × Int)) : Bool :=
  match closure with
  | none => true
  | some e => decide (cfg.closureTolerance < e.1.natAbs ∨ cfg.closureTolerance < e.2.natAbs)

/-- The flags of a strip's record (R124). -/
def stripFlags (cfg : Configuration) (job : StripJob) : StripFlags where
  frame := job.frameFlags
  motionOnly := job.result.correction.isNone
  detached := job.detached
  closing := decide (job.cls = .closing)
  closurePoor := decide (job.cls = .closing) && closurePoor cfg job.result.closure
  wrapped := job.wrapped

/-- The record of a strip (R124): counts go with the correction, the closure error with a closing strip alone. -/
def stripRecord (cfg : Configuration) (index : Nat) (front : Int) (job : StripJob) : StripRecord where
  index := index
  seq := job.seq
  tRef := job.tRef
  xC := job.xC
  yP := job.yP
  shifts := job.shifts
  prevFront := front
  newFront := job.newFront
  seams := job.seams
  correction := job.result.correction
  confident := if job.result.correction.isSome then job.result.confident else 0
  inliers := if job.result.correction.isSome then job.result.inliers else 0
  closure := if job.cls = .closing then job.result.closure else none
  flags := stripFlags cfg job

/-- The settled front after a commit, max(S, F' − Z − B/2, 0) (R119). -/
def settledAfter (cfg : Configuration) (settled newFront : Int) : Int :=
  max (max settled (newFront - cfg.seamReach - (cfg.blend / 2 : Nat))) 0

/-- The trims after a commit (R119). -/
def trimAfter (cfg : Configuration) (dir : Direction) (correction : Option (Int × Int)) (trimYaw trimPitch : Int) :
    Int × Int :=
  match correction with
  | none => (trimYaw, trimPitch)
  | some (dx, dy) =>
    (satAngle (trimYaw - dirSign dir * dx * cfg.columnAngle), satAngle (trimPitch + dy * cfg.columnAngle))

/-- The end request of a commit (R120): CLOSED, then EXTENT, then STRIPS_FULL. -/
def commitRequest (cls : StripClass) (strips : Nat) : Option EndReason :=
  match cls with
  | .closing => some .closed
  | .extent => some .extent
  | .normal => if strips = 256 then some .stripsFull else none

/-! ## Guide record (R127, R128) -/

/-- The speed status of an offer (R127). -/
def speedStatus (cfg : Configuration) (dir : Direction) (advance overlap : Int) : SpeedStatus :=
  if dir = .unknown then .still
  else if overlap < cfg.minOverlap then .tooFast
  else if overlap < 2 * (cfg.minOverlap : Int) then .fast
  else if advance < cfg.minAdvance then .slow
  else .good

/-- The target of an offer (R127): W_ring in RING mode, W_c − G in LINEAR mode with an absent G taken as 0. -/
def offerTarget (cfg : Configuration) (clean : Option Int) : Int :=
  match cfg.mode with
  | .ring => ringWidth cfg
  | .linear => (cfg.canvasWidth : Int) - clean.getD 0

/-- The guide record at a placement offer (R127). -/
def offerGuide (cfg : Configuration) (s : State) (w : Working) (guideMark : Bool) (advance overlap : Int) : GuideRecord :=
  { s.comp.guide with
    count := s.comp.guide.count + 1
    seq := w.seq
    guideMark := guideMark
    direction := s.place.direction
    speed := speedStatus cfg s.place.direction advance overlap
    advance := advance
    overlap := overlap
    yP := w.yP
    margin := cfg.margin
    progress := match s.comp.clean with
      | some g => s.comp.front - g
      | none => 0
    target := offerTarget cfg s.comp.clean
    motion := s.motion.link
    flags := w.flags }

/-- A placement offer with its advance and overlap: taken in OPEN alone (R127). -/
def placementOffer (w : Working) (advance overlap : Int) (s : State) : State :=
  if s.sweep.state = .opened then
    { s with comp := { s.comp with
        guide := offerGuide s.sweepCfg s w (decide (w.cls = .guide)) advance overlap } }
  else s

/-- A registration result taken into the guide record: in OPEN alone (R128). -/
def recordResult (r : RegResult) (s : State) : State :=
  if s.sweep.state = .opened then
    { s with comp := { s.comp with
        guide := { s.comp.guide with
          count := s.comp.guide.count + 1
          last := some ⟨r.correction, r.confident, r.inliers⟩ } } }
  else s

/-- A re-anchor sets the yaw trim (R84, R121). -/
def applyReanchor (r : Reanchor) (s : State) : State :=
  { s with comp := { s.comp with
      trimYaw := reanchorTrim s.sweepCfg s.place.direction s.comp.strips (s.place.originYaw.getD 0) r } }

/-- A re-anchor sent to the compositor (R121): applied at once unless a frame is in compositing. -/
def sendReanchor (r : Reanchor) (s : State) : State :=
  if s.comp.state = .compositing ∨ s.comp.state = .harvesting then
    { s with comp := { s.comp with pendingReanchor := some r } }
  else applyReanchor r s

/-- The pending re-anchor is applied (R121). -/
def applyPending (s : State) : State :=
  match s.comp.pendingReanchor with
  | some r => applyReanchor r { s with comp := { s.comp with pendingReanchor := none } }
  | none => s

end Sys2Proof.Machine
end

