-- ==== Sys2Proof/Machine/Formats.lean ====
section
/-! DEFINITION. The records the part sends (chapter 10): status snapshot, replies, strip record, guide record and
return-bus header, byte by byte. -/

namespace Sys2Proof.Machine

/-! ## Fields (R182) -/

/-- A number in `n` bytes, most significant first. -/
def natBytes (n v : Nat) : List Byte := (List.range n).map fun i => BitVec.ofNat 8 (v / 256 ^ (n - 1 - i))

/-- An unsigned field of `n` bytes. A value that does not fit shows as the free value of log entry 8. -/
def unsignedField (n : Nat) (v : Int) : List Byte :=
  natBytes n (if 0 ≤ v ∧ v < 256 ^ n then v.toNat else Config.unstatedField (8 * n) v)

/-- A signed field of `n` bytes, two's complement. A value that does not fit shows as the free value of log entry 8. -/
def signedField (n : Nat) (v : Int) : List Byte :=
  natBytes n
    (if -(256 ^ n / 2) ≤ v ∧ v < 256 ^ n / 2 then (v % 256 ^ n).toNat else Config.unstatedField (8 * n) v)

/-- An absent signed field is sent as 0. -/
def optSigned (n : Nat) (v : Option Int) : List Byte := signedField n (v.getD 0)

/-- A time base value, or 0 if absent. -/
def timeField (t : Option Time) : List Byte := natBytes 4 (t.getD 0).toNat

/-! ## Codes -/

/-- 10.4, byte 0 of the status snapshot. -/
def stateCode : SweepState → Nat
  | .init => 0
  | .test => 1
  | .idle => 2
  | .armed => 3
  | .opened => 4
  | .draining => 5
  | .done => 6

/-- 10.4, byte 1 of the status snapshot. -/
def reasonCode : LastReason → Nat
  | .unset => 0
  | .stopped => 1
  | .timeLimit => 2
  | .extent => 3
  | .closed => 4
  | .stripsFull => 5
  | .fault => 6
  | .aborted => 7

/-- 10.4, byte 3 of the status snapshot. -/
def directionCode : Direction → Nat
  | .unknown => 0
  | .plus => 1
  | .minus => 2

/-- 10.4, byte 24 of the status snapshot. -/
def biasSourceCode : BiasSource → Nat
  | .fixed => 0
  | .pending => 1
  | .estimated => 2
  | .fallback => 3

/-- 10.4, the self-test result byte. -/
def selfResultCode : SelfResult → Nat
  | .passed => 0
  | .failed test => test
  | .running => 254
  | .notRun => 255

/-- 10.4, byte 2 of a reply. -/
def resultCode : CommandResult → Nat
  | .done => 0
  | .clamped => 1
  | .state => 2
  | .range => 3
  | .stillActive => 4
  | .unknown => 5
  | .length => 6

/-- 10.4, the link status byte. -/
def linkStatusCode : LinkStatus → Nat
  | .noReply => 0
  | .replyReady => 1
  | .executing => 2

/-- 10.5, the status byte of a return burst. -/
def burstStatusCode : BurstStatus → Nat
  | .data => 0
  | .dataLast => 1
  | .waiting => 2
  | .errorRange => 3
  | .errorNoSweep => 4
  | .errorNotSettled => 5
  | .errorMemory => 6
  | .abandoned => 7

/-- 10.5, the speed status byte of the guide record. -/
def speedCode : SpeedStatus → Nat
  | .still => 0
  | .tooFast => 1
  | .fast => 2
  | .slow => 3
  | .good => 4

/-- 10.5, the motion state byte of the guide record. -/
def motionCode : LinkState → Nat
  | .off => 0
  | .sampling => 1
  | .lost => 2

/-- Requester number. -/
def requesterCode : Requester → Nat
  | .r0 => 0
  | .r1 => 1

/-! ## Records -/

/-- The thirteen counters of the snapshot in their order (10.4). -/
def counterList (s : State) : List Nat :=
  let c := s.sweep.counters
  [c.received, c.composited, c.guide, c.still, c.noAdvance, c.dropped, c.truncated, c.rejected, c.discarded, c.skipped,
    c.samplesMissed, c.motionLosses, s.store.corrected]

/-- Byte 2 of the snapshot: the presence marks (10.4). DEDUCED (log entry 38), unsafe: bit 4, closure result present,
stands for the closure error, so it is clear after a closing strip without one, whose closure result R125 calls absent. -/
def snapshotMarks (s : State) : Nat :=
  flagBit s.sweep.openPending 0 + flagBit s.sweep.openTime.isSome 1 + flagBit s.place.originYaw.isSome 2 +
    flagBit s.comp.clean.isSome 3 + flagBit s.comp.closureError.isSome 4 + flagBit s.comp.closurePoor 5

/-- The status snapshot, 108 bytes (R172, 10.4). -/
def statusSnapshot (s : State) : List Byte :=
  natBytes 1 (stateCode s.sweep.state) ++ natBytes 1 (reasonCode s.sweep.lastReason) ++ natBytes 1 (snapshotMarks s) ++
  natBytes 1 (directionCode s.place.direction) ++ timeField s.sweep.openTime ++
  optSigned 6 s.place.originYaw ++ optSigned 6 s.place.originPitch ++
  signedField 2 s.motion.biasYaw ++ signedField 2 s.motion.biasPitch ++
  natBytes 1 (biasSourceCode s.motion.biasSource) ++ natBytes 1 (selfResultCode s.selfTest.result) ++
  signedField 6 s.comp.trimYaw ++ signedField 6 s.comp.trimPitch ++
  signedField 4 s.comp.front ++ signedField 4 s.comp.settled ++ optSigned 4 s.comp.clean ++
  unsignedField 2 s.comp.strips.length ++
  optSigned 1 (s.comp.closureError.map Prod.fst) ++ optSigned 1 (s.comp.closureError.map Prod.snd) ++
  natBytes 1 s.attn.pendingSet.toNat ++ natBytes 1 s.attn.enableSet.toNat ++
  (counterList s).flatMap (fun n => unsignedField 4 n)

/-- A reply as it is shifted out after the link status: the six bytes of its header and its payload (R183). -/
def replyBytes (r : Reply) : List Byte :=
  [r.tag, r.kind] ++ natBytes 1 (resultCode r.result) ++ natBytes 1 r.detail ++ natBytes 2 r.payload.length ++ r.payload

/-- The presence byte of a strip record (10.5). -/
def stripPresence (r : StripRecord) : Nat := flagBit r.correction.isSome 0 + flagBit r.closure.isSome 1

/-- The seam presence byte of a strip record (10.5). -/
def seamPresence (seams : List (Option Int)) : Nat :=
  ((List.range 8).map fun k => flagBit (seams.getD k none).isSome k).foldl (· + ·) 0

/-- A strip record as served, 64 bytes (R124, 10.5). -/
def stripBytes (r : StripRecord) : List Byte :=
  natBytes 1 r.index ++ natBytes 1 (stripPresence r) ++ natBytes 2 (stripFlagBits r.flags) ++ natBytes 2 r.seq.toNat ++
  timeField (some r.tRef) ++ signedField 4 r.xC ++ signedField 2 r.yP ++
  (List.range 8).flatMap (fun k => signedField 1 (r.shifts.getD k 0)) ++
  signedField 4 r.prevFront ++ signedField 4 r.newFront ++ natBytes 1 (seamPresence r.seams) ++ [0] ++
  (List.range 8).flatMap (fun k => unsignedField 2 ((r.seams.getD k none).getD 0)) ++
  optSigned 1 (r.correction.map Prod.fst) ++ optSigned 1 (r.correction.map Prod.snd) ++
  natBytes 1 r.confident ++ natBytes 1 r.inliers ++
  optSigned 1 (r.closure.map Prod.fst) ++ optSigned 1 (r.closure.map Prod.snd) ++ List.replicate 8 0

/-- The marks byte of the guide record (10.5). -/
def guideMarks (g : GuideRecord) : Nat :=
  flagBit g.guideMark 0 + flagBit g.last.isSome 1 +
    flagBit (match g.last with
      | some l => l.correction.isSome
      | none => false) 2

/-- The guide record as served, 32 bytes (R127, R128, 10.5). -/
def guideBytes (g : GuideRecord) : List Byte :=
  let correction := g.last.bind LastCorrection.correction
  natBytes 2 g.count.toNat ++ natBytes 2 g.seq.toNat ++ natBytes 1 (directionCode g.direction) ++
  natBytes 1 (speedCode g.speed) ++ natBytes 1 (guideMarks g) ++ natBytes 1 (motionCode g.motion) ++
  signedField 4 g.advance ++ signedField 4 g.overlap ++ signedField 2 g.yP ++ natBytes 1 g.margin ++ [0] ++
  signedField 2 g.progress ++ unsignedField 2 g.target ++ natBytes 2 (frameFlagBits g.flags) ++
  optSigned 1 (correction.map Prod.fst) ++ optSigned 1 (correction.map Prod.snd) ++
  natBytes 1 ((g.last.map LastCorrection.confident).getD 0) ++ natBytes 1 ((g.last.map LastCorrection.inliers).getD 0) ++
  [0, 0]

/-- The header of a return burst, 8 bytes (R185). -/
def burstHeader (b : ReturnBurst) : List Byte :=
  natBytes 1 (requesterCode b.requester) ++ natBytes 1 (burstStatusCode b.status) ++ unsignedField 2 b.item ++
  natBytes 2 b.data.length ++ [0, 0]

/-- The bytes of a burst on the return bus: its header and its data (R185). -/
def burstBytes (b : ReturnBurst) : List Byte := burstHeader b ++ b.data

/-- Two bytes of the stream in one word: the earlier in bits 15:8 (R182). -/
def wordsOf : List Byte → List Half
  | a :: b :: rest => (a ++ b) :: wordsOf rest
  | [a] => [a ++ (0 : Byte)]
  | [] => []

end Sys2Proof.Machine
end

