-- ==== Sys2Proof/Machine/Fetch.lean ====
section
/-! DEFINITION. The fetch port's operations (chapter 8): taking, holding, abandoning and discarding requests,
readiness and stalls, the preparation of bursts and the return bus. -/

namespace Sys2Proof.Machine

/-! ## The two sides -/

/-- A requester's side. -/
def sideOf (f : FetchPort) : Requester → PortSide
  | .r0 => f.p0
  | .r1 => f.p1

/-- A requester's side replaced. -/
def setSide (r : Requester) (p : PortSide) (s : State) : State :=
  match r with
  | .r0 => { s with fetch := { s.fetch with p0 := p } }
  | .r1 => { s with fetch := { s.fetch with p1 := p } }

/-- The other requester. -/
def otherRequester : Requester → Requester
  | .r0 => .r1
  | .r1 => .r0

/-- The return bus carries a burst of this requester. -/
def onBus (f : FetchPort) (r : Requester) : Bool :=
  match f.bus with
  | some b => decide (b.requester = r)
  | none => false

/-- The phase of a requester that has a burst posted: SENDING while an earlier one of its bursts is on the bus. -/
def postedPhase (f : FetchPort) (r : Requester) : Phase := if onBus f r then .sending else .posted

/-! ## Items (R153) -/

/-- A kind that reads the canvas of a sweep (R151, R163). -/
def sweepKind : FetchKind → Bool
  | .canvas | .preview | .strips => true
  | .guide | .invalid => false

/-- A kind whose data pass through the memory arbiter (R154). -/
def memoryKind : FetchKind → Bool
  | .canvas | .preview => true
  | .strips | .guide | .invalid => false

/-- The size of an item in bytes (R153), by the geometry of the current canvas. -/
def itemSize (cfg : Configuration) : FetchKind → Nat
  | .canvas => canvasHeight cfg * 32
  | .preview => 2 * previewWidth cfg
  | .strips => 64
  | .guide => 32
  | .invalid => 0

/-- The item limit of a kind (R151); the guide record is not checked. -/
def itemLimit (s : State) : FetchKind → Nat
  | .canvas => groupCount s.sweepCfg
  | .preview => canvasHeight s.sweepCfg / 8
  | .strips => if s.sweep.state = .done then s.comp.strips.length else 256
  | .guide | .invalid => 0

/-- The length of the next burst of a transfer: up to 256 bytes of its item (R153). -/
def burstLength (cfg : Configuration) (t : Transfer) : Nat := min 256 (itemSize cfg t.req.kind - t.byte)

/-- The status of a data burst of `len` bytes: DATA_LAST for the last burst of the pass (R155). -/
def dataStatus (cfg : Configuration) (t : Transfer) (len : Nat) : BurstStatus :=
  if t.req.kind = .guide then .dataLast
  else if t.req.first + t.req.count ≤ t.item + 1 ∧ itemSize cfg t.req.kind ≤ t.byte + len then .dataLast
  else .data

/-- The progress once a data burst of `len` bytes is on the bus (R149). -/
def advanceTransfer (cfg : Configuration) (t : Transfer) (len : Nat) : Transfer :=
  if itemSize cfg t.req.kind ≤ t.byte + len then
    { t with item := t.item + 1, byte := 0, inHand := [], asked := 0, tested := false }
  else { t with byte := t.byte + len, inHand := [], asked := 0 }

/-- The first item of a pass. -/
def firstItem (req : FetchReq) : Nat := if req.kind = .guide then 0 else req.first

/-- The next item to be sent (R155): after the last item of a pass, the first of the next pass (log entry 31). -/
def nextItem (t : Transfer) : Nat :=
  if t.req.kind = .guide then 0
  else if t.req.first + t.req.count ≤ t.item then t.req.first
  else t.item

/-! ## Posting -/

/-- A data burst becomes the requester's posted burst (R154). -/
def postData (r : Requester) (t : Transfer) (bytes : List Byte) (s : State) : State :=
  let p := sideOf s.fetch r
  setSide r
    { p with
      transfer := some { t with inHand := bytes, asked := bytes.length, tested := true }
      posted := some ⟨r, dataStatus s.sweepCfg t bytes.length, t.item, bytes⟩
      phase := postedPhase s.fetch r } s

/-- The transfer is to end with a header: a posted burst is withdrawn, a burst in preparation is stopped with its
memory requests, a stall ends, and the header is posted (R151, R152, R154, R160, R163). -/
def endWith (r : Requester) (status : BurstStatus) (item : Nat) (s : State) : State :=
  let s := dropFetch r s
  let p := sideOf s.fetch r
  setSide r
    { p with
      transfer := p.transfer.map fun t => { t with inHand := [], asked := 0, rangeAfter := none }
      posted := some ⟨r, status, item, []⟩
      waitStart := none
      phase := postedPhase s.fetch r } s

/-! ## Readiness (R156, R157) -/

/-- A stored column is settled (R156). -/
def columnSettled (s : State) (x : Nat) : Bool :=
  match s.sweep.state with
  | .done => true
  | .opened | .draining =>
    match s.sweepCfg.mode with
    | .linear => decide ((x : Int) < s.comp.settled)
    | .ring =>
      match s.comp.clean with
      | some g => decide (g ≤ x ∧ (x : Int) < s.comp.settled ∧ x < ringWidth s.sweepCfg)
      | none => false
  | _ => false

/-- A canvas group is ready when every stored column of it is settled (R156). -/
def groupReady (s : State) (group : Nat) : Bool := (List.range 16).all fun i => columnSettled s (16 * group + i)

/-- A preview row is ready when every preview column is computed (R157). -/
def previewReady (s : State) : Bool := (List.range (previewWidth s.sweepCfg)).all fun j => flagSet s.store.computed j

/-- An item of requester 0 is ready (R156, R157). -/
def itemReady (s : State) (kind : FetchKind) (item : Nat) : Bool :=
  match kind with
  | .canvas => groupReady s item
  | .preview => previewReady s
  | .strips => decide (item < s.comp.strips.length)
  | .guide | .invalid => true

/-- What the test at the first burst of an item finds (R154, R157, R158). -/
inductive ItemTest where
  | ready | stall | range
  deriving DecidableEq, Repr

/-- The test at the first burst of an item: requester 1 never stalls (R158). -/
def testItem (s : State) (r : Requester) (t : Transfer) : ItemTest :=
  match r with
  | .r0 =>
    if itemReady s t.req.kind t.item then .ready
    else if t.req.kind = .strips ∧ s.sweep.state = .done then .range
    else .stall
  | .r1 => if t.req.kind = .strips ∧ s.comp.strips.length ≤ t.item then .range else .ready

/-! ## Preparing (R153, R154) -/

/-- The strip record of an item. -/
def stripItem (s : State) (item : Nat) : List Byte :=
  match s.comp.strips[item]? with
  | some record => stripBytes record
  | none => []

/-- The next burst is prepared: strip and guide records are copied whole and posted; canvas and preview bytes are to
be read in memory bursts (R153, R154). -/
def prepareBurst (r : Requester) (t : Transfer) (s : State) : State :=
  match t.req.kind with
  | .strips => postData r t (stripItem s t.item) s
  | .guide => postData r t (guideBytes s.comp.guide) s
  | .canvas | .preview | .invalid =>
    let p := sideOf s.fetch r
    setSide r { p with transfer := some { t with inHand := [], asked := 0, tested := true }, phase := .preparing } s

/-- A stall begins: the wait start time and the limit are taken and a WAITING header is posted (R159, R160). -/
def startStall (r : Requester) (t : Transfer) (s : State) : State :=
  let p := sideOf s.fetch r
  setSide r
    { p with
      posted := some ⟨r, .waiting, t.item, []⟩
      waitStart := some s.timeBase
      stallLimit := s.config.fetchWaitLimit
      phase := .stalled } s

/-- A transfer in PREPARING goes on: at the first burst of an item its readiness is tested (R154). -/
def serveNext (r : Requester) (s : State) : State :=
  match (sideOf s.fetch r).transfer with
  | none => s
  | some t =>
    if t.tested then prepareBurst r t s
    else
      match testItem s r t with
      | .ready => prepareBurst r t s
      | .stall => startStall r t s
      | .range => endWith r .errorRange t.item s

/-! ## Requests (R150, R151) -/

/-- The checks of a request when it is taken (R151); none if it passes. -/
def checkRequest (s : State) (req : FetchReq) (stale : Bool) : Option BurstStatus :=
  if stale then some .errorNoSweep
  else if sweepKind req.kind ∧ (s.sweep.state = .idle ∨ s.sweep.state = .armed ∨ s.sweep.state = .test) then
    some .errorNoSweep
  else if req.kind = .guide then none
  else if req.kind = .invalid ∨ req.count = 0 then some .errorRange
  else if itemLimit s req.kind < req.first + req.count then some .errorRange
  else none

/-- A request becomes the transfer and is checked (R150, R151). -/
def takeRequest (r : Requester) (req : FetchReq) (stale : Bool) (s : State) : State :=
  let p := sideOf s.fetch r
  let s' := setSide r
    { p with
      transfer := some ⟨req, firstItem req, 0, [], 0, false, none, 0⟩
      phase := .preparing
      waitStart := none } s
  match checkRequest s req stale with
  | some status => endWith r status req.first s'
  | none => serveNext r s'

/-- The transfer ends; the held request, if any, is taken (R162). -/
def endTransfer (r : Requester) (s : State) : State :=
  let p := sideOf s.fetch r
  let s' := setSide r { p with transfer := none, phase := .preparing, waitStart := none, held := none } s
  match p.held with
  | some (req, stale) => takeRequest r req stale s'
  | none => s'

/-- A request message arrives (R150): it becomes the transfer, or the held request. -/
def requestArrives (r : Requester) (req : FetchReq) (s : State) : State :=
  let p := sideOf s.fetch r
  match p.transfer with
  | none => takeRequest r req false s
  | some _ => setSide r { p with held := some (req, false) } s

/-- A burst ends its transfer when it completes: an ERROR or ABANDONED header, or the DATA_LAST burst of a transfer
that does not go on (R150). -/
def endsTransfer (status : BurstStatus) (goesOn : Bool) : Bool :=
  match status with
  | .data | .waiting => false
  | .dataLast => !goesOn
  | .errorRange | .errorNoSweep | .errorNotSettled | .errorMemory | .abandoned => true

/-- The burst of this requester on the bus ends its transfer. -/
def endingOnBus (f : FetchPort) (r : Requester) (goesOn : Bool) : Bool :=
  match f.bus with
  | some b => decide (b.requester = r) && endsTransfer b.status goesOn
  | none => false

/-- The transfer of this requester has ended by an expiry: its ERROR NOT_SETTLED header waits for the bus or is on it
(R152, R160). -/
def expiredTransfer (f : FetchPort) (r : Requester) : Bool :=
  (match (sideOf f r).posted with
    | some b => decide (b.status = .errorNotSettled)
    | none => false) ||
  match f.bus with
  | some b => decide (b.requester = r ∧ b.status = .errorNotSettled)
  | none => false

/-- A message with active 0 arrives (R152): the held request is dropped, and unless the transfer's ending burst is on
the bus an ABANDONED header is posted. DEDUCED (log entry 37), unsafe: after an expiry the message finds no transfer and is
ignored, as R152's example says, although R150 keeps the transfer in progress until its ERROR header completes; an ERROR
header of any other kind is still acted on as R150 and R152's bullets say. -/
def abandonTransfer (r : Requester) (s : State) : State :=
  let p := sideOf s.fetch r
  match p.transfer with
  | none => s
  | some t =>
    if expiredTransfer s.fetch r then s
    else
      let s' := setSide r { p with held := none } s
      if endingOnBus s.fetch r t.req.again then s' else endWith r .abandoned (nextItem t) s'

/-- The end of a request message of either kind (R148): taken only if its shifting began after INIT ended. -/
def messageArrives (r : Requester) (message : BitVec 40) (s : State) : State :=
  let p := sideOf s.fetch r
  let s' := setSide r { p with line := .idle } s
  match p.line with
  | .idle => s
  | .ignored => s'
  | .shifting =>
    if s.sweep.state = .init then s'
    else if requestActive message then requestArrives r (parseRequest message) s'
    else abandonTransfer r s'

/-! ## Discard (R163) -/

/-- The canvas is discarded at one requester's side (R163). DEDUCED (log entry 41), unsafe: the DATA_LAST on the bus of a
repeating transfer with a request held is its ending burst, by R150 and R162, so no ERROR NO_SWEEP header follows it;
R152 calls the DATA_LAST of a repeating transfer no ending burst. -/
def discardSide (r : Requester) (s : State) : State :=
  let p := sideOf s.fetch r
  let held := p.held.map fun (req, stale) => (req, stale || sweepKind req.kind)
  let s' := setSide r { p with held := held } s
  match p.transfer with
  | none => s'
  | some t =>
    if sweepKind t.req.kind then
      if endingOnBus s.fetch r (t.req.again && p.held.isNone) then s'
      else endWith r .errorNoSweep (nextItem t) s'
    else s'

/-- The canvas is discarded at the fetch port: ARM, ABORT and SELFTEST (R163). -/
def discardFetch (s : State) : State := discardSide .r1 (discardSide .r0 s)

/-! ## Stalls (R159, R160) -/

/-- The requester's posted burst is the WAITING header of its stall. -/
def waitingPosted (p : PortSide) : Bool :=
  match p.posted with
  | some b => decide (b.status = .waiting)
  | none => false

/-- The WAITING header of requester 0's stall is on the bus. -/
def waitingOnBus (f : FetchPort) : Bool :=
  match f.bus with
  | some b => decide (b.requester = .r0 ∧ b.status = .waiting)
  | none => false

/-- A stalled item of requester 0 is tested again: at a commit, at the entry to DONE and at the end of the closing
work (R159). -/
def retestStall (s : State) : State :=
  let p := s.fetch.p0
  match p.waitStart, p.transfer with
  | some _, some t =>
    match testItem s .r0 t with
    | .stall => s
    | .ready =>
      if waitingPosted p then
        setSide .r0 { p with waitStart := none, transfer := some { t with tested := true }, phase := .posted } s
      else if waitingOnBus s.fetch then
        setSide .r0 { p with waitStart := none, transfer := some { t with tested := true } } s
      else prepareBurst .r0 t (setSide .r0 { p with waitStart := none } s)
    | .range =>
      if waitingPosted p then
        setSide .r0 { p with waitStart := none, transfer := some { t with rangeAfter := some t.item }, phase := .posted } s
      else endWith .r0 .errorRange t.item s
  | _, _ => s

/-- The stall reaches the fetch wait limit (R160): the time base moves on to the limit, the transfer ends with ERROR
NOT_SETTLED and FETCH_TIMEOUT is raised. With a limit of 0 a stall has no limit. -/
def expireStall (s : State) : State :=
  match s.fetch.p0.waitStart, s.fetch.p0.transfer with
  | some start, some t =>
    if s.fetch.p0.stallLimit = 0 then s
    else
      let due := start + BitVec.ofNat 32 s.fetch.p0.stallLimit
      raiseCause .fetchTimeout
        (endWith .r0 .errorNotSettled t.item { s with timeBase := advanceTo due s.timeBase })
  | _, _ => s

/-! ## Memory data (R154) -/

/-- The bytes of a memory burst are in hand; with the last of them the burst is posted (R154). -/
def fetchData (r : Requester) (bytes : List Byte) (s : State) : State :=
  let p := sideOf s.fetch r
  match p.transfer with
  | none => s
  | some t =>
    let got := t.inHand ++ bytes
    if burstLength s.sweepCfg t ≤ got.length then postData r t got s
    else setSide r { p with transfer := some { t with inHand := got } } s

/-- A memory read of the burst met an uncorrectable error: ERROR MEMORY (R154). -/
def fetchError (r : Requester) (s : State) : State :=
  match (sideOf s.fetch r).transfer with
  | none => s
  | some t => endWith r .errorMemory t.item s

/-- The requester prepares a burst and has bytes of it still to ask for (R154). -/
def fetchWants (s : State) (r : Requester) : Option FetchRead :=
  let p := sideOf s.fetch r
  match p.transfer with
  | none => none
  | some t =>
    if p.phase = .preparing ∧ p.posted.isNone ∧ memoryKind t.req.kind ∧ t.asked < burstLength s.sweepCfg t then
      some ⟨r, t.req.kind, t.item, t.byte + t.asked, min 64 (burstLength s.sweepCfg t - t.asked),
        fetchAddress s.sweepCfg t.req.kind t.item (t.byte + t.asked)⟩
    else none

/-- The port asks for a read (R154): the bytes count as asked for and the memory turn mark is set. -/
def fetchAsk (b : FetchRead) (s : State) : State :=
  let p := sideOf s.fetch b.requester
  let s' := setSide b.requester
    { p with transfer := p.transfer.map fun t => { t with asked := t.asked + b.len } } s
  { s' with
    fetch := { s'.fetch with memTurn := b.requester }
    arb := { s'.arb with fetchWait := some b } }

/-- The port keeps one memory request waiting; when both requesters prepare, the one not named by the memory turn
mark is asked for (R154). -/
def fetchAskNext (s : State) : State :=
  if s.arb.fetchWait.isSome then s
  else
    match fetchWants s (otherRequester s.fetch.memTurn) with
    | some b => fetchAsk b s
    | none =>
      match fetchWants s s.fetch.memTurn with
      | some b => fetchAsk b s
      | none => s

/-! ## The return bus (R161, R162) -/

/-- The bus takes a requester's posted burst (R161). -/
def takeBus (r : Requester) (s : State) : State :=
  let p := sideOf s.fetch r
  match p.posted with
  | none => s
  | some b =>
    let transfer := match b.status with
      | .data | .dataLast => p.transfer.map fun t => advanceTransfer s.sweepCfg t b.data.length
      | _ => p.transfer
    let s' := setSide r { p with posted := none, transfer := transfer, phase := .sending } s
    { s' with fetch := { s'.fetch with bus := some b, busTurn := r } }

/-- Whose burst goes first when both are posted, by the service order (R161). -/
def busChoice (order : ServiceOrder) (turn : Requester) : Requester :=
  match order with
  | .fixed => .r1
  | .rotate => otherRequester turn

/-- An idle bus takes a posted burst (R161): at a completion by the service order, and when both were posted
together while the bus was idle, either (log entry 7). -/
def settleBus (atCompletion : Bool) (s : State) : State :=
  if s.fetch.bus.isSome then s
  else
    match s.fetch.p0.posted.isSome, s.fetch.p1.posted.isSome with
    | false, false => s
    | true, false => takeBus .r0 s
    | false, true => takeBus .r1 s
    | true, true =>
      if atCompletion then takeBus (busChoice s.config.serviceOrder s.fetch.busTurn) s
      else
        takeBus (if Config.firstTaken s.freeIndex then .r0 else .r1) { s with freeIndex := s.freeIndex + 1 }

/-- The requester's side when one of its bursts has completed on the bus (R154, R159, R162). -/
def afterBurst (b : ReturnBurst) (s : State) : State :=
  let r := b.requester
  let p := sideOf s.fetch r
  match p.transfer with
  | none => s
  | some t =>
    match b.status with
    | .data => if p.posted.isSome then setSide r { p with phase := .posted } s else serveNext r s
    | .waiting =>
      if p.posted.isSome then setSide r { p with phase := .posted } s
      else
        match t.rangeAfter with
        | some item => endWith r .errorRange item s
        | none => if p.waitStart.isSome then setSide r { p with phase := .stalled } s else serveNext r s
    | .dataLast =>
      if p.posted.isSome then setSide r { p with phase := .posted } s
      else if t.req.again ∧ p.held.isNone then
        serveNext r
          (setSide r
            { p with
              transfer := some ⟨t.req, firstItem t.req, 0, [], 0, false, none, t.pass + 1⟩, phase := .preparing } s)
      else endTransfer r s
    | .errorRange | .errorNoSweep | .errorNotSettled | .errorMemory | .abandoned => endTransfer r s

/-- The burst on the return bus completes (R162). -/
def completeBus (s : State) : State :=
  match s.fetch.bus with
  | none => s
  | some b => afterBurst b { s with fetch := { s.fetch with bus := none } }

end Sys2Proof.Machine
end

