-- ==== Sys2Proof/Machine/Sweep.lean ====
section
/-! DEFINITION. The sweep controller's operations (chapter 1): opening, draining, the drain's end, the entry to DONE,
end requests and ABORT, with what the engine does at each (R85, R106, R108, R129). -/

namespace Sys2Proof.Machine

/-! ## The engine's frame operation ends -/

/-- A frame is in compositing: the span of COMPOSITING and HARVESTING (R108). -/
def inCompositing (c : Compositor) : Bool := decide (c.state = .compositing ∨ c.state = .harvesting)

/-- The engine's work on frames ends without a strip: the placement unit is READY with no record (R85), the
registration unit is IDLE (R105), a frame in compositing and one handed over are dropped with the pending re-anchor
(R129), and their memory requests are withdrawn (R146). A preview update or the closing work goes on. -/
def engineHalt (s : State) : State :=
  let s1 := dropEngine .registration s
  let s2 := if inCompositing s.comp then dropEngine .compositor s1 else s1
  { s2 with
    place := { s2.place with state := .ready, work := none, saved := none }
    reg := { s2.reg with state := .idle, openingHarvest := false }
    comp := { s2.comp with
      job := none
      waiting := none
      pendingReanchor := none
      state := if inCompositing s2.comp then .ready else s2.comp.state
      todo := if inCompositing s2.comp then [] else s2.comp.todo } }

/-- The compositor's work of any kind ends, the closing work and a preview update included (R123, R130, R146). -/
def compositorStop (s : State) : State :=
  let s1 := dropEngine .compositor s
  { s1 with comp := { s1.comp with
      state := .ready, job := none, waiting := none, pendingReanchor := none, todo := [], halted := false } }

/-! ## The entry to DONE (R16, R86, R123, R130, R159) -/

/-- The words that the closing work on the pixels `todo` has to read once it has absorbed the update that is on `done`, of
whose words `left` are left: the update's words that are read are not read again (R123). -/
def absorbedReads (cfg : Configuration) (store : CanvasStore) (todo done : List WriteUnit) (left : List Nat) : List Nat :=
  (previewWords cfg store todo).filter fun w => left.contains w || !(previewWords cfg store done).contains w

/-- The arbiter when the closing work on the pixels `todo` begins. A preview update in progress is absorbed (R123): what it
has read counts, and a burst of it in progress keeps the pixels that the update had to write, so that it may still store
them (R146). -/
def absorbUpdate (todo : List WriteUnit) (s : State) : Arbiter :=
  if s.comp.state = .updating then
    { s.arb with
      compReads := s.arb.compReads.map (absorbedReads s.sweepCfg s.store todo s.comp.todo)
      inProgress := match s.arb.inProgress with
        | some (.engine .compositor true _ areas) => some (.engine .compositor true s.comp.todo areas)
        | other => other }
  else { s.arb with compReads := none }

/-- The state becomes DONE, the time limit is cancelled, motion sampling stops, the line buffer is free (R65), S becomes
F, the closing work begins on every preview column not yet computed, and a stall of requester 0 is tested again. DEDUCED
(log entry 44), unsafe: R65 frees the line buffer at the drain's completion, where R147 has a dash for the requests; the
model follows R65, so lines that a released frame has left there are dropped with their memory request. -/
def enterDone (s : State) : State :=
  let s1 := freeLines (engineHalt s)
  let todo := previewUnits s1.sweepCfg s1.store (closingColumns s1.sweepCfg s1.store)
  retestStall
    { s1 with
      sweep := { s1.sweep with state := .done, limitRunning := false }
      motion := stopMotion s1.motion
      arb := absorbUpdate todo s1
      comp := { s1.comp with settled := s1.comp.front, state := .closing, halted := false, todo := todo } }

/-! ## Strip 0 (R80, R81, R110) -/

/-- Strip 0 from the held opening frame's saved poses: x_c' = x_0, y_p' = 0, no registration (R80 step 2), its class
and F' with its highest band edge standing for G (R110). -/
def strip0Job (s : State) (slot : Nat) (saved : SavedPoses) : StripJob :=
  let cfg := s.sweepCfg
  let info := slotInfo s.ingest.slots slot
  let dir := s.place.direction
  let shifts := bandShifts cfg dir saved.theta0 saved.bandYaws
  let edges := bandEdges cfg (originColumn cfg) shifts
  let cls := classifyStrip cfg (maxOf 0 edges) (leastEnd cfg edges)
  { strip0 := true
    slot := slot
    seq := info.seq
    tRef := referenceTime cfg info
    xC := originColumn cfg
    yP := 0
    shifts := shifts
    edges := edges
    result := ⟨none, 0, 0, none⟩
    frameFlags := { saved.flags with rsClamp := shiftsClamp cfg dir saved.theta0 saved.bandYaws }
    cls := cls.1
    newFront := cls.2
    planned := false
    seams := List.replicate 8 none
    detached := false
    wrapped := false }

/-- The compositor begins to composite a frame (R108). -/
def beginStrip (job : StripJob) (s : State) : State :=
  { s with comp := { s.comp with state := .compositing, job := some job, waiting := none, todo := [] } }

/-- Strip 0 from the held slot is handed to the compositor, which holds it back during an update (R80 step 3, R108). -/
def handStrip0 (s : State) : State :=
  match firstSlot s.ingest.slots .held, s.place.saved with
  | some slot, some saved =>
    if s.comp.state = .updating then
      { s with comp := { s.comp with waiting := some (strip0Job s slot saved) } }
    else beginStrip (strip0Job s slot saved) s
  | _, _ => s

/-! ## Draining (R7, R15) -/

/-- The sweep controller hands the held slot to the engine at the end of a drain: the direction becomes +1, strip 0 is
handed to the compositor and the slot is ENGAGED (R15, R81). -/
def drainHandOver (slot : Nat) (s : State) : State :=
  let s1 := handStrip0 { s with place := { s.place with direction := .plus, state := .passed } }
  { s1 with ingest := { s1.ingest with slots := moveSlot s1.ingest.slots slot .engaged } }

/-- Every part of the drain-completion condition but the HELD slot (R15). -/
def drained (s : State) : Bool :=
  decide (s.sweep.state = .draining ∧ s.ingest.queue = []) && !anySlot s.ingest.slots .filling &&
    !anySlot s.ingest.slots .engaged

/-- The drain-completion test (R15). -/
def drainTest (s : State) : State :=
  if drained s then
    match firstSlot s.ingest.slots .held with
    | none => enterDone s
    | some slot => drainHandOver slot s
  else s

/-- The state becomes DRAINING with a last reason, and the sweep time limit is cancelled (R7, R10, R11). -/
def beginDraining (reason : LastReason) (s : State) : State :=
  { s with sweep := { s.sweep with state := .draining, lastReason := reason, limitRunning := false } }

/-! ## Opening (R5, R32) -/

/-- The sweep opens at a header's arrival: state OPEN, open time, open pending no, the time limit starts, and the
motion unit fixes the bias of the sweep. -/
def openSweep (tSof : Time) (s : State) : State :=
  { s with
    sweep := { s.sweep with state := .opened, openTime := some tSof, openPending := false, limitRunning := true }
    motion := decideBias s.sweepCfg s.motion }

/-! ## End requests (R12, R13, R14) -/

/-- A block sends an end request to the sweep controller, which END_REQUEST takes when it comes (log entries 11 and 43). -/
def sendEndRequest (reason : EndReason) (s : State) : State :=
  { s with sweep := { s.sweep with endRequests := s.sweep.endRequests ++ [reason] } }

/-- The end request of a commit waits to be taken: one with a reason that only commits send (R120). -/
def commitRequested (s : State) : Bool := s.sweep.endRequests.any fun reason => decide (reason ≠ .fault)

/-- The last reason that an end request taken in OPEN gives (R12, R13, R18). -/
def endReasonName : EndReason → LastReason
  | .extent => .extent
  | .closed => .closed
  | .stripsFull => .stripsFull
  | .fault => .fault

/-- The last reason after an end request taken in DRAINING: the drain's, unless the reason is FAULT (R12, R13). -/
def drainReason (reason : EndReason) (last : LastReason) : LastReason :=
  match reason with
  | .fault => .fault
  | .extent | .closed | .stripsFull => last

/-- The sweep ends by an end request: the slots are discarded and the DONE effects follow (R12 to R14). -/
def endSweep (reason : LastReason) (s : State) : State :=
  enterDone (discardSlots { s with sweep := { s.sweep with lastReason := reason } })

/-- The sweep controller takes an end request that a block has sent (R12, R13, log entry 11). -/
def takeEndRequest (reason : EndReason) (s : State) : State :=
  if s.sweep.endRequests.contains reason then
    let s1 := { s with sweep := { s.sweep with endRequests := s.sweep.endRequests.erase reason } }
    match s.sweep.state with
    | .opened => endSweep (endReasonName reason) s1
    | .draining => endSweep (drainReason reason s.sweep.lastReason) s1
    | .init | .test | .idle | .armed | .done => s1
  else s

/-! ## ABORT (R17) -/

/-- ABORT taken in ARMED, OPEN, DRAINING or DONE: every occupied slot is discarded, the engine and the closing work
stop, the patch tables are emptied (R92), the coverage map and the preview flags are cleared (R136, R141), fetch
transfers of the canvas end (R163) and motion sampling stops (R45). -/
def abortSweep (s : State) : State :=
  let s1 := compositorStop (engineHalt (discardSlots s))
  discardFetch
    { s1 with
      sweep := { s1.sweep with state := .idle, lastReason := .aborted, openPending := false, limitRunning := false }
      motion := stopMotion s1.motion
      reg := Registration.reset
      store := { s1.store with coverage := [], computed := [] } }

end Sys2Proof.Machine
end

