-- ==== Sys2Proof/Machine/Engine.lean ====
section
/-! DEFINITION. The engine's course of a frame: the take, the steps of placement, registration, the advance test, the
releases and the commit (chapters 4, 5 and 6). Each function calls only those above it. -/

namespace Sys2Proof.Machine

/-! ## Releases (R62) -/

/-- The engine releases the ENGAGED frame with a fate: the slot is FREE, the placement unit READY with no record, and
in DRAINING the drain-completion test runs (R62, R67, R15). -/
def releaseFrame (slot : Nat) (fate : Fate) (s : State) : State :=
  let s1 := freeSlot slot fate s
  drainTest { s1 with place := { s1.place with state := .ready, work := none } }

/-! ## The advance test (R108, R109) -/

/-- A final placement reaches the compositor: it is composited, or released naming no_advance with a pending re-anchor
applied as it leaves (R109, R121). -/
def advanceTest (job : StripJob) (s : State) : State :=
  let cls := classifyStrip s.sweepCfg (stripClean s.comp.clean job) (leastEnd s.sweepCfg job.edges)
  if stripAdvances s.sweepCfg s.comp.front job.strip0 cls.1 cls.2 then
    beginStrip { job with cls := cls.1, newFront := cls.2, planned := false } s
  else
    releaseFrame job.slot .noAdvance
      (applyPending { s with comp := { s.comp with state := .ready, job := none, waiting := none, todo := [] } })

/-- A final placement is handed over: during a preview update it is held until the update ends (R108). -/
def handOver (job : StripJob) (s : State) : State :=
  if s.comp.state = .updating then { s with comp := { s.comp with waiting := some job } } else advanceTest job s

/-! ## The edge step (R77) -/

/-- The working record after the edge step: MOTION_ONLY is taken as (0, 0) (R77). -/
def edgeStep (cfg : Configuration) (r : RegResult) (w : Working) : Working :=
  let d := r.correction.getD (0, 0)
  let y := w.yP + d.2
  { w with
    correction := r.correction
    finalX := w.xC - d.1
    finalY := clampPitch cfg y
    edges := bandEdges cfg (w.xC - d.1) w.shifts
    flags := { w.flags with pitchClamp := w.flags.pitchClamp || pitchClamps cfg y } }

/-- The final placement of a frame as the compositor receives it (R77). -/
def frameJob (w : Working) (r : RegResult) : StripJob where
  strip0 := false
  slot := w.slot
  seq := w.seq
  tRef := w.tRef
  xC := w.finalX
  yP := w.finalY
  shifts := w.shifts
  edges := w.edges
  result := r
  frameFlags := w.flags
  cls := .normal
  newFront := 0
  planned := false
  seams := List.replicate 8 none
  detached := false
  wrapped := false

/-- Registration returns: the edge step, the guide record's last correction, and the release of a GUIDE frame or the
hand-over of an ordinary one (R77, R126, R128). -/
def finishRegistration (r : RegResult) (w : Working) (s : State) : State :=
  let w1 := edgeStep s.sweepCfg r w
  let s1 := recordResult r
    { s with
      place := { s.place with state := .passed, work := some w1 }
      reg := { s.reg with state := .idle } }
  if w.cls = .guide then releaseFrame w.slot .guide s1 else handOver (frameJob w1 r) s1

/-! ## Registration (R93, R102, R105) -/

/-- The closure measurement of a frame is due (R102), by its predicted edges. -/
def frameClosureDue (s : State) (w : Working) : Bool :=
  closureDue s.sweepCfg w.cls s.reg.opening s.comp.clean (bandEdges s.sweepCfg w.xC w.shifts)

/-- What the search reads of a frame (R93). -/
def searchFrame (s : State) (w : Working) : SearchFrame :=
  ⟨w.slot, s.place.direction, w.xC, w.yP, w.shifts, w.source⟩

/-- A frame is handed to the registration unit: with LEAD empty and no closure measurement due the result is
MOTION_ONLY at once, otherwise the search begins (R93, R105). -/
def registerFrame (w : Working) (s : State) : State :=
  if s.reg.lead.isEmpty && !frameClosureDue s w then finishRegistration ⟨none, 0, 0, none⟩ w s
  else
    { s with
      place := { s.place with state := .passed, work := some w }
      reg := { s.reg with state := .searching } }

/-! ## The column step and history placement (R76, R83, R127) -/

/-- The offer and the hand-over of a predicted placement (R76, R127). -/
def offerAndRegister (w : Working) (s : State) : State :=
  let edges := bandEdges s.sweepCfg w.xC w.shifts
  registerFrame w
    (placementOffer w (leastEnd s.sweepCfg edges - s.comp.front) (s.comp.front - minOf 0 edges) s)

/-- The column step of a track-placed frame (R76). -/
def columnStep (w : Working) (s : State) : State :=
  let dir := s.place.direction
  offerAndRegister
    { w with
      xC := predictedCentre s.sweepCfg dir w.refYaw w.trimYaw (s.place.originYaw.getD 0)
      shifts := bandShifts s.sweepCfg dir w.refYaw w.bandYaws
      flags := { w.flags with rsClamp := w.flags.rsClamp || shiftsClamp s.sweepCfg dir w.refYaw w.bandYaws }
      stage := .placed } s

/-- A frame becomes history-placed: its column from the strip table, shifts 0, the pitch offset of the last strip
(R83). -/
def historyPlace (w : Working) (s : State) : State :=
  offerAndRegister
    { w with
      source := .history
      xC := historyColumn s.comp.strips w.tRef
      shifts := List.replicate 8 0
      yP := match s.comp.strips.getLast? with
        | some record => record.yP
        | none => 0
      flags := { w.flags with extrapolated := true }
      stage := .placed } s

/-! ## The steps of placement (4.5) -/

/-- Where one step of placement leaves the frame: going on with its record, or at rest. -/
inductive Course where
  | goOn (w : Working) (s : State)
  | rest (s : State)
  deriving DecidableEq, Repr

/-- The lookup waits for the pose ring (R72). -/
def waitMotion (w : Working) (s : State) : Course :=
  .rest { s with place := { s.place with state := .waitMotion, work := some w } }

/-- The opening frame's lookups are complete: its poses are saved, its offer is made and its slot is HELD (R78, R127). -/
def holdOpening (w : Working) (s : State) : State :=
  let s1 := placementOffer w 0 0 s
  drainTest
    { s1 with
      place := { s1.place with state := .ready, work := none, saved := some ⟨w.refYaw, w.bandYaws, w.flags⟩ }
      ingest := { s1.ingest with slots := moveSlot s1.ingest.slots w.slot .held } }

/-- The deciding frame fixes the direction, hands strip 0 over and waits for its commit (R80). -/
def decideDirection (delta : Int) (w : Working) (s : State) : State :=
  handStrip0
    { s with place := { s.place with
        direction := if delta < 0 then .minus else .plus
        state := .placing
        work := some { w with stage := .awaitStrip0 } } }

/-- The direction step while the direction is unknown (R79): a GUIDE frame makes its offer and is released, a still
frame likewise, and a frame 32 columns or more from the origin decides. -/
def directionStep (w : Working) (s : State) : State :=
  let delta := directionDelta s.sweepCfg w.refYaw w.trimYaw (s.place.originYaw.getD 0)
  if w.cls = .guide then releaseFrame w.slot .guide (placementOffer w delta 0 s)
  else if delta.natAbs < 32 then releaseFrame w.slot .still (placementOffer w delta 0 s)
  else decideDirection delta w s

/-- The times of the eight bands for a pitch offset (R69). -/
def bandTimesOf (s : State) (slot : Nat) (yP : Int) : List Time :=
  bands.map fun k => bandTime s.sweepCfg (slotInfo s.ingest.slots slot) k yP

/-- The reference pose is found: the opening frame sets the origin (R78); any other takes its pitch offset (R69) and,
while the direction is unknown, the direction step (R79). -/
def afterReference (pose : PoseFound) (w : Working) (s : State) : Course :=
  let w1 := { w with refYaw := pose.yaw, refPitch := pose.pitch, flags := mergeFlags w.flags pose.flags }
  if w.cls = .opening then
    .goOn { w1 with yP := 0, bandTimes := bandTimesOf s w.slot 0, stage := .band 0 }
      { s with place := { s.place with originYaw := some pose.yaw, originPitch := some pose.pitch } }
  else
    let raw := rawPitchOffset s.sweepCfg pose.pitch w.trimPitch (s.place.originPitch.getD 0)
    let y := clampPitch s.sweepCfg raw
    let w2 := { w1 with
      yP := y
      bandTimes := bandTimesOf s w.slot y
      flags := { w1.flags with pitchClamp := w1.flags.pitchClamp || pitchClamps s.sweepCfg raw }
      stage := .band 0 }
    if s.place.direction = .unknown then .rest (directionStep w2 s) else .goOn w2 s

/-- The yaw of band k is found; after band 7 the opening frame is held and any other takes the column step. -/
def afterBand (k : Nat) (pose : PoseFound) (w : Working) (s : State) : Course :=
  let w1 := { w with bandYaws := w.bandYaws ++ [pose.yaw], flags := mergeFlags w.flags pose.flags, stage := .band (k + 1) }
  if k + 1 < 8 then .goOn w1 s
  else if w.cls = .opening then .rest (holdOpening w1 s)
  else .rest (columnStep w1 s)

/-- The time the frame's next lookup asks for. -/
def lookupTime (w : Working) : Time :=
  match w.stage with
  | .band k => w.bandTimes.getD k 0
  | .reference | .awaitStrip0 | .placed => w.tRef

/-- Where the answer of a lookup takes the frame (R72, R74, 4.5). -/
def takeAnswer (answer : LookupAnswer) (w : Working) (s : State) : Course :=
  match answer with
  | .wait => waitMotion w s
  | .history => .rest (historyPlace w s)
  | .found pose =>
    match w.stage with
    | .reference => afterReference pose w s
    | .band k => afterBand k pose w s
    | .awaitStrip0 | .placed => .rest s

/-- One step of placement: the frame's next lookup (R70 to R74). -/
def placeStep (w : Working) (s : State) : Course :=
  match w.stage with
  | .awaitStrip0 | .placed => .rest s
  | .reference | .band _ => takeAnswer (lookupPose s.sweepCfg s w (lookupTime w)) (meetLoss s w) s

/-- Placement runs on until the frame rests; it takes at most nine lookups. -/
def placeRun : Nat → Working → State → State
  | 0, w, s => { s with place := { s.place with state := .placing, work := some w } }
  | n + 1, w, s =>
    match placeStep w { s with place := { s.place with state := .placing, work := some w } } with
    | .goOn w1 s1 => placeRun n w1 s1
    | .rest s1 => s1

/-- The number of steps that placement may take: the reference lookup and eight bands. -/
def placeFuel : Nat := 9

/-! ## The take (R66) -/

/-- The class of a frame at its take (R66). -/
def classify (info : SlotRecord) (openingPlaced : Bool) : FrameClass :=
  if info.opening then .opening
  else if info.guide then (if openingPlaced then .guide else .earlyGuide)
  else .ordinary

/-- The working placement record that a take creates (R66, R67). -/
def workingRecord (s : State) (slot : Nat) : Working :=
  let info := slotInfo s.ingest.slots slot
  { slot := slot
    seq := info.seq
    cls := classify info s.place.originYaw.isSome
    takeTime := s.timeBase
    trimYaw := s.comp.trimYaw
    trimPitch := s.comp.trimPitch
    source := .track
    tRef := referenceTime s.sweepCfg info
    refYaw := 0
    refPitch := 0
    yP := 0
    bandTimes := []
    bandYaws := []
    xC := 0
    shifts := []
    correction := none
    finalX := 0
    finalY := 0
    edges := []
    flags := FrameFlags.clear
    expired := false
    metLoss := false
    stage := .reference }

/-- The engine takes the head slot of the queue: ENGAGED, classed, an early guide frame released at once and any other
placed (R66, R82). -/
def takeFrame (slot : Nat) (s : State) : State :=
  let w := workingRecord s slot
  let s1 := { s with ingest := { s.ingest with
    queue := s.ingest.queue.erase slot, slots := moveSlot s.ingest.slots slot .engaged } }
  if w.cls = .earlyGuide then releaseFrame slot .guide s1 else placeRun placeFuel w s1

/-- The engine may take a frame (R66). -/
def canTake (s : State) : Bool :=
  decide (s.sweep.state = .opened ∨ s.sweep.state = .draining) && !anySlot s.ingest.slots .engaged

/-- The engine takes frames for as long as it can: at most the six of the queue. -/
def engineGo : Nat → State → State
  | 0, s => s
  | n + 1, s =>
    if canTake s then
      match s.ingest.queue with
      | [] => s
      | slot :: _ => engineGo n (takeFrame slot s)
    else s

/-- The number of takes one event can bring. -/
def takeFuel : Nat := 7

/-! ## Placement goes on (R72, R74) -/

/-- A frame waiting for motion goes on with its record. -/
def resumePlacement (s : State) : State :=
  match s.place.state, s.place.work with
  | .waitMotion, some w => placeRun placeFuel w s
  | _, _ => s

/-- A new entry has joined the ring: the wait ends if the ring now answers the lookup (R39, R72). -/
def entryAnnounced (s : State) : State :=
  match s.place.state, s.place.work with
  | .waitMotion, some w =>
    match lookupRing s.motion.ring (lookupTime w) with
    | some _ => placeRun placeFuel w s
    | none => s
  | _, _ => s

/-- A loss is reported to the placement unit (R41, R74). -/
def lossReported (s : State) : State := resumePlacement { s with place := { s.place with motionLost := true } }

/-- The frame's motion wait limit expires: the time base moves on to it and the lookup is extrapolated (R72, R73). -/
def expireWait (s : State) : State :=
  match s.place.state, s.place.work with
  | .waitMotion, some w =>
    placeRun placeFuel { w with expired := true }
      { s with timeBase := advanceTo (waitDue s.sweepCfg w) s.timeBase }
  | _, _ => s

/-! ## Search and harvest (R101, R89) -/

/-- Every line of a slot's frame has been written, so the engine may read the slot (R57). -/
def linesReady (s : State) (slot : Nat) : Bool :=
  decide (s.sweepCfg.frameHeight ≤ (slotInfo s.ingest.slots slot).linesWritten)

/-- The search of a frame reads its slot: some patch has an evaluable position (R96). -/
def searchReads (s : State) (w : Working) : Bool :=
  let f := searchFrame s w
  s.reg.lead.any (fun p => !(offsets s.sweepCfg f 0 p).isEmpty) ||
    (frameClosureDue s w &&
      s.reg.opening.any fun p => !(offsets s.sweepCfg f (ringWidth s.sweepCfg) p).isEmpty)

/-- The words of the slot under the windows of LEAD's patches (R95, R96). -/
def leadWindows (s : State) (w : Working) : List Nat := s.reg.lead.flatMap (windowWords s.sweepCfg (searchFrame s w) 0)

/-- The words of the slot under the windows of OPENING's patches, projected with column X + W_ring, when a closure
measurement is due (R102). -/
def openingWindows (s : State) (w : Working) : List Nat :=
  if frameClosureDue s w then s.reg.opening.flatMap (windowWords s.sweepCfg (searchFrame s w) (ringWidth s.sweepCfg))
  else []

/-- The words of the slot that the search of a frame reads: the windows of every patch of LEAD, and of OPENING when a closure
measurement is due (R96, R102, R105). -/
def searchWords (s : State) (w : Working) : List Nat := leadWindows s w ++ openingWindows s w

/-- The search has come to OPENING's entries: a closure measurement is due and no word of LEAD's windows is left to read,
because OPENING is searched after LEAD (R102). -/
def searchesOpening (s : State) (w : Working) : Bool :=
  frameClosureDue s w && !(readsLeft s .registration).any (leadWindows s w).contains

/-- The search of the frame in hand ends with consensus (R99 to R103), once it has read every window row (R105). -/
def completeSearch (s : State) : State :=
  match s.reg.state, s.place.work with
  | .searching, some w =>
    if readsDone s .registration && (linesReady s w.slot || !searchReads s w) then
      let r := searchResult s.sweepCfg s.store (searchFrame s w) s.reg.lead s.reg.opening (frameClosureDue s w)
      engineGo takeFuel (finishRegistration r w (dropEngine .registration s))
    else s
  | _, _ => s

/-- The strip's commit harvests OPENING as well as LEAD (R90). -/
def harvestsOpening (cfg : Configuration) (job : StripJob) : Bool := job.strip0 && decide (cfg.mode = .ring)

/-- LEAD, and at strip 0 in RING mode OPENING, harvested from the canvas (R89, R90). -/
def harvestTables (job : StripJob) (s : State) : State :=
  { s with reg :=
      { state := .idle
        lead := harvestTable s.sweepCfg s.store (leadColumns job.newFront)
        opening :=
          if harvestsOpening s.sweepCfg job then
            harvestTable s.sweepCfg s.store (openingColumns (maxOf 0 job.edges))
          else s.reg.opening
        openingHarvest := false } }

/-- The words that the harvest of LEAD reads (R89, R91). -/
def leadWords (s : State) (job : StripJob) : List Nat := harvestWords s.sweepCfg s.store (leadColumns job.newFront)

/-- The words that the harvest of OPENING reads, at strip 0 in RING mode (R90, R91). -/
def openingWords (s : State) (job : StripJob) : List Nat :=
  if harvestsOpening s.sweepCfg job then harvestWords s.sweepCfg s.store (openingColumns (maxOf 0 job.edges)) else []

/-- The harvest reads for OPENING: at strip 0 in RING mode, once no word of LEAD's candidates is left to read (R89 to R91).
DESIGN CHOICE (log entry 27), unsafe: LEAD is harvested first. -/
def onOpening (s : State) (job : StripJob) : Bool :=
  harvestsOpening s.sweepCfg job && !(readsLeft s .registration).any (leadWords s job).contains

/-- The harvest of strip 0 goes on from LEAD, which is replaced whole, to OPENING, at its first read for OPENING (R89 to
R91). -/
def turnToOpening (s : State) : State :=
  match s.reg.state, s.comp.job with
  | .harvesting, some job =>
    if !s.reg.openingHarvest && onOpening s job then
      { s with reg := { s.reg with
          lead := harvestTable s.sweepCfg s.store (leadColumns job.newFront)
          openingHarvest := true } }
    else s
  | _, _ => s

/-! ## The commit (R119 to R121) -/

/-- The commit's effects on the compositor's own state (R119, R125); the preview update follows (R122). -/
def commitComp (job : StripJob) (s : State) : State :=
  let cfg := s.sweepCfg
  let trims := trimAfter cfg s.place.direction job.result.correction s.comp.trimYaw s.comp.trimPitch
  { s with comp := { s.comp with
      strips := s.comp.strips ++ [stripRecord cfg s.comp.strips.length s.comp.front job]
      front := job.newFront
      clean := if job.strip0 then some (maxOf 0 job.edges) else s.comp.clean
      settled := settledAfter cfg s.comp.settled job.newFront
      trimYaw := trims.1
      trimPitch := trims.2
      closureError := if job.cls = .closing then job.result.closure else s.comp.closureError
      closurePoor := if job.cls = .closing then closurePoor cfg job.result.closure else s.comp.closurePoor
      state := .updating
      job := none
      todo := [] } }

/-- The preview update after a commit: the columns newly settled (R122). -/
def beginUpdate (s : State) : State :=
  { s with comp := { s.comp with
      todo := previewUnits s.sweepCfg s.store (updateColumns s.sweepCfg s.store s.comp.settled s.comp.clean) } }

/-- The attention causes of a commit (R120). -/
def commitCauses (job : StripJob) (s : State) : State :=
  let s1 := raiseCause .strip s
  if job.frameFlags.pitchClamp then raiseCause .pitchLimit s1 else s1

/-- The end request of a commit, if any (R120). -/
def commitEnd (job : StripJob) (s : State) : State :=
  match commitRequest job.cls s.comp.strips.length with
  | some reason => sendEndRequest reason s
  | none => s

/-- The placement unit after a commit: strip 0's saved poses are used up; the record of a frame whose own strip has
committed is removed (R67, R78). -/
def commitPlace (job : StripJob) (s : State) : State :=
  { s with place := { s.place with
      saved := if job.strip0 then none else s.place.saved
      state := match s.place.work with
        | some w => if w.slot = job.slot then .ready else s.place.state
        | none => .ready
      work := match s.place.work with
        | some w => if w.slot = job.slot then none else some w
        | none => none } }

/-- The drain-completion test that the commit's freed slot brings (R15). When the strip is a hand-over's and its
commit sent an end request, that request ends the sweep instead (R15, log entry 13). -/
def commitDrain (job : StripJob) (handedOver : Bool) (s : State) : State :=
  if handedOver && (commitRequest job.cls s.comp.strips.length).isSome then s else drainTest s

/-- The deciding frame goes on from its band lookups once strip 0 has committed (R80). -/
def resumeDeciding (s : State) : State :=
  match s.place.work with
  | some w =>
    if w.stage = .awaitStrip0 then placeRun placeFuel { w with stage := .band 0 } s else s
  | none => s

/-- The commit of a strip, whole (R119 to R122, R62): the compositor's state, the pending re-anchor, the slot freed as
composited, the causes, the announcement to the fetch port, the end request, and what the freed slot brings. -/
def commitStrip (job : StripJob) (s : State) : State :=
  let handedOver := job.strip0 && decide (slotState s.ingest.slots job.slot = .engaged)
  let s1 := applyPending (commitComp job s)
  let s2 := commitPlace job (freeSlot job.slot .composited s1)
  let s3 := retestStall (commitEnd job (commitCauses job (beginUpdate s2)))
  engineGo takeFuel (resumeDeciding (commitDrain job handedOver s3))

/-- The harvest is complete, every candidate row having been read, and the strip commits (R89, R91, R119). -/
def completeHarvest (s : State) : State :=
  match s.reg.state, s.comp.state, s.comp.job with
  | .harvesting, .harvesting, some job =>
    if readsDone s .registration then commitStrip job (harvestTables job (dropEngine .registration s)) else s
  | _, _, _ => s

/-- The reads and the writes of the strip are complete, and the harvest is asked for (R119). -/
def completeWrites (s : State) : State :=
  match s.comp.state, s.comp.job with
  | .compositing, some job =>
    if job.planned && s.comp.todo.isEmpty && readsDone s .compositor then
      let s1 := dropEngine .compositor s
      { s1 with
        comp := { s1.comp with state := .harvesting }
        reg := { s1.reg with state := .harvesting, openingHarvest := false } }
    else s
  | _, _ => s

/-- The preview update is complete: the compositor is READY and takes the placement held meanwhile (R122, R108). While the end
request of the commit waits, the update does not complete, so that no frame is composited behind a closing or extent
strip or behind the 256th: the sweep ends at that commit (R120), and of the end requests only FAULT can be taken while a
frame is in compositing (R129). DEDUCED (log entry 43), unsafe: that it is the update which lasts until the request is
taken. -/
def completeUpdate (s : State) : State :=
  if s.comp.state = .updating ∧ s.comp.halted = false ∧ s.comp.todo = [] ∧ readsDone s .compositor ∧
      commitRequested s = false then
    let s1 := dropEngine .compositor s
    let s2 := { s1 with comp := { s1.comp with state := .ready } }
    match s.comp.waiting with
    | some job => engineGo takeFuel (advanceTest job s2)
    | none => s2
  else s

/-- The closing work is complete: the compositor is READY, SWEEP_END is raised and a stall is tested again (R123, R16,
R159). -/
def completeClosing (s : State) : State :=
  if s.comp.state = .closing ∧ s.comp.todo = [] ∧ readsDone s .compositor then
    let s1 := dropEngine .compositor s
    retestStall (raiseCause .sweepEnd { s1 with comp := { s1.comp with state := .ready } })
  else s

end Sys2Proof.Machine
end

