-- ==== Sys2Proof/Machine/Arbiter.lean ====
section
/-! DEFINITION. The memory arbiter and the bursts of its four clients (R142 to R146, R154, R180), and what settles
at the end of every command: seams chosen, return bus, requests and grants. -/

namespace Sys2Proof.Machine

/-! ## What the clients ask for (R142) -/

/-- The bytes of a line's words in the order the slot stores them (10.2). -/
def lineBytes (words : List Half) : List Byte := words.flatMap fun w => [highByte w, lowByte w]

/-- The next write burst of a buffered line: up to 64 bytes (R56). -/
def lineBurst (cfg : Configuration) (l : BufferedLine) : IngestBurst :=
  let all := lineBytes l.words
  { slot := l.slot
    addr := slotAddress cfg l.slot l.line 0 + l.asked
    bytes := (all.drop l.asked).take 64
    last := decide (all.length ≤ l.asked + 64) }

/-- A buffered line has bytes it has not asked for. -/
def lineUnasked (l : BufferedLine) : Bool := decide (l.asked < 2 * l.words.length)

/-- The ingest unit asks for its next burst, from the oldest line that has bytes left (R56, R142). -/
def ingestAsk (s : State) : State :=
  if s.arb.ingestWait.isSome then s
  else
    match s.ingest.lines.findIdx? lineUnasked with
    | none => s
    | some i =>
      match s.ingest.lines[i]? with
      | none => s
      | some l =>
        let b := lineBurst s.sweepCfg l
        { s with
          ingest := { s.ingest with
            lines := s.ingest.lines.modify i fun l => { l with asked := l.asked + b.bytes.length } }
          arb := { s.arb with ingestWait := some b } }

/-- The slot of the frame in the placement unit's hands has all its lines (R57). -/
def workLinesReady (s : State) : Bool :=
  match s.place.work with
  | some w => linesReady s w.slot
  | none => false

/-- A unit of the engine is on an operation whose reads and writes are settled: a search or a harvest (R105), a strip whose
seams are chosen, a preview update or the closing work (R108). -/
def operates (s : State) : EngineUnit → Bool
  | .registration => decide (s.reg.state ≠ .idle)
  | .compositor =>
    match s.comp.state with
    | .compositing => (s.comp.job.map StripJob.planned).getD false
    | .updating | .closing => true
    | .ready | .harvesting => false

/-- The words that the registration unit's operation reads: a search its windows (R105), a harvest its candidates' rows
(R91). -/
def registrationWords (s : State) : List Nat :=
  match s.reg.state, s.place.work, s.comp.job with
  | .searching, some w, _ => searchWords s w
  | .harvesting, _, some job => leadWords s job ++ openingWords s job
  | _, _, _ => []

/-- The words that the compositor's operation reads: a strip its new pixels and the old cells (R112, R115 to R117), an update
and the closing work the blocks of their pixels (R122, R123). -/
def compositorWords (s : State) : List Nat :=
  match s.comp.state, s.comp.job with
  | .compositing, some job =>
    stripWords s.sweepCfg s.store s.place.direction s.comp.front (stripClean s.comp.clean job) job
  | .updating, _ | .closing, _ => previewWords s.sweepCfg s.store s.comp.todo
  | _, _ => []

/-- The words that a unit's operation reads. -/
def operationWords (s : State) : EngineUnit → List Nat
  | .registration => registrationWords s
  | .compositor => compositorWords s

/-- What a unit has still to read: all that its operation reads when it begins, nothing when there is none. -/
def plannedReads (s : State) (unit : EngineUnit) : Option (List Nat) :=
  if operates s unit then
    match engineReads s.arb unit with
    | some left => some left
    | none => some (operationWords s unit)
  else none

/-- Each unit of the engine plans the reads of an operation that has begun. -/
def planReads (s : State) : State :=
  { s with arb := { s.arb with
      regReads := plannedReads s .registration, compReads := plannedReads s .compositor } }

/-- A unit of the engine has a burst to ask for while its operation has words to read or pixels to write (R142): a search
once its frame's lines are all in the slot (R57). -/
def unitWants (s : State) : EngineUnit → Bool
  | .registration =>
    match s.reg.state with
    | .searching => workLinesReady s && !readsDone s .registration
    | .harvesting => !readsDone s .registration
    | .idle => false
  | .compositor =>
    match s.comp.state with
    | .compositing | .updating | .closing => !s.comp.todo.isEmpty || !readsDone s .compositor
    | .ready | .harvesting => false

/-- The other unit of the engine. -/
def otherUnit : EngineUnit → EngineUnit
  | .registration => .compositor
  | .compositor => .registration

/-- The unit the engine asks for next: of two, the one it did not ask for last (R142). -/
def nextUnit (s : State) : Option EngineUnit :=
  if unitWants s (otherUnit s.arb.engineTurn) then some (otherUnit s.arb.engineTurn)
  else if unitWants s s.arb.engineTurn then some s.arb.engineTurn
  else none

/-- A request of an engine unit that has nothing more to move is not kept waiting. -/
def engineWithdraw (s : State) : State :=
  match s.arb.engineWait with
  | some u => if unitWants s u then s else { s with arb := { s.arb with engineWait := none } }
  | none => s

/-- The engine asks for its next burst (R142). -/
def engineAsk (s : State) : State :=
  if s.arb.engineWait.isSome then s
  else
    match nextUnit s with
    | some u => { s with arb := { s.arb with engineWait := some u, engineTurn := u } }
    | none => s

/-- The bytes that a memory test covers (R180). -/
def testArea : Nat → Nat
  | 1 => 14745600
  | _ => 31948800

/-- The cursor of the memory tests behind a burst: the next 64 bytes, the next of the four passes, the next test
(R180). -/
def nextTestBurst (r : SelfRun) : SelfRun :=
  if r.offset + 64 < testArea r.test then { r with offset := r.offset + 64 }
  else if r.pass < 3 then { r with offset := 0, pass := r.pass + 1 }
  else { r with offset := 0, pass := 0, test := r.test + 1 }

/-- Self-test asks for its next burst: in TEST alone, while its memory tests run (R142, R143). -/
def selfAsk (s : State) : State :=
  if s.sweep.state ≠ .test ∨ s.arb.selfWait.isSome then s
  else
    match s.selfTest.run with
    | none => s
    | some r =>
      if r.failed.isSome ∨ 3 ≤ r.test then s
      else
        { s with
          arb := { s.arb with selfWait := some ⟨r.test, r.pass, r.offset⟩ }
          selfTest := { s.selfTest with run := some (nextTestBurst r) } }

/-- Every client asks for what it wants. -/
def askAll (s : State) : State := selfAsk (fetchAskNext (engineAsk (ingestAsk s)))

/-! ## Grants (R142, R143) -/

/-- The clients of the arbiter. -/
inductive Client where
  | ingest | engine | fetch | selfTest
  deriving DecidableEq, Repr

/-- A client has a request waiting. -/
def waits (a : Arbiter) : Client → Bool
  | .ingest => a.ingestWait.isSome
  | .engine => a.engineWait.isSome
  | .fetch => a.fetchWait.isSome
  | .selfTest => a.selfWait.isSome

/-- The client that goes first between the engine and the fetch port (R143). -/
def engineOrFetch (order : ServiceOrder) (mark : LastServed) : Client :=
  match order, mark with
  | .fixed, _ => .fetch
  | .rotate, .engine => .fetch
  | .rotate, .fetch => .engine

/-- The arbiter's choice among the waiting requests (R132, R143): nothing in INIT, self-test alone in TEST. -/
def arbiterChoice (s : State) : Option Client :=
  match s.sweep.state with
  | .init => none
  | .test => if waits s.arb .selfTest then some .selfTest else none
  | .idle | .armed | .opened | .draining | .done =>
    if waits s.arb .ingest then some .ingest
    else if waits s.arb .engine && waits s.arb .fetch then
      some (engineOrFetch s.config.serviceOrder s.arb.lastServed)
    else if waits s.arb .engine then some .engine
    else if waits s.arb .fetch then some .fetch
    else none

/-- The slot whose frame a search or a strip reads. -/
def slotArea (cfg : Configuration) (slot : Nat) : MoveArea := ⟨slot * slotBytes, slotUsed cfg, true, false⟩

/-- The canvas in use, for an operation that reads it and may write it. -/
def canvasMoves (cfg : Configuration) (writes : Bool) : MoveArea := ⟨canvasArea, canvasUsed cfg, true, writes⟩

/-- The preview in use, which the engine writes and does not read (R131, R142). -/
def previewMoves (cfg : Configuration) : MoveArea := ⟨previewArea, previewUsed cfg, false, true⟩

/-- The areas that an engine unit's present operation moves (R131, R142): a search reads its frame's slot (R105), a harvest
the rows of the eligible candidates of the table it is at (R91), a strip its frame's slot and the canvas, which it writes
(R112, R115), and an update or the closing work reads the canvas and writes the preview (R122, R123). -/
def engineAreas (s : State) : EngineUnit → List MoveArea
  | .registration =>
    match s.reg.state with
    | .searching =>
      match s.place.work with
      | some w => [slotArea s.sweepCfg w.slot]
      | none => []
    | .harvesting =>
      match s.comp.job with
      | some job =>
        harvestAreas s.sweepCfg s.store
          (if onOpening s job then openingColumns (maxOf 0 job.edges) else leadColumns job.newFront)
      | none => []
    | .idle => []
  | .compositor =>
    match s.comp.state with
    | .compositing =>
      match s.comp.job with
      | some job => [slotArea s.sweepCfg job.slot, canvasMoves s.sweepCfg true]
      | none => []
    | .updating | .closing => [canvasMoves s.sweepCfg false, previewMoves s.sweepCfg]
    | .ready | .harvesting => []

/-- A client's waiting request is granted: its burst is in progress; the engine and the fetch port set the last-served
mark (R143), and a fetch read takes its data at the grant (R140). -/
def grantClient (c : Client) (s : State) : State :=
  match c with
  | .ingest =>
    match s.arb.ingestWait with
    | some b => { s with arb := { s.arb with ingestWait := none, inProgress := some (.ingest b true) } }
    | none => s
  | .engine =>
    match s.arb.engineWait with
    | some u =>
      { s with arb := { s.arb with
          engineWait := none
          inProgress := some (.engine u true [] (engineAreas s u))
          lastServed := .engine } }
    | none => s
  | .fetch =>
    match s.arb.fetchWait with
    | some b =>
      { s with arb := { s.arb with
          fetchWait := none
          inProgress := some (.fetch b (fetchBytes s.sweepCfg s.store b) true)
          lastServed := .fetch } }
    | none => s
  | .selfTest =>
    match s.arb.selfWait with
    | some b => { s with arb := { s.arb with selfWait := none, inProgress := some (.selfTest b true) } }
    | none => s

/-- A burst has completed with requests waiting: the arbiter grants one (R142, R143). -/
def grantWaiting (s : State) : State :=
  if s.arb.inProgress.isSome then s
  else
    match arbiterChoice s with
    | some c => grantClient c s
    | none => s

/-- Which of several requests that arrive together at a free memory is granted: either may be (R142, log entry 7). -/
def arrivalChoice : Nat → List Client → Option Client
  | _, [] => none
  | _, [c] => some c
  | i, c :: rest => if Config.firstTaken i then some c else arrivalChoice (i + 1) rest

/-- The clients with a request, of those the state lets the arbiter grant (R132, R143). -/
def arrivedClients (s : State) : List Client :=
  match s.sweep.state with
  | .init => []
  | .test => [Client.selfTest].filter (waits s.arb)
  | .idle | .armed | .opened | .draining | .done => [Client.fetch, .engine, .ingest].filter (waits s.arb)

/-- A request that arrives at a free memory is granted at once (R142). -/
def grantArrived (s : State) : State :=
  if s.arb.inProgress.isSome then s
  else
    match arrivedClients s with
    | [] => s
    | [c] => grantClient c s
    | several =>
      match arrivalChoice s.freeIndex several with
      | some c => grantClient c { s with freeIndex := s.freeIndex + 2 }
      | none => s

/-! ## What settles at the end of a command -/

/-- Once a frame in compositing has all its lines in the slot, the compositor chooses the seams and forms the pixels
it will write (R111 to R117, log entry 26). -/
def prepareStrip (s : State) : State :=
  match s.comp.state, s.comp.job with
  | .compositing, some job =>
    if job.planned || !linesReady s job.slot then s
    else
      let cfg := s.sweepCfg
      let seams := stripSeams cfg s.store s.place.direction s.comp.front job
      let job1 := { job with
        planned := true
        seams := seams
        detached := stripDetached s.comp.front job seams
        wrapped := stripWrapped cfg s.comp.front job seams }
      { s with comp := { s.comp with
          job := some job1
          todo := stripUnits cfg s.store s.place.direction s.comp.front (stripClean s.comp.clean job) job seams } }
  | _, _ => s

/-- What follows every command: a strip is prepared, the engine's units plan their reads, the return bus takes a
posted burst, the clients ask and the arbiter grants. `busDone` and `memDone` say that a return burst or a memory
burst has just completed, when the service order chooses (R143, R161). -/
def settle (busDone memDone : Bool) (s : State) : State :=
  let s1 := engineWithdraw (planReads (prepareStrip s))
  let s2 := if memDone then grantWaiting s1 else s1
  askAll (grantArrived (askAll (settleBus busDone s2)))

/-! ## Words and errors (R144) -/

/-- A pixel lies in a word. -/
def unitInWord (word : Nat) (u : WriteUnit) : Bool := decide (u.addr / 8 = word)

/-- The pixels of a list that a write burst stores: those wholly within its bytes. -/
def unitsWithin (addr len : Nat) (units : List WriteUnit) : List WriteUnit :=
  units.filter fun u => decide (addr ≤ u.addr ∧ u.addr + 2 ≤ addr + len)

/-- A write covers only part of a word: fewer than its four pixels (R144). -/
def partialWord (units : List WriteUnit) (word : Nat) : Bool :=
  decide (((units.filter (unitInWord word)).map WriteUnit.addr).dedup.length < 4)

/-- The words that a write of these pixels reads first: those it covers in part (R144). -/
def mergedWords (units : List WriteUnit) : List Nat :=
  ((units.map fun u => u.addr / 8).dedup).filter (partialWord units)

/-- A pixel is stored: its two bytes. -/
def storeUnit (mem : List Host.Cell) (u : WriteUnit) : List Host.Cell := memWrite (memWrite mem u.addr u.y) (u.addr + 1) u.c

/-- The pixels of a list that a write burst leaves: those not wholly within its bytes. -/
def unitsBeyond (addr len : Nat) (units : List WriteUnit) : List WriteUnit :=
  units.filter fun u => !decide (addr ≤ u.addr ∧ u.addr + 2 ≤ addr + len)

/-- The pixels that are stored when the words in `bad` are left as they were (R144). -/
def soundUnits (bad : List Nat) (units : List WriteUnit) : List WriteUnit :=
  units.filter fun u => !bad.contains (u.addr / 8)

/-- Pixels are stored in the DRAM, their words with new check data (R144). -/
def storeUnits (units : List WriteUnit) (s : State) : State :=
  { s with store :=
      rewriteWords (units.map fun u => u.addr / 8) { s.store with mem := units.foldl storeUnit s.store.mem } }

/-- A write burst of these pixels: the words it covers in part are read and checked, a word with an uncorrectable error
is left as it was, and every other pixel is stored (R144). -/
def writePixels (units : List WriteUnit) (errors : MemErrors) (s : State) : State :=
  storeUnits (soundUnits (badWords (mergedWords units) errors s.store) units) (checkWords (mergedWords units) errors s)

/-! ## The compositor's writes and flags (R118, R141) -/

/-- Two pixels count for the same flag: the same band and stored column, or the same preview column. -/
def sameFlag (a b : WriteTarget) : Bool :=
  match a, b with
  | .cell k x, .cell k' x' => decide (k = k' ∧ x = x')
  | .preview j _, .preview j' _ => decide (j = j')
  | _, _ => false

/-- The flag of a pixel is set once no pixel of its column is left to write (R118, R122, R141). -/
def setWrittenFlag (left : List WriteUnit) (store : CanvasStore) (u : WriteUnit) : CanvasStore :=
  if left.any fun v => sameFlag u.target v.target then store
  else
    match u.target with
    | .cell k x => { store with coverage := setFlag store.coverage (coverageIndex k x) }
    | .preview j _ => { store with computed := setFlag store.computed j }

/-- Pixels leave the compositor's work, and the flags they complete are set (R118, R122). -/
def finishUnits (done left : List WriteUnit) (s : State) : State :=
  { s with
    comp := { s.comp with todo := left }
    store := done.foldl (setWrittenFlag left) s.store }

/-- Where a fetch, an engine read or a write is told of an uncorrectable error: FAULT is raised and a FAULT end request
is sent (R145). -/
def reportFault (s : State) : State := sendEndRequest .fault (raiseCause .fault s)

/-- The frame in compositing ends without a strip (R129). DESIGN CHOICE (log entry 34), unsafe: the compositor is READY at
once, before the FAULT end request is taken, so a re-anchor sent between the two is applied to the yaw trim (R121); R108
keeps the frame in compositing until its discard, by which a pending re-anchor would be dropped. -/
def dropStrip (s : State) : State :=
  let s1 := dropEngine .compositor s
  { s1 with comp := { s1.comp with state := .ready, job := none, pendingReanchor := none, todo := [] } }

/-- A burst touches a cell of a preview block: one of its eight runs of 16 bytes (R134, R141). -/
def blockMeets (cfg : Configuration) (addr len column row : Nat) : Bool :=
  (List.range 8).any fun dr =>
    let cell := cellAddress cfg (8 * column) (8 * row + dr)
    decide (cell < addr + len ∧ addr < cell + 16)

/-- In the closing work a block that an uncorrectable burst read takes the fill pixel (R123, R145). -/
def fillBlock (cfg : Configuration) (fill : FillPixel) (addr len : Nat) (u : WriteUnit) : WriteUnit :=
  match u.target with
  | .preview j q => if blockMeets cfg addr len j q then { u with y := fill.y, c := fillChroma fill j } else u
  | .cell _ _ => u

/-- A harvest stops at an uncorrectable read: the table being harvested is left empty, the other is kept (R91). -/
def dropTable (reg : Registration) : Registration :=
  if reg.openingHarvest then { reg with state := .idle, opening := [], openingHarvest := false }
  else { reg with state := .idle, lead := [] }

/-- An uncorrectable burst of the registration unit (R91, R105, R106): a search is dropped; a harvest leaves its table
empty and the strip it belongs to is dropped (R129). -/
def faultRegistration (s : State) : State :=
  let s1 := reportFault (dropEngine .registration s)
  match s1.reg.state with
  | .harvesting => dropStrip { s1 with reg := dropTable s1.reg }
  | .searching => { s1 with reg := { s1.reg with state := .idle } }
  | .idle => s1

/-- An uncorrectable burst of the compositor that read `len` bytes from `addr` (R122, R123, R129): the strip or the
update stops; in the closing work the blocks it read take the fill and the work goes on. -/
def faultCompositor (addr len : Nat) (s : State) : State :=
  let s1 := reportFault s
  match s1.comp.state with
  | .compositing | .harvesting => dropStrip s1
  | .updating =>
    let s2 := dropEngine .compositor s1
    { s2 with comp := { s2.comp with todo := [], halted := true } }
  | .closing =>
    { s1 with comp := { s1.comp with todo := s1.comp.todo.map (fillBlock s1.sweepCfg s1.store.fill addr len) } }
  | .ready => s1

/-! ## Completions (R142 to R146) -/

/-- The slot records when a line's last burst is written: the slot whose next line it is counts it as written (R56). -/
def countLine (l : BufferedLine) (slots : List Slot) : List Slot :=
  slots.modify l.slot fun slot =>
    if slot.info.linesWritten = l.line then
      { slot with info := { slot.info with linesWritten := slot.info.linesWritten + 1 } }
    else slot

/-- The last burst of the oldest line is written: its entry is free and the line counts as written (R56). -/
def lineWritten (s : State) : State :=
  match s.ingest.lines with
  | l :: rest => { s with ingest := { s.ingest with lines := rest, slots := countLine l s.ingest.slots } }
  | [] => s

/-- A write burst of the ingest unit completes: its bytes are stored, and the last burst of a line frees its entry
(R56). A burst of a dropped frame only stores (R146). It covers whole words, because W_f is a multiple of 16 (R170). -/
def completeIngest (b : IngestBurst) (live : Bool) (s : State) : State :=
  let s1 := { s with store := storeBytes b.addr b.bytes s.store }
  if live && b.last then lineWritten s1 else s1

/-- A read burst of an engine unit completes: its words have been read (R144, R145). -/
def completeEngineRead (unit : EngineUnit) (addr len : Nat) (errors : MemErrors) (s : State) : State :=
  let words := touchedWords addr len
  match unit with
  | .registration =>
    let s1 := checkWords words errors (countRead .registration words (turnToOpening s))
    if (badWords words errors s.store).isEmpty then s1 else faultRegistration s1
  | .compositor =>
    let s1 := checkWords words errors (countRead .compositor words s)
    if (badWords words errors s.store).isEmpty then s1 else faultCompositor addr len s1

/-- A write burst of the compositor completes: its pixels are stored and the flags they complete are set; a merge that
meets an uncorrectable word is reported (R144, R145). DESIGN CHOICE (log entry 39), unsafe: of the closing work's pixels
in such a word R123 speaks only for block reads; the word stays as it was, those pixels leave the work and their columns
are marked computed all the same. The word's error stays too, so no fetch is served its old bytes. -/
def completeEngineWrite (addr len : Nat) (errors : MemErrors) (s : State) : State :=
  let units := unitsWithin addr len s.comp.todo
  let left := unitsBeyond addr len s.comp.todo
  let bad := badWords (mergedWords units) errors s.store
  let s1 := writePixels units errors s
  if bad.isEmpty then finishUnits units left s1
  else
    match s1.comp.state with
    | .closing => reportFault (finishUnits units left s1)
    | .compositing | .harvesting | .updating | .ready =>
      faultCompositor addr len
        (finishUnits (soundUnits bad units) (left ++ units.filter fun u => bad.contains (u.addr / 8)) s1)

/-- A burst of an engine operation that has ended completes: a write stores the pixels it had, a read's data are
dropped, corrected words are counted and an error has no effect (R146). -/
def completeLate (late : List WriteUnit) (move : EngineMove) (errors : MemErrors) (s : State) : State :=
  match move with
  | .read addr len => checkWords (touchedWords addr len) errors s
  | .write addr len => writePixels (unitsWithin addr len late) errors s

/-- An engine burst completes: the command says what it moved (log entry 5). A write is the compositor's. -/
def completeEngine (unit : EngineUnit) (live : Bool) (late : List WriteUnit) (move : EngineMove) (errors : MemErrors)
    (s : State) : State :=
  if live then
    match move, unit with
    | .read addr len, unit => completeEngineRead unit addr len errors s
    | .write addr len, .compositor => completeEngineWrite addr len errors s
    | .write _ _, .registration => s
  else completeLate late move errors s

/-- A fetch read completes: its data are handed over, or an uncorrectable burst ends the transfer (R145, R154). -/
def completeFetch (b : FetchRead) (data : List Byte) (live : Bool) (errors : MemErrors) (s : State) : State :=
  let words := touchedWords b.addr b.len
  let s1 := checkWords words errors s
  if live then
    if (badWords words errors s.store).isEmpty then fetchData b.requester data s1 else fetchError b.requester s1
  else s1

/-- Where a burst of the memory tests lies in the DRAM (R131, R180): test 2 goes over the canvas area and then the
preview area. -/
def testAddress (b : SelfBurst) : Nat :=
  if b.test = 1 then b.offset
  else if b.offset < 31457280 then canvasArea + b.offset
  else previewArea + (b.offset - 31457280)

/-- The byte a pass of a memory test writes or reads back at an offset (R180, log entry 9): the complement in the third
and fourth passes. -/
def testValue (pass offset : Nat) : Byte :=
  if 2 ≤ pass then ~~~(Config.testByte offset) else Config.testByte offset

/-- The 64 bytes a burst of a memory test writes or reads back (R180). -/
def testBytes (b : SelfBurst) : List Byte := (List.range 64).map fun i => testValue b.pass (b.offset + i)

/-- The bytes at an address and upward. -/
def memBytes (mem : List Host.Cell) (addr len : Nat) : List Byte := (List.range len).map fun i => memRead mem (addr + i)

/-- A read back of a memory test fails it (R180): a word reads back different, or the read is uncorrectable. -/
def readBackFails (b : SelfBurst) (errors : MemErrors) (store : CanvasStore) : Bool :=
  decide (memBytes store.mem (testAddress b) 64 ≠ testBytes b) ||
    (touchedWords (testAddress b) 64).any errors.differs.contains ||
    !(badWords (touchedWords (testAddress b) 64) errors store).isEmpty

/-- A memory test has failed (R180): its bursts end. -/
def failTest (test : Nat) (s : State) : State :=
  { s with
    arb := { s.arb with selfWait := none }
    selfTest := { s.selfTest with run := s.selfTest.run.map fun r => { r with failed := some test } } }

/-- A burst of self-test completes (R144, R180): a write stores its pattern, a read is checked. -/
def completeSelf (b : SelfBurst) (live : Bool) (errors : MemErrors) (s : State) : State :=
  if b.pass % 2 = 0 then { s with store := storeBytes (testAddress b) (testBytes b) s.store }
  else
    let s1 := checkWords (touchedWords (testAddress b) 64) errors s
    if live && readBackFails b errors s.store then failTest b.test s1 else s1

/-- The burst in progress completes. -/
def completeBurst (burst : InFlight) (move : EngineMove) (errors : MemErrors) (s : State) : State :=
  let s1 := { s with arb := { s.arb with inProgress := none } }
  match burst with
  | .ingest b live => completeIngest b live s1
  | .engine unit live late _ => completeEngine unit live late move errors s1
  | .fetch b data live => completeFetch b data live errors s1
  | .selfTest b live => completeSelf b live errors s1

/-- Preview pixel `v` belongs to a lower preview column than `u`. -/
def lowerColumn (u v : WriteUnit) : Bool :=
  match u.target, v.target with
  | .preview j _, .preview i _ => decide (i < j)
  | _, _ => false

/-- A write of the closing work keeps the ascending column order (R123): it finishes no preview column while a pixel of
a lower one is left. -/
def columnsAscend (addr len : Nat) (units : List WriteUnit) : Bool :=
  (unitsWithin addr len units).all fun u =>
    (unitsBeyond addr len units).all (fun v => !lowerColumn u v) ||
      (unitsBeyond addr len units).any fun v => sameFlag u.target v.target

/-- The pixels that an engine burst in progress may write: those of the compositor's work, or those an operation that
has ended left (R146). -/
def writableUnits (unit : EngineUnit) (live : Bool) (late : List WriteUnit) (s : State) : List WriteUnit :=
  if live then
    match unit with
    | .compositor => s.comp.todo
    | .registration => []
  else late

/-- The words that the registration unit's operation reads at this point: of a search the windows of the table it is at,
LEAD and then OPENING (R102, R105), and of a harvest the candidates' rows of the table it is at (R91). -/
def wordsAtHand (s : State) : List Nat :=
  match s.reg.state, s.place.work, s.comp.job with
  | .searching, some w, _ => if searchesOpening s w then openingWindows s w else leadWindows s w
  | .harvesting, _, some job => if onOpening s job then openingWords s job else leadWords s job
  | _, _, _ => []

/-- The registration unit reads the rows of its windows and candidates and nothing else (R91, R105). -/
def readAtHand (unit : EngineUnit) (addr len : Nat) (s : State) : Bool :=
  match unit with
  | .registration => (touchedWords addr len).all (wordsAtHand s).contains
  | .compositor => true

/-- Every word that a pixel of a write depends on has been read (R115, R122, R123). -/
def sourcesRead (addr len : Nat) (s : State) : Bool :=
  (unitsWithin addr len s.comp.todo).all fun u =>
    (sourceWords s.sweepCfg s.store u).all fun w => !(readsLeft s .compositor).contains w

/-- A write of the closing work comes in its order: ascending, or it is the burst that an absorbed update had in progress,
which writes pixels of that update alone (R123, R146). -/
def closingOrder (late : List WriteUnit) (addr len : Nat) (units : List WriteUnit) : Bool :=
  columnsAscend addr len units || (unitsWithin addr len units).all late.contains

/-- An engine burst can have moved this: it lies in one area in use that its operation reads or writes (R131, R142), a read
of the registration unit in the rows it needs (R91, R105), and a write stores some pixel of that operation, whose
sources have been read, in the closing work in that work's order (R123). -/
def moveFits (unit : EngineUnit) (live : Bool) (late : List WriteUnit) (areas : List MoveArea) (move : EngineMove)
    (s : State) : Bool :=
  match move with
  | .read addr len => (areas.any fun a => a.reads && areaHolds a addr len) && (!live || readAtHand unit addr len s)
  | .write addr len =>
    (areas.any fun a => a.writes && areaHolds a addr len) &&
      !(unitsWithin addr len (writableUnits unit live late s)).isEmpty &&
      (!live || sourcesRead addr len s) &&
      (!(live && decide (s.comp.state = .closing)) || closingOrder late addr len s.comp.todo)

/-- The bytes an engine burst moved lie within the DRAM (R131). -/
def moveInDram : EngineMove → Bool
  | .read addr len | .write addr len => decide (addr + len ≤ dramBytes)

end Sys2Proof.Machine
end

