-- ==== Sys2Proof/Machine/SelfTests.lean ====
section
/-! DEFINITION. Tests 3 to 6 of self-test (R180): the flags set, read and cleared, and the vectors of the integrator, the
SAD unit and the blend unit run through the operations that those units use. -/

namespace Sys2Proof.Machine

/-- What a unit under test gives where `right` is what its rules give: a faulty unit gives something else. Faults of the
units are not the block's to decide, and the outcome of SELFTEST_COMPLETE names the test that meets one (log entry 30). -/
def unitGives {α : Type} (faulty : Bool) (right : α) : Option α := if faulty then none else some right

/-- The results of a test differ from what they are compared with (R180). -/
def testDiffers {α : Type} [DecidableEq α] (faulty : Bool) (right stored : α) : Bool :=
  decide (unitGives faulty right ≠ some stored)

/-! ## Test 3: the flags -/

/-- The number of coverage flags (R180): 8 bands of 16,384 stored columns. -/
@[irreducible] def coverageFlags : Nat := 131072

/-- The number of preview computed-flags (R180). -/
@[irreducible] def computedFlags : Nat := 2048

/-- Every coverage flag and every computed-flag set. -/
def setAllFlags (store : CanvasStore) : CanvasStore :=
  { store with coverage := List.range coverageFlags, computed := List.range computedFlags }

/-- Every flag cleared. -/
def clearAllFlags (store : CanvasStore) : CanvasStore := { store with coverage := [], computed := [] }

/-- Every flag reads as `value`. -/
def flagsRead (value : Bool) (store : CanvasStore) : Bool :=
  ((List.range coverageFlags).all fun i => flagSet store.coverage i == value) &&
    (List.range computedFlags).all fun j => flagSet store.computed j == value

/-- Test 3 fails: a flag reads back different after the setting or after the clearing. -/
def flagTestFails (faulty : Bool) (store : CanvasStore) : Bool :=
  testDiffers faulty (flagsRead true (setAllFlags store), flagsRead false (clearAllFlags (setAllFlags store)))
    (true, true)

/-! ## Test 4: the integrator -/

/-- The integrator at the start of a vector: zero, with a sample already taken. -/
def vectorStart : Integrator := { Integrator.zero with started := true }

/-- The configuration that a vector's steps are integrated under: its FSR and its sample period. -/
def vectorConfig (v : IntegratorVector) : Configuration :=
  { Configuration.default with fsr := v.fsr, prescale := v.prescale, sampleCount := v.sampleCount }

/-- One step of a vector: its rate codes, from which no bias is taken, over its Δt (R34 to R36). -/
def vectorStep (cfg : Configuration) (i : Integrator) (step : BitVec 16 × BitVec 16 × Nat) : Integrator :=
  integrate cfg i (i.lastTime + BitVec.ofNat 32 step.2.2) (integratorRate step.1.toInt 0)
    (integratorRate step.2.1.toInt 0)

/-- The angles and residuals of both axes after each step of a vector. -/
def integratorRun (cfg : Configuration) :
    Integrator → List (BitVec 16 × BitVec 16 × Nat) → List (AxisIntegral × AxisIntegral)
  | _, [] => []
  | i, step :: rest =>
    let after := vectorStep cfg i step
    (after.yaw, after.pitch) :: integratorRun cfg after rest

/-- The angles and residuals that test 4 compares. -/
def integratorResults : List (List (AxisIntegral × AxisIntegral)) :=
  Config.integratorVectors.map fun v => integratorRun (vectorConfig v) vectorStart v.steps

/-! ## Test 5: the SAD unit -/

/-- The SADs of a vector's patch at every offset that its window has room for (R97). -/
def vectorScores (v : PatchVector) : List ((Int × Int) × Nat) :=
  ((symmetricRange v.rangeY).flatMap fun dy => (symmetricRange v.rangeX).map fun dx => (dx, dy)).map fun o =>
    (o, blockSad v.patch fun r c => (v.window.getD ((v.rangeY + o.2).toNat + r) []).getD ((v.rangeX + o.1).toNat + c) 0)

/-- What test 5 compares of a vector: the patch's energy (R88), the SADs and the best position (R97), and the confidence
(R98). -/
structure PatchResult where
  energy : Nat
  sads : List ((Int × Int) × Nat)
  best : Option ((Int × Int) × Nat)
  confident : Bool
  deriving DecidableEq, Repr

/-- The result of a vector of test 5. -/
def patchResult (v : PatchVector) : PatchResult where
  energy := textureEnergy v.patch
  sads := vectorScores v
  best := bestOffset (vectorScores v)
  confident :=
    match bestOffset (vectorScores v) with
    | some best =>
      confident { Configuration.default with sadLimit := v.sadLimit, sadMargin := v.sadMargin } (vectorScores v) best
    | none => false

/-! ## Test 6: the blend unit -/

/-- The blend and the reverse blend of a set, luma and chroma (R116, R117). -/
def blendResult (b : Nat) (set : Nat × Nat × Nat) : List Nat :=
  let z := set.2.2
  [blendValue b z set.1 set.2.1, blendValue b (z - z % 2) set.1 set.2.1,
    reverseValue b z set.1 set.2.1, reverseValue b (z - z % 2) set.1 set.2.1]

/-- The outputs that test 6 compares: the blends for each B that R170 admits, and the preview averages (R122). -/
def blendResults : List (List (List Nat)) × List (Nat × Nat) :=
  (([8, 16, 32, 64] : List Nat).map fun b => (Config.blendVectors b).map (blendResult b),
    Config.previewVectors.map fun block => (previewAverage 64 block.1, previewAverage 32 block.2))

/-! ## The sequence -/

/-- A test of 3 to 6 fails (R180). The stored answers are what the rules give. DEDUCED (log entry 30): of other answers the
tests of a sound part would fail. -/
def unitTestFails (faulty : Bool) (store : CanvasStore) : Nat → Bool
  | 3 => flagTestFails faulty store
  | 4 => testDiffers faulty integratorResults integratorResults
  | 5 => testDiffers faulty (Config.patchVectors.map patchResult) (Config.patchVectors.map patchResult)
  | 6 => testDiffers faulty blendResults blendResults
  | _ => false

/-- The verdict of tests 3 to 6 run in order: the number of the first that fails, or 0 (R179). `fault` is the test
whose unit is faulty, if any. -/
def unitVerdict (fault : Nat) (store : CanvasStore) : Nat :=
  match ([3, 4, 5, 6] : List Nat).find? fun n => unitTestFails (decide (fault = n)) store n with
  | some n => n
  | none => 0

end Sys2Proof.Machine
end

