-- ==== Sys2Proof/Machine/StartUp.lean ====
section
/-! DEFINITION. Start-up and the end of self-test: POWER_ON, RESETN_ASSERT, RESETN_RELEASE, DRAM_INITIALISED and
SELFTEST_COMPLETE (9.6, 9.7). -/

namespace Sys2Proof.Machine

/-- What a command of the block answers. -/
abbrev Answer := Host.Outcome State Fault Refusal

/-- The frame on the port across a reset: FV's level stays, and a frame in progress is ignored to its FV fall (R46,
R64, log entry 19). -/
def resetPort : PortFrame → PortFrame
  | .low => .low
  | .ignored | .header _ | .filling _ _ _ => .ignored

/-- A request line across a reset: a message in progress is ignored when its last bit arrives (R148, log entry 24). -/
def resetLine : RequestLine → RequestLine
  | .idle => .idle
  | .shifting | .ignored => .ignored

/-- Every block at its power-on values, the time base at 0, the state INIT (R177, R164, R147). The levels of RESETn, of FV
and of the request lines are the outside's; the DRAM keeps its words until INIT has written them (R132). -/
def powerOnState (s : State) : State :=
  { State.reset with
    inReset := s.inReset
    ingest := { Ingest.reset with port := resetPort s.ingest.port }
    store := { CanvasStore.reset with
      mem := s.store.mem, singleFlaws := s.store.singleFlaws, multiFlaws := s.store.multiFlaws }
    fetch := { FetchPort.reset with
      p0 := { PortSide.reset with line := resetLine s.fetch.p0.line }
      p1 := { PortSide.reset with line := resetLine s.fetch.p1.line } }
    freeIndex := s.freeIndex
    pending := s.pending }

/-- POWER_ON (R177): start-up begins, or, while RESETn is low, every block is held at its power-on values until it
rises. -/
def execPowerOn (s : State) : Answer := .next (powerOnState s)

/-- RESETN_ASSERT (R177, R166): every block is held at its power-on values. -/
def execResetnAssert (s : State) : Answer := .next { powerOnState s with inReset := true }

/-- RESETN_RELEASE (R177): start-up begins. -/
def execResetnRelease (s : State) : Answer := .next (if s.inReset then { powerOnState s with inReset := false } else s)

/-- The tests begin: the result is RUNNING and the memory tests' bursts start at test 1 (R179, R180). -/
def startTests (s : State) : State := { s with selfTest := ⟨.running, some ⟨1, 0, 0, none⟩⟩ }

/-- The reply of a command that completes later: it fills the reply slot and the command slot empties (R167). -/
def finishCommand (payload : List Byte) (s : State) : State :=
  match s.ctl.command with
  | some (kind, tag) =>
    { s with ctl := { s.ctl with command := none, reply := some ⟨tag, kind, .done, 0, payload⟩ } }
  | none => s

/-- DRAM_INITIALISED (R132, R177, R178): every byte of the areas is 0 with valid check data, the TEST strap is sampled,
and a RESET that is executing is answered DONE. -/
def execDramInitialised (strap : Bool) (s : State) : Answer :=
  .next
    (if s.sweep.state = .init ∧ s.inReset = false then
      let s1 := finishCommand [] { s with store := { s.store with mem := [], singleFlaws := [], multiFlaws := [] } }
      if strap then
        settle false false (startTests { s1 with sweep := { s1.sweep with state := .test } })
      else { s1 with sweep := { s1.sweep with state := .idle } }
    else s)

/-- A burst of the self-test client waits or is in progress. -/
def selfOutstanding (a : Arbiter) : Bool :=
  a.selfWait.isSome ||
    match a.inProgress with
    | some (.selfTest _ _) => true
    | _ => false

/-- The tests end with this outcome where the run stands (R179, R180): a memory test that has failed, because the first
failed test ends the sequence; with the bursts of both memory tests behind and none failed, the verdict of tests 3 to
6, run in order with the fault, if any, that the outcome tells of (log entry 30). -/
def outcomeAllowed (s : State) (r : SelfRun) (outcome : Nat) : Bool :=
  match r.failed with
  | some test => decide (outcome = test)
  | none => decide (3 ≤ r.test) && !selfOutstanding s.arb && decide (outcome = unitVerdict outcome s.store)

/-- The self-test client has nothing more to ask, and a burst of it in progress is dropped. -/
def dropSelf (s : State) : State :=
  { s with arb := { s.arb with
      selfWait := none
      inProgress := match s.arb.inProgress with
        | some (.selfTest b _) => some (.selfTest b false)
        | other => other } }

/-- A test ran in a sequence that ended with this outcome: it was not behind the first failed test (R179). -/
def testRan (test outcome : Nat) : Bool := decide (outcome = 0 ∨ test ≤ outcome)

/-- What the tests leave behind (R180): test 3 the flags as it clears them, test 4 the integrator zero and the pose ring
empty, test 5 the patch tables empty, test 6 nothing. -/
def testTraces (outcome : Nat) (s : State) : State :=
  { s with
    store := if testRan 3 outcome then clearAllFlags (setAllFlags s.store) else s.store
    motion := if testRan 4 outcome then { s.motion with integ := Integrator.zero, ring := [] } else s.motion
    reg := if testRan 5 outcome then { s.reg with lead := [], opening := [] } else s.reg }

/-- The tests end with an outcome: what the tests leave, the result, FAULT on a failure, the flags cleared, the state
IDLE, and the reply of a SELFTEST command (R179, R180, R136, R141). -/
def endTests (outcome : Nat) (s : State) : State :=
  let s1 := testTraces outcome (dropSelf s)
  let s2 := if outcome = 0 then s1 else raiseCause .fault s1
  finishCommand (natBytes 1 outcome)
    { s2 with
      sweep := { s2.sweep with state := .idle }
      store := { s2.store with coverage := [], computed := [] }
      selfTest := ⟨if outcome = 0 then .passed else .failed outcome, none⟩ }

/-- SELFTEST_COMPLETE (R179). -/
def execSelftestComplete (outcome : Nat) (s : State) : Answer :=
  .next
    (match s.sweep.state, s.selfTest.run with
    | .test, some r => if outcomeAllowed s r outcome then settle false false (endTests outcome s) else s
    | _, _ => s)

end Sys2Proof.Machine
end

