-- ==== Sys2Proof/Machine/Commands.lean ====
section
/-! DEFINITION. The control link's rows: the eleven commands, an unknown one, a discarded one, the reply transaction and
the start of a transaction (chapter 9). -/

namespace Sys2Proof.Machine

/-! ## Taking a command (R166, R167, R169, R183) -/

/-- What a command that has passed the length and state checks brings: the state, the result with its detail, and the
payload of the reply (R169, R183). -/
structure Ran where
  state : State
  result : CommandResult
  detail : Nat
  payload : List Byte
  deriving DecidableEq, Repr

/-- A command that runs with result DONE and no payload. -/
def ranDone (s : State) : Ran := ⟨s, .done, 0, []⟩

/-- A transaction ends without a command being taken, a poll or a discarded command (R166, R167). -/
def endTransaction (poll : Bool) (s : State) : State := { s with ctl := { s.ctl with latched := none, polled := poll } }

/-- A reply fills the reply slot; one unread is dropped (R167). -/
def reply (kind tag : Byte) (ran : Ran) : State :=
  { ran.state with ctl := { ran.state.ctl with
      command := none, reply := some ⟨tag, kind, ran.result, ran.detail, ran.payload⟩ } }

/-- A taken command: an unread reply is dropped and the command slot holds the command (R167 steps 1 and 2). -/
def takeSlot (kind tag : Byte) (s : State) : State :=
  { s with ctl := { s.ctl with latched := none, command := some (kind, tag), reply := none, polled := false } }

/-- The transaction under way began with a link status in which its command is taken (R167). -/
def commandTaken (s : State) : Bool :=
  match s.ctl.latched with
  | some .noReply | some .replyReady => true
  | some .executing | none => false

/-- The checks 2 and 3 of R169 on a taken command, by its payload length and the sweep state; the command has no effect
if one fails. -/
def refusedBy (length : Nat) (takenIn : SweepState → Bool) (payload : List Byte) (s : State) : Option CommandResult :=
  if payload.length ≠ length then some .length else if takenIn s.sweep.state then none else some .state

/-- A command transaction ends (R166, R167, R169): taken, checked, run by `body` and answered. Without a transaction
under way nothing happens; one that began with EXECUTING is discarded. -/
def runCommand (kind tag : Byte) (length : Nat) (takenIn : SweepState → Bool) (payload : List Byte)
    (body : State → Ran) (s : State) : State :=
  if commandTaken s then
    let s1 := takeSlot kind tag s
    match refusedBy length takenIn payload s with
    | some result => reply kind tag ⟨s1, result, 0, []⟩
    | none => reply kind tag (body s1)
  else endTransaction false s

/-- The states IDLE and DONE. -/
def idleOrDone : SweepState → Bool
  | .idle | .done => true
  | .init | .test | .armed | .opened | .draining => false

/-- Every state. -/
def everyState (_ : SweepState) : Bool := true

/-! ## CONFIGURE (R170, R171) -/

/-- CONFIGURE's effect: RANGE with the first refused field, or the clamped record in force. -/
def configureBody (payload : List Byte) (s : State) : Ran :=
  let raw := parseConfiguration payload
  match firstRefused raw with
  | some field => ⟨s, .range, field, []⟩
  | none =>
    let cfg := clampConfiguration raw.values
    let changed := changedFields raw.values cfg
    ⟨{ s with config := cfg }, if changed = 0 then .done else .clamped, changed, []⟩

/-- CONFIGURE (R170, R171). -/
def execConfigure (tag : Byte) (payload : List Byte) (s : State) : Answer :=
  .next (runCommand 1 tag 64 idleOrDone payload (configureBody payload) s)

/-! ## ARM (R3) -/

/-- The slots, the queue, the line buffer and the marks at ARM (R65, log entry 17). -/
def armIngest (i : Ingest) : Ingest where
  port := resetPort i.port
  slots := i.slots.map fun slot => { slot with state := .free }
  queue := []
  lines := []
  seqRef := none
  openingAssigned := false

/-- ARM's effect on every block (R3, R23, R45, R65, R86, R92, R107, R136, R138, R141, R147, R163). The configuration in
force is the sweep's from here on. -/
def armSweep (s : State) : State :=
  let s1 := compositorStop (engineHalt s)
  discardFetch
    { freeLines s1 with
      sweepCfg := s1.config
      sweep := { SweepControl.reset with state := .armed }
      motion := armMotion s1.config s1.timeBase s1.motion
      ingest := armIngest s1.ingest
      place := Placement.reset
      reg := Registration.reset
      comp := Compositor.initial s1.config
      store := { s1.store with coverage := [], computed := [], fill := s1.config.fill } }

/-- ARM (R3). -/
def execArm (tag : Byte) (payload : List Byte) (s : State) : Answer :=
  .next (runCommand 2 tag 0 idleOrDone payload (fun t => ranDone (settle false false (armSweep t))) s)

/-! ## START, STOP and ABORT -/

/-- START (R4). -/
def execStart (tag : Byte) (payload : List Byte) (s : State) : Answer :=
  .next
    (runCommand 3 tag 0 (fun st => decide (st = .armed)) payload
      (fun t => ranDone { t with sweep := { t.sweep with openPending := true } }) s)

/-- The states that take STOP (R7). -/
def takesStop : SweepState → Bool
  | .armed | .opened | .draining => true
  | .init | .test | .idle | .done => false

/-- STOP's effect by state (R7). -/
def stopSweep (s : State) : State :=
  match s.sweep.state with
  | .armed =>
    { s with
      sweep := { s.sweep with state := .idle, openPending := false }
      motion := stopMotion s.motion }
  | .opened => drainTest (beginDraining .stopped s)
  | .init | .test | .idle | .draining | .done => s

/-- STOP (R7). -/
def execStop (tag : Byte) (payload : List Byte) (s : State) : Answer :=
  .next (runCommand 4 tag 0 takesStop payload (fun t => ranDone (settle false false (stopSweep t))) s)

/-- ABORT's effect by state (R17). -/
def abortBody (s : State) : State :=
  match s.sweep.state with
  | .armed | .opened | .draining | .done => abortSweep s
  | .init | .test | .idle => s

/-- ABORT (R17). -/
def execAbort (tag : Byte) (payload : List Byte) (s : State) : Answer :=
  .next (runCommand 5 tag 0 everyState payload (fun t => ranDone (settle false false (abortBody t))) s)

/-! ## QUERY and the attention commands -/

/-- QUERY (R172). -/
def execQuery (tag : Byte) (payload : List Byte) (s : State) : Answer :=
  .next (runCommand 6 tag 0 everyState payload (fun t => ⟨t, .done, 0, statusSnapshot t⟩) s)

/-- READ_ATTENTION (R174). -/
def execReadAttention (tag : Byte) (payload : List Byte) (s : State) : Answer :=
  .next (runCommand 7 tag 0 everyState payload (fun t => ⟨t, .done, 0, natBytes 1 (attentionAnswer t.attn)⟩) s)

/-- ACK_ATTENTION's effect (R175): MOTION_LOST, code 3, is a level cause whose condition is that the link is LOST. -/
def acknowledge (code : Nat) (s : State) : Ran :=
  if code < 1 ∨ 7 < code then ⟨s, .range, 1, []⟩
  else if s.attn.pendingSet &&& causeMark code = 0 then ranDone s
  else if code = causeCode .motionLost ∧ s.motion.link = .lost then ⟨s, .stillActive, 0, []⟩
  else ranDone { s with attn := { s.attn with pendingSet := s.attn.pendingSet &&& ~~~(causeMark code) } }

/-- ACK_ATTENTION (R175). -/
def execAckAttention (tag : Byte) (payload : List Byte) (s : State) : Answer :=
  .next (runCommand 8 tag 1 everyState payload (acknowledge (bytesNat payload 0 1)) s)

/-- SET_ATTENTION (R176): bit c−1 of the payload byte enables the cause with code c; bit 7 is not read (R183). -/
def execSetAttention (tag : Byte) (payload : List Byte) (s : State) : Answer :=
  .next
    (runCommand 9 tag 1 (fun st => decide (st ≠ .init)) payload
      (fun t => ranDone { t with attn := { t.attn with enableSet := (payload.getD 0 0).setWidth 7 } }) s)

/-! ## SELFTEST and RESET, which complete later (R167) -/

/-- SELFTEST's effect (R19, R45, R65, R86, R92, R130, R163, R179): the canvas is discarded, the line buffer is free, the
blocks take their values and the tests begin. -/
def beginSelftest (s : State) : State :=
  let s1 := freeLines (compositorStop (engineHalt s))
  startTests
    (discardFetch
      { s1 with
        sweep := { s1.sweep with state := .test }
        motion := selfTestMotion s1.motion
        reg := Registration.reset })

/-- SELFTEST (R179): the link stays EXECUTING until the tests end. -/
def execSelftest (tag : Byte) (payload : List Byte) (s : State) : Answer :=
  .next
    (if commandTaken s then
      match refusedBy 0 idleOrDone payload s with
      | some result => reply 10 tag ⟨takeSlot 10 tag s, result, 0, []⟩
      | none => settle false false (beginSelftest (takeSlot 10 tag s))
    else endTransaction false s)

/-- RESET's effect (R178): power-on, but the command slot keeps the RESET and its tag. -/
def resetState (tag : Byte) (s : State) : State :=
  { powerOnState s with ctl := { ControlLink.reset with command := some (11, tag), cso := s.ctl.cso } }

/-- RESET (R178): the link stays EXECUTING until the end of INIT. -/
def execReset (tag : Byte) (payload : List Byte) (s : State) : Answer :=
  .next
    (if commandTaken s then
      match refusedBy 0 everyState payload s with
      | some result => reply 11 tag ⟨takeSlot 11 tag s, result, 0, []⟩
      | none => resetState tag s
    else endTransaction false s)

/-! ## The other transactions -/

/-- A command kind is none of the eleven (R183). -/
def unknownKind (kind : Byte) : Bool := decide (kind = 0 ∨ 12 ≤ kind.toNat)

/-- UNKNOWN_COMMAND (R169 check 1): taken and answered UNKNOWN, whatever its payload. -/
def execUnknownCommand (kind tag : Byte) (_payload : List Byte) (s : State) : Answer :=
  .next
    (if unknownKind kind then
      if commandTaken s then reply kind tag ⟨takeSlot kind tag s, .unknown, 0, []⟩
      else endTransaction false s
    else s)

/-- COMMAND_DISCARDED (R167): a command transaction that began with EXECUTING ends; nothing is taken. -/
def execCommandDiscarded (s : State) : Answer :=
  .next (if s.ctl.latched = some .executing then endTransaction false s else s)

/-- The bytes of the reply that a reply transaction shifts out after the link status (R168): of one that began with
REPLY_READY as many as it clocked; what follows them is 0. -/
def servedBytes (l : ControlLink) (clocked : Nat) : List Byte :=
  match l.latched, l.reply with
  | some .replyReady, some r => (replyBytes r).take clocked
  | _, _ => []

/-- REPLY_TRANSACTION (R168): one that began with REPLY_READY empties the reply slot, however much of the reply was
clocked. A transaction of one byte or less is a poll (R166). -/
def execReplyTransaction (clocked : Nat) (s : State) : Answer :=
  .next
    (match s.ctl.latched with
    | none => s
    | some status =>
      if clocked = 0 then endTransaction true s
      else
        { s with ctl := { s.ctl with
            latched := none
            cso := s.ctl.cso ++ servedBytes s.ctl clocked
            polled := false
            reply := if status = .replyReady then none else s.ctl.reply } })

/-- The row that a command transaction ends with, by its kind byte (R169, R183). -/
def commandRow (kind tag : Byte) (payload : List Byte) : Instr :=
  match kind.toNat with
  | 1 => .configure tag payload
  | 2 => .arm tag payload
  | 3 => .start tag payload
  | 4 => .stop tag payload
  | 5 => .abort tag payload
  | 6 => .query tag payload
  | 7 => .readAttention tag payload
  | 8 => .ackAttention tag payload
  | 9 => .setAttention tag payload
  | 10 => .selftest tag payload
  | 11 => .reset tag payload
  | _ => .unknownCommand kind tag payload

/-- The row that a transaction ends with, from the link status latched at its start and the bytes that came in on CSI
(R166, R167, R183): of one byte or less it is a poll; byte 0 is 1 for COMMAND, 2 for REPLY, anything else for a poll; a
command that ended after byte 1 has tag 0 and no payload, and one that began with EXECUTING is discarded. A poll is a
reply transaction that clocks nothing (log entry 4). -/
def transactionRow (status : LinkStatus) : List Byte → Instr
  | first :: kind :: rest =>
    if first = 1 then
      if status = .executing then .commandDiscarded
      else commandRow kind (rest.getD 0 0) (rest.drop 1)
    else if first = 2 then .replyTransaction (rest.length + 1)
    else .replyTransaction 0
  | [_] | [] => .replyTransaction 0

/-- TRANSACTION_START (R166): the link status is latched and shifted out as the first byte. While RESETn is low the
link takes no transaction. -/
def execTransactionStart (s : State) : Answer :=
  .next
    (if s.inReset then s
    else
      { s with ctl := { s.ctl with
          latched := some (linkStatus s.ctl)
          cso := natBytes 1 (linkStatusCode (linkStatus s.ctl))
          polled := false } })

end Sys2Proof.Machine
end

