-- ==== Sys2Proof/Machine/EngineEvents.lean ====
section
/-! DEFINITION. The rows of the engine: SEARCH_COMPLETE, STRIP_WRITES_COMPLETE, HARVEST_COMPLETE,
PREVIEW_UPDATE_COMPLETE and CLOSING_WORK_COMPLETE (chapters 5 and 6). -/

namespace Sys2Proof.Machine

/-- SEARCH_COMPLETE (R101). -/
def execSearchComplete (s : State) : Answer := .next (settle false false (completeSearch s))

/-- STRIP_WRITES_COMPLETE (R119). -/
def execStripWritesComplete (s : State) : Answer := .next (settle false false (completeWrites s))

/-- HARVEST_COMPLETE (R89, R119, R120). -/
def execHarvestComplete (s : State) : Answer := .next (settle false false (completeHarvest s))

/-- PREVIEW_UPDATE_COMPLETE (R122). -/
def execPreviewUpdateComplete (s : State) : Answer := .next (settle false false (completeUpdate s))

/-- CLOSING_WORK_COMPLETE (R123, R16). -/
def execClosingWorkComplete (s : State) : Answer := .next (settle false false (completeClosing s))

end Sys2Proof.Machine
end

