-- ==== Sys2Proof/Machine/FetchEvents.lean ====
section
/-! DEFINITION. The rows of the fetch port: REQUEST_MESSAGE_START, FETCH_REQUEST, FETCH_ABANDON, RETURN_BURST_COMPLETE and
FETCH_WAIT_EXPIRY (chapter 8). -/

namespace Sys2Proof.Machine

/-- REQUEST_MESSAGE_START (R148, R184): a message that begins during INIT, or while RESETn is low, will be ignored. -/
def execRequestMessageStart (r : Requester) (s : State) : Answer :=
  .next
    (match (sideOf s.fetch r).line with
    | .idle =>
      setSide r
        { sideOf s.fetch r with line := if s.inReset ∨ s.sweep.state = .init then .ignored else .shifting } s
    | .shifting | .ignored => s)

/-- FETCH_REQUEST (R148, R150): a message with active 1 arrives. DESIGN CHOICE (log entry 3), safe: the start bit, bit 39
of the operand, is not looked at; it is 1 in every message that R184 lets begin. -/
def execFetchRequest (r : Requester) (message : BitVec 40) (s : State) : Answer :=
  .next (if requestActive message then settle false false (messageArrives r message s) else s)

/-- FETCH_ABANDON (R148, R152): a message with active 0 arrives. DESIGN CHOICE (log entry 3), safe: the start bit is not
looked at, as for FETCH_REQUEST. -/
def execFetchAbandon (r : Requester) (message : BitVec 40) (s : State) : Answer :=
  .next (if requestActive message then s else settle false false (messageArrives r message s))

/-- RETURN_BURST_COMPLETE (R161, R162). DESIGN CHOICE (log entry 36), unsafe: what the completion prepares for its own
requester at once, a copied STRIPS or GUIDE burst or a header, counts as posted at this completion's choice of the bus. -/
def execReturnBurstComplete (s : State) : Answer :=
  .next (if s.fetch.bus.isSome then settle true false (completeBus s) else s)

/-- FETCH_WAIT_EXPIRY (R160). -/
def execFetchWaitExpiry (s : State) : Answer := .next (settle false false (expireStall s))

end Sys2Proof.Machine
end

