-- ==== Sys2Proof/Machine/IngestEvents.lean ====
section
/-! DEFINITION. The rows of the pixel input port: FRAME_START, HEADER_ARRIVAL, PIXEL_LINE_START, LINE_TOO_LONG,
PIXEL_LINE_CLOSE and FRAME_END (chapter 3). -/

namespace Sys2Proof.Machine

/-- The frame on the port. -/
def setPort (port : PortFrame) (s : State) : State := { s with ingest := { s.ingest with port := port } }

/-- FRAME_START (R46, R48): FV rises. A frame that rises in INIT or TEST, or while RESETn is low, is ignored. -/
def execFrameStart (s : State) : Answer :=
  .next
    (match s.ingest.port with
    | .low =>
      if s.inReset ∨ s.sweep.state = .init ∨ s.sweep.state = .test then setPort .ignored s
      else setPort (.header s.timeBase) s
    | .ignored | .header _ | .filling _ _ _ => s)

/-! ## Admission (R49 to R52, R55) -/

/-- Step 2 of R49: the sequence gap is counted and the header's number becomes the reference (R50). -/
def checkSequence (header : Header) (s : State) : State :=
  let gap := match s.ingest.seqRef with
    | some reference => (header.seq - reference - 1).toNat
    | none => 0
  { s with
    ingest := { s.ingest with seqRef := some header.seq }
    sweep := { s.sweep with counters := { s.sweep.counters with
      skipped := holdCount (s.sweep.counters.skipped + gap) } } }

/-- A header is counted as received (R49 step 1). -/
def countReceived (s : State) : State :=
  { s with sweep := { s.sweep with counters := { s.sweep.counters with
      received := holdCount (s.sweep.counters.received + 1) } } }

/-- An admitted header is rejected: no slot, and the frame is ignored (R51). -/
def rejectFrame (s : State) : State :=
  setPort .ignored
    { s with sweep := { s.sweep with counters := { s.sweep.counters with
        rejected := holdCount (s.sweep.counters.rejected + 1) } } }

/-- An admitted header finds no FREE slot: counted, DROP raised, the frame ignored (R52). -/
def dropFrame (s : State) : State :=
  raiseCause .drop
    (setPort .ignored
      { s with sweep := { s.sweep with counters := { s.sweep.counters with
          dropped := holdCount (s.sweep.counters.dropped + 1) } } })

/-- The slot record of a header (R55). -/
def headerRecord (header : Header) (tSof : Time) : SlotRecord :=
  ⟨header.seq, tSof, header.exposure, header.rowPeriod, header.guideMark, false, 0⟩

/-- A header takes a slot, which becomes FILLING (R49 step 6, R55). -/
def fillSlot (slot : Nat) (header : Header) (tSof : Time) (s : State) : State :=
  setPort (.filling slot 0 false)
    { s with ingest := { s.ingest with
        slots := s.ingest.slots.modify slot fun _ => ⟨.filling, headerRecord header tSof⟩ } }

/-- The header's width and height are the sweep's (R51). -/
def geometryFits (cfg : Configuration) (header : Header) : Bool :=
  decide (header.width = cfg.frameWidth ∧ header.height = cfg.frameHeight)

/-- Steps 4 to 6 of R49. -/
def placeHeader (header : Header) (tSof : Time) (s : State) : State :=
  if geometryFits s.sweepCfg header then
    match firstSlot s.ingest.slots .free with
    | some slot => fillSlot slot header tSof s
    | none => dropFrame s
  else rejectFrame s

/-- Step 3 of R49: the STOP mark makes the state DRAINING (R10). -/
def readStopMark (header : Header) (s : State) : State :=
  if header.stopMark then beginDraining .stopped s else s

/-- Admission of a header in OPEN, one event (R49); `none` is a short header. After a STOP mark the drain-completion
test runs (R15, log entry 25). -/
def admitHeader (header : Option Header) (tSof : Time) (s : State) : State :=
  match header with
  | none => rejectFrame (countReceived s)
  | some h => drainTest (placeHeader h tSof (readStopMark h (checkSequence h (countReceived s))))

/-- A header is eligible to open the sweep (R5). -/
def opens (header : Option Header) (openPending : Bool) : Bool :=
  match header with
  | none => false
  | some h => !h.guideMark && (h.startMark || openPending)

/-- HEADER_ARRIVAL (R48). -/
def execHeaderArrival (words : List Half) (s : State) : Answer :=
  .next
    (match s.ingest.port with
    | .header tSof =>
      match s.sweep.state with
      | .opened => settle false false (admitHeader (parseHeader words) tSof s)
      | .armed =>
        if opens (parseHeader words) s.sweep.openPending then
          settle false false (admitHeader (parseHeader words) tSof (openSweep tSof s))
        else setPort .ignored s
      | .init | .test | .idle | .draining | .done => setPort .ignored s
    | .low | .ignored | .filling _ _ _ => s)

/-! ## Lines (R56 to R59) -/

/-- A FILLING frame is truncated (R58): the slot is FREE and counted, DROP is raised and the lines of its slot are dropped
(log entry 18); in DRAINING the drain-completion test runs (R60). `port` is what is left of the frame on the port. -/
def truncateFrame (slot : Nat) (port : PortFrame) (s : State) : State :=
  drainTest (setPort port (dropLines slot (raiseCause .drop (freeSlot slot .truncated s))))

/-- PIXEL_LINE_START (R56, R59): the line takes a free entry, or overruns the line buffer. -/
def execPixelLineStart (s : State) : Answer :=
  .next
    (match s.ingest.port with
    | .filling slot line false =>
      if 2 ≤ s.ingest.lines.length then settle false false (truncateFrame slot .ignored s)
      else setPort (.filling slot line true) s
    | .low | .ignored | .header _ | .filling _ _ true => s)

/-- LINE_TOO_LONG (R58). -/
def execLineTooLong (s : State) : Answer :=
  .next
    (match s.ingest.port with
    | .filling slot _ true => settle false false (truncateFrame slot .ignored s)
    | .low | .ignored | .header _ | .filling _ _ false => s)

/-- A closed line of the right length waits in its entry (R56). -/
def bufferLine (slot line : Nat) (words : List Half) (s : State) : State :=
  { s with ingest := { s.ingest with lines := s.ingest.lines ++ [⟨slot, line, words, 0⟩] } }

/-- The frame takes the opening mark if the sweep has no opening frame yet and it carries no GUIDE mark (R57). -/
def takesOpening (s : State) (slot : Nat) : Bool :=
  !s.ingest.openingAssigned && !(slotInfo s.ingest.slots slot).guide

/-- A FILLING frame completes (R57): QUEUED at the tail of the queue, with the opening mark if it is due. -/
def completeFrame (slot : Nat) (s : State) : State :=
  let opening := takesOpening s slot
  setPort .ignored
    { s with ingest := { s.ingest with
        slots := (moveSlot s.ingest.slots slot .queued).modify slot fun x =>
          { x with info := { x.info with opening := opening } }
        queue := s.ingest.queue ++ [slot]
        openingAssigned := s.ingest.openingAssigned || opening } }

/-- PIXEL_LINE_CLOSE (R56 to R58): a line of the wrong length truncates the frame (log entry 20 for one too long); the
last line completes it, and the engine takes it if it is free (R66). -/
def execPixelLineClose (words : List Half) (s : State) : Answer :=
  .next
    (match s.ingest.port with
    | .filling slot line true =>
      if words.length ≠ s.sweepCfg.frameWidth then settle false false (truncateFrame slot .ignored s)
      else if line + 1 < s.sweepCfg.frameHeight then
        settle false false (setPort (.filling slot (line + 1) false) (bufferLine slot line words s))
      else settle false false (engineGo takeFuel (completeFrame slot (bufferLine slot line words s)))
    | .low | .ignored | .header _ | .filling _ _ false => s)

/-- FRAME_END (R58): FV falls; a frame still FILLING is truncated. -/
def execFrameEnd (s : State) : Answer :=
  .next
    (match s.ingest.port with
    | .filling slot _ _ => settle false false (truncateFrame slot .low s)
    | .low | .ignored | .header _ => setPort .low s)

end Sys2Proof.Machine
end

