-- ==== Sys2Proof/WellFormed.lean ====
section
/-! DEFINITION. Which operands a command can really have: the checks on the commands as syntax. -/

namespace Sys2Proof

/-- Bit 39 of a request message is its start bit and is 1, bit 38 is active (R184). -/
def messageStarts (message : BitVec 40) : Bool := message.getLsbD 39

/-- The active bit of a request message (R148, R184). -/
def messageActive (message : BitVec 40) : Bool := message.getLsbD 38

/-- A burst carries at most 64 bytes (R142), on even addresses because each pixel is two bytes. -/
def moveWellFormed : EngineMove → Bool
  | .read addr len => decide (1 ≤ len ∧ len ≤ 64 ∧ addr + len ≤ 67108864)
  | .write addr len => decide (1 ≤ len ∧ len ≤ 64 ∧ addr + len ≤ 67108864 ∧ addr % 2 = 0 ∧ len % 2 = 0)

/-- A burst of 64 bytes meets at most nine 8-byte words (R144). -/
def errorsWellFormed (e : MemErrors) : Bool :=
  decide (e.single.length ≤ 9 ∧ e.multi.length ≤ 9 ∧ e.differs.length ≤ 9)

/-- The commands whose operands the rules allow. -/
def wellFormed : Instr → Bool
  | .selftestComplete outcome => decide (outcome ≤ 6)
  | .unknownCommand kind _ _ => decide (kind = 0 ∨ 12 ≤ kind.toNat)
  | .headerArrival words => decide (words.length ≤ 16)
  | .memoryBurstComplete move errors => moveWellFormed move && errorsWellFormed errors
  | .fetchRequest _ message => messageStarts message && messageActive message
  | .fetchAbandon _ message => messageStarts message && !messageActive message
  | .powerOn | .resetnAssert | .resetnRelease | .dramInitialised _ | .configure _ _ | .arm _ _ | .start _ _
  | .stop _ _ | .abort _ _ | .query _ _ | .readAttention _ _ | .ackAttention _ _ | .setAttention _ _
  | .selftest _ _ | .reset _ _ | .commandDiscarded | .replyTransaction _ | .sweepTimeLimit | .endRequest _
  | .frameStart | .pixelLineStart | .lineTooLong | .pixelLineClose _ | .frameEnd | .sampleStrobe | .mdrdySeen
  | .goodSample _ | .sampleMissed | .motionWaitExpiry | .searchComplete | .stripWritesComplete | .harvestComplete
  | .previewUpdateComplete | .closingWorkComplete | .returnBurstComplete | .fetchWaitExpiry | .transactionStart
  | .requestMessageStart _ => true

end Sys2Proof
end

