-- ==== Sys2Proof/Machine/MemoryEvents.lean ====
section
/-! DEFINITION. The row of the memory arbiter: MEMORY_BURST_COMPLETE (chapter 7). -/

namespace Sys2Proof.Machine

/-- MEMORY_BURST_COMPLETE (R142, R144, R145, R146): the burst in progress completes, what follows from its data and its
errors happens, and the next waiting request is granted. The move is read for an engine burst alone; one beyond
the DRAM faults, and one that its operation cannot have made leaves the state as it is (R131, R142, log entry 5). -/
def execMemoryBurstComplete (move : EngineMove) (errors : MemErrors) (s : State) : Answer :=
  match s.arb.inProgress with
  | none => .next s
  | some (.engine unit live late areas) =>
    if moveInDram move then
      if moveWellFormed move && moveFits unit live late areas move s then
        .next (settle false true (completeBurst (.engine unit live late areas) move errors s))
      else .next s
    else .fault .outsideDram
  | some burst => .next (settle false true (completeBurst burst move errors s))

end Sys2Proof.Machine
end

