-- ==== Sys2Proof/Machine/MotionEvents.lean ====
section
/-! DEFINITION. The rows of the motion link and of the motion wait: SAMPLE_STROBE, MDRDY_SEEN, GOOD_SAMPLE,
SAMPLE_MISSED and MOTION_WAIT_EXPIRY (chapters 2 and 4). -/

namespace Sys2Proof.Machine

/-- The strobe's effects (R23, R24): the strobe time, the sample time and the data-ready window. -/
def strobe (s : State) : State :=
  let due := nextStrobe s.sweepCfg s.motion
  { s with
    timeBase := advanceTo due s.timeBase
    motion := { s.motion with
      strobes := s.motion.strobes + 1
      strobeTime := some due
      tx := .window due (due - BitVec.ofNat 32 s.sweepCfg.motionLatency) } }

/-- SAMPLE_STROBE (R24): while the sample clock runs and no transaction is open. -/
def execSampleStrobe (s : State) : Answer :=
  .next
    (if s.motion.clockRunning then
      match s.motion.tx with
      | .absent | .discarding _ => strobe s
      | .window _ _ | .reading _ _ => s
    else s)

/-- MDRDY_SEEN (R25): within the data-ready window, it closes and the read starts. -/
def execMdrdySeen (s : State) : Answer :=
  .next
    (match s.motion.tx with
    | .window strobeTime sample =>
      if ticksSince s.timeBase strobeTime ≤ windowTicks s.sweepCfg then
        { s with motion := { s.motion with tx := .reading sample s.timeBase } }
      else s
    | .absent | .reading _ _ | .discarding _ => s)

/-- The end of a read that started at `start` (R25). -/
def readDue (start : Time) : Time := start + BitVec.ofNat 32 readTicks

/-- A regain is reported: the motion-lost mark is cleared, and in OPEN or DRAINING with a strip in the table a re-anchor
is sent (R42, R74). -/
def regain (entry : PoseEntry) (s : State) : State :=
  let s1 := { s with place := { s.place with motionLost := false } }
  if (s1.sweep.state = .opened ∨ s1.sweep.state = .draining) ∧ s1.comp.strips ≠ [] then
    sendReanchor ⟨entry.time, entry.yaw⟩ s1
  else s1

/-- The motion unit takes a good sample: the windows, the integrator, the ring and the link counts (R29, R31, R34, R38,
R40). -/
def sampleMotion (sample : Time) (bytes : BitVec 48) (s : State) : Motion :=
  goodLink
    (takeSample s.sweepCfg sample bytes
      (estimate s.sweepCfg (decide (s.sweep.state = .armed)) bytes { s.motion with tx := .absent }))

/-- A good sample, whole: its entry is announced to a frame waiting for it (R39), after a regain if it brings one
(R42). -/
def goodSample (sample : Time) (bytes : BitVec 48) (s : State) : State :=
  let entry := poseEntry s.sweepCfg s.motion sample bytes
  let s1 := { s with motion := sampleMotion sample bytes s }
  let s2 := if regains s.motion then regain entry s1 else s1
  engineGo takeFuel (entryAnnounced s2)

/-- GOOD_SAMPLE (R25, R27): the read in flight ends. One whose clock has stopped is discarded. -/
def execGoodSample (bytes : BitVec 48) (s : State) : Answer :=
  .next
    (match s.motion.tx with
    | .reading sample start =>
      settle false false (goodSample sample bytes { s with timeBase := advanceTo (readDue start) s.timeBase })
    | .discarding start =>
      { s with timeBase := advanceTo (readDue start) s.timeBase, motion := { s.motion with tx := .absent } }
    | .absent | .window _ _ => s)

/-- The due time of the window's expiry (R24). -/
def missDue (cfg : Configuration) (strobeTime : Time) : Time := strobeTime + BitVec.ofNat 32 (windowTicks cfg)

/-- A loss: counted, MOTION_LOST raised and reported to the placement unit (R41). -/
def loseMotion (s : State) : State :=
  lossReported
    (raiseCause .motionLost
      { s with sweep := { s.sweep with counters := { s.sweep.counters with
          motionLosses := holdCount (s.sweep.counters.motionLosses + 1) } } })

/-- A sample is missed (R26, R40). -/
def missSample (s : State) : State :=
  let s1 := { s with
    motion := missLink { s.motion with tx := .absent }
    sweep := { s.sweep with counters := { s.sweep.counters with
      samplesMissed := holdCount (s.sweep.counters.samplesMissed + 1) } } }
  if loses s.motion then engineGo takeFuel (loseMotion s1) else s1

/-- SAMPLE_MISSED (R26): the data-ready window expires. -/
def execSampleMissed (s : State) : Answer :=
  .next
    (match s.motion.tx with
    | .window strobeTime _ =>
      settle false false (missSample { s with timeBase := advanceTo (missDue s.sweepCfg strobeTime) s.timeBase })
    | .absent | .reading _ _ | .discarding _ => s)

/-- MOTION_WAIT_EXPIRY (R72, R73). -/
def execMotionWaitExpiry (s : State) : Answer := .next (settle false false (engineGo takeFuel (expireWait s)))

end Sys2Proof.Machine
end

