-- ==== Sys2Proof/Machine/SweepEvents.lean ====
section
/-! DEFINITION. The sweep controller's own rows: SWEEP_TIME_LIMIT and END_REQUEST (1.4, 1.5). -/

namespace Sys2Proof.Machine

/-- The due time of the sweep time limit (R11). -/
def limitDue (s : State) (openTime : Time) : Time := openTime + BitVec.ofNat 32 s.sweepCfg.sweepTimeLimit

/-- SWEEP_TIME_LIMIT (R11): in OPEN the limit expires and the state becomes DRAINING with last reason TIME_LIMIT. -/
def execSweepTimeLimit (s : State) : Answer :=
  .next
    (match s.sweep.state, s.sweep.openTime with
    | .opened, some openTime =>
      if s.sweep.limitRunning then
        settle false false
          (drainTest (beginDraining .timeLimit { s with timeBase := advanceTo (limitDue s openTime) s.timeBase }))
      else s
    | _, _ => s)

/-- END_REQUEST (R12, R13). -/
def execEndRequest (reason : EndReason) (s : State) : Answer := .next (settle false false (takeEndRequest reason s))

end Sys2Proof.Machine
end

