-- ==== Sys2Proof/Machine/Dispatch.lean ====
section
/-! DEFINITION. One arm per command, each a direct call of the command's meaning. -/

namespace Sys2Proof.Machine

/-- The effect of a command on everything but the queue. -/
def exec (i : Instr) (s : State) : Host.Outcome State Fault Refusal :=
  match i with
  | .powerOn => Sys2Proof.Machine.execPowerOn s
  | .resetnAssert => Sys2Proof.Machine.execResetnAssert s
  | .resetnRelease => Sys2Proof.Machine.execResetnRelease s
  | .dramInitialised strap => Sys2Proof.Machine.execDramInitialised strap s
  | .selftestComplete outcome => Sys2Proof.Machine.execSelftestComplete outcome s
  | .configure tag payload => Sys2Proof.Machine.execConfigure tag payload s
  | .arm tag payload => Sys2Proof.Machine.execArm tag payload s
  | .start tag payload => Sys2Proof.Machine.execStart tag payload s
  | .stop tag payload => Sys2Proof.Machine.execStop tag payload s
  | .abort tag payload => Sys2Proof.Machine.execAbort tag payload s
  | .query tag payload => Sys2Proof.Machine.execQuery tag payload s
  | .readAttention tag payload => Sys2Proof.Machine.execReadAttention tag payload s
  | .ackAttention tag payload => Sys2Proof.Machine.execAckAttention tag payload s
  | .setAttention tag payload => Sys2Proof.Machine.execSetAttention tag payload s
  | .selftest tag payload => Sys2Proof.Machine.execSelftest tag payload s
  | .reset tag payload => Sys2Proof.Machine.execReset tag payload s
  | .unknownCommand kind tag payload => Sys2Proof.Machine.execUnknownCommand kind tag payload s
  | .commandDiscarded => Sys2Proof.Machine.execCommandDiscarded s
  | .replyTransaction clocked => Sys2Proof.Machine.execReplyTransaction clocked s
  | .sweepTimeLimit => Sys2Proof.Machine.execSweepTimeLimit s
  | .endRequest reason => Sys2Proof.Machine.execEndRequest reason s
  | .frameStart => Sys2Proof.Machine.execFrameStart s
  | .headerArrival words => Sys2Proof.Machine.execHeaderArrival words s
  | .pixelLineStart => Sys2Proof.Machine.execPixelLineStart s
  | .lineTooLong => Sys2Proof.Machine.execLineTooLong s
  | .pixelLineClose words => Sys2Proof.Machine.execPixelLineClose words s
  | .frameEnd => Sys2Proof.Machine.execFrameEnd s
  | .sampleStrobe => Sys2Proof.Machine.execSampleStrobe s
  | .mdrdySeen => Sys2Proof.Machine.execMdrdySeen s
  | .goodSample bytes => Sys2Proof.Machine.execGoodSample bytes s
  | .sampleMissed => Sys2Proof.Machine.execSampleMissed s
  | .motionWaitExpiry => Sys2Proof.Machine.execMotionWaitExpiry s
  | .searchComplete => Sys2Proof.Machine.execSearchComplete s
  | .stripWritesComplete => Sys2Proof.Machine.execStripWritesComplete s
  | .harvestComplete => Sys2Proof.Machine.execHarvestComplete s
  | .previewUpdateComplete => Sys2Proof.Machine.execPreviewUpdateComplete s
  | .closingWorkComplete => Sys2Proof.Machine.execClosingWorkComplete s
  | .memoryBurstComplete move errors => Sys2Proof.Machine.execMemoryBurstComplete move errors s
  | .fetchRequest requester message => Sys2Proof.Machine.execFetchRequest requester message s
  | .fetchAbandon requester message => Sys2Proof.Machine.execFetchAbandon requester message s
  | .returnBurstComplete => Sys2Proof.Machine.execReturnBurstComplete s
  | .fetchWaitExpiry => Sys2Proof.Machine.execFetchWaitExpiry s
  | .transactionStart => Sys2Proof.Machine.execTransactionStart s
  | .requestMessageStart requester => Sys2Proof.Machine.execRequestMessageStart requester s

end Sys2Proof.Machine
end

