-- ==== Sys2Proof/Machine/Step.lean ====
section
/-! DEFINITION. One step of the machine: the command at the front of the queue, or one tick when none waits. -/

namespace Sys2Proof.Machine

/-- One tick of the time base (1.7.2), which does not count while RESETn is low (R177). -/
def tick (s : State) : State := if s.inReset then s else { s with timeBase := s.timeBase + 1 }

/-- A step: the command at the front of the queue is run on the state with the rest of the queue; on an empty queue the
time base counts one tick (log entry 1). -/
def step (s : State) : Host.Outcome State Fault Refusal :=
  match s.pending with
  | [] => .next (tick s)
  | i :: rest => exec i { s with pending := rest }

/-- The state with the command that a table word spells at the front of its queue; unchanged where it spells none. -/
def State.withFetchWord (s : State) (nbits w : Nat) : State :=
  match decodeTableWord nbits w with
  | some i => { s with pending := i :: s.pending }
  | none => s

end Sys2Proof.Machine
end

