-- ==== Sys2Proof/Laws/Memory.lean ====
section
/-! SUPPORT. The stacked DRAM's canonical form and reads after writes. -/

namespace Sys2Proof.Machine

/-- A canonical list keeps its form for a lower bound. -/
theorem memWfFrom_mono {lo lo' : Nat} (h : lo' ≤ lo) : ∀ {mem : List Host.Cell}, memWfFrom lo mem = true →
    memWfFrom lo' mem = true
  | [], _ => rfl
  | (a, v) :: rest, hw => by
    simp only [memWfFrom, Bool.and_eq_true, decide_eq_true_eq] at hw ⊢
    exact ⟨⟨by omega, hw.1.2⟩, hw.2⟩

/-- A write at or above the bound keeps the canonical form above it. -/
theorem memWrite_wfFrom (v : Byte) : ∀ {lo : Nat} {mem : List Host.Cell} {k : Nat}, lo ≤ k →
    memWfFrom lo mem = true → memWfFrom lo (memWrite mem k v) = true
  | lo, [], k, hk, _ => by
    unfold memWrite
    split
    · rfl
    · rename_i hv
      simp only [memWfFrom, Bool.and_eq_true, decide_eq_true_eq, Bool.and_true]
      exact ⟨hk, hv⟩
  | lo, (a, w) :: rest, k, hk, hw => by
    simp only [memWfFrom, Bool.and_eq_true, decide_eq_true_eq] at hw
    unfold memWrite
    split
    · split
      · simp only [memWfFrom, Bool.and_eq_true, decide_eq_true_eq]
        exact hw
      · rename_i hlt hv
        simp only [memWfFrom, Bool.and_eq_true, decide_eq_true_eq]
        exact ⟨⟨hk, hv⟩, ⟨by omega, hw.1.2⟩, hw.2⟩
    · split
      · rename_i hka
        split
        · exact memWfFrom_mono (by omega) hw.2
        · rename_i hv
          subst hka
          simp only [memWfFrom, Bool.and_eq_true, decide_eq_true_eq]
          exact ⟨⟨hk, hv⟩, hw.2⟩
      · simp only [memWfFrom, Bool.and_eq_true, decide_eq_true_eq]
        exact ⟨hw.1, memWrite_wfFrom v (by omega) hw.2⟩

/-- A write keeps the memory's canonical form. -/
theorem memWrite_wf {mem : List Host.Cell} (h : memWf mem = true) (k : Nat) (v : Byte) :
    memWf (memWrite mem k v) = true := memWrite_wfFrom v (Nat.zero_le k) h

/-- Writing bytes keeps the canonical form. -/
theorem memWriteBytes_wf : ∀ (bytes : List Byte) {mem : List Host.Cell} (_ : memWf mem = true) (addr : Nat),
    memWf (memWriteBytes mem addr bytes) = true
  | [], _, h, _ => h
  | b :: bs, _, h, addr => memWriteBytes_wf bs (memWrite_wf h addr b) (addr + 1)

/-- Storing pixels keeps the canonical form. -/
theorem storeUnit_wf {mem : List Host.Cell} (h : memWf mem = true) (u : WriteUnit) : memWf (storeUnit mem u) = true :=
  memWrite_wf (memWrite_wf h _ _) _ _

/-- Storing a list of pixels keeps the canonical form. -/
theorem foldl_storeUnit_wf : ∀ (units : List WriteUnit) {mem : List Host.Cell} (_ : memWf mem = true),
    memWf (units.foldl storeUnit mem) = true
  | [], _, h => h
  | u :: us, _, h => foldl_storeUnit_wf us (storeUnit_wf h u)

/-- Below every listed address a canonical memory reads 0. -/
theorem memRead_below : ∀ {mem : List Host.Cell} {lo k : Nat}, memWfFrom lo mem = true → k < lo → memRead mem k = 0
  | [], _, _, _, _ => rfl
  | (a, v) :: rest, lo, k, h, hk => by
    simp only [memWfFrom, Bool.and_eq_true, decide_eq_true_eq] at h
    unfold memRead
    rw [if_neg (by omega)]
    exact memRead_below h.2 (by omega)

/-- A byte written reads back. -/
theorem memRead_memWrite_same (v : Byte) : ∀ {lo : Nat} {mem : List Host.Cell} {k : Nat}, memWfFrom lo mem = true →
    memRead (memWrite mem k v) k = v
  | _, [], k, _ => by
    unfold memWrite
    split
    · rename_i hv; simp [memRead, hv]
    · simp [memRead]
  | lo, (a, w) :: rest, k, h => by
    simp only [memWfFrom, Bool.and_eq_true, decide_eq_true_eq] at h
    unfold memWrite
    split
    · split
      · rename_i hlt hv
        rw [hv]
        unfold memRead
        rw [if_neg (by omega)]
        exact memRead_below h.2 (by omega)
      · simp [memRead]
    · split
      · rename_i hka
        split
        · rename_i hv
          rw [hv]
          exact memRead_below h.2 (by omega)
        · simp [memRead]
      · rename_i hka
        unfold memRead
        rw [if_neg (by omega)]
        exact memRead_memWrite_same v h.2

/-- A write leaves every other byte alone. -/
theorem memRead_memWrite_other (v : Byte) {k j : Nat} (hj : j ≠ k) : ∀ {lo : Nat} {mem : List Host.Cell},
    memWfFrom lo mem = true → memRead (memWrite mem k v) j = memRead mem j
  | _, [], _ => by
    unfold memWrite
    split
    · rfl
    · simp [memRead, Ne.symm hj]
  | lo, (a, w) :: rest, h => by
    simp only [memWfFrom, Bool.and_eq_true, decide_eq_true_eq] at h
    unfold memWrite
    split
    · split
      · rfl
      · conv_lhs => unfold memRead
        rw [if_neg (Ne.symm hj)]
    · split
      · rename_i hka
        subst hka
        split
        · conv_rhs => unfold memRead
          rw [if_neg (Ne.symm hj)]
        · conv_lhs => unfold memRead
          conv_rhs => unfold memRead
          rw [if_neg (Ne.symm hj), if_neg (Ne.symm hj)]
      · conv_lhs => unfold memRead
        conv_rhs => unfold memRead
        rw [memRead_memWrite_other v hj h.2]

/-- Bytes written from `addr` leave every byte outside them alone. -/
theorem memRead_memWriteBytes_other : ∀ (bytes : List Byte) {mem : List Host.Cell} (_ : memWf mem = true) {addr j : Nat}
    (_ : j < addr ∨ addr + bytes.length ≤ j), memRead (memWriteBytes mem addr bytes) j = memRead mem j
  | [], _, _, _, _, _ => rfl
  | b :: bs, mem, h, addr, j, hj => by
    simp only [List.length_cons] at hj
    unfold memWriteBytes
    rw [memRead_memWriteBytes_other bs (memWrite_wf h addr b) (by omega),
      memRead_memWrite_other b (by omega) h]

/-- The bytes written from `addr` read back. -/
theorem memRead_memWriteBytes_same : ∀ (bytes : List Byte) {mem : List Host.Cell} (_ : memWf mem = true) {addr i : Nat}
    (_ : i < bytes.length), memRead (memWriteBytes mem addr bytes) (addr + i) = bytes.getD i 0
  | [], _, _, _, _, hi => by simp at hi
  | b :: bs, mem, h, addr, i, hi => by
    unfold memWriteBytes
    cases i with
    | zero =>
      rw [memRead_memWriteBytes_other bs (memWrite_wf h addr b) (by omega), Nat.add_zero]
      exact memRead_memWrite_same b h
    | succ i =>
      simp only [List.length_cons, Nat.add_lt_add_iff_right] at hi
      rw [show addr + (i + 1) = addr + 1 + i by omega,
        memRead_memWriteBytes_same bs (memWrite_wf h addr b) hi]
      rfl

/-- Pixels stored leave alone every byte that is none of theirs. -/
theorem memRead_foldl_storeUnit_other : ∀ (units : List WriteUnit) {mem : List Host.Cell} (_ : memWf mem = true) {j : Nat}
    (_ : ∀ u ∈ units, j ≠ u.addr ∧ j ≠ u.addr + 1), memRead (units.foldl storeUnit mem) j = memRead mem j
  | [], _, _, _, _ => rfl
  | u :: us, mem, h, j, hj => by
    have hu := hj u (List.mem_cons_self ..)
    rw [List.foldl_cons, memRead_foldl_storeUnit_other us (storeUnit_wf h u)
      (fun v hv => hj v (List.mem_cons_of_mem _ hv)), storeUnit,
      memRead_memWrite_other _ hu.2 (memWrite_wf h _ _), memRead_memWrite_other _ hu.1 h]

/-- A flag set: the new one and those before. -/
theorem mem_setFlag (i : Nat) : ∀ {flags : List Nat} {j : Nat}, i ∈ setFlag flags j ↔ i = j ∨ i ∈ flags
  | [], j => by simp [setFlag]
  | x :: xs, j => by
    unfold setFlag
    split
    · simp
    · split
      · rename_i h; subst h; simp
      · rw [List.mem_cons, mem_setFlag, List.mem_cons]; exact or_left_comm

/-- Flags set one after another. -/
theorem mem_foldl_setFlag (i : Nat) : ∀ (js : List Nat) {flags : List Nat},
    i ∈ js.foldl setFlag flags ↔ i ∈ js ∨ i ∈ flags
  | [], flags => by simp
  | j :: js, flags => by
    rw [List.foldl_cons, mem_foldl_setFlag, mem_setFlag, List.mem_cons, or_left_comm, or_assoc]

/-- Storing bytes with their check data keeps the canonical form. -/
theorem storeBytes_wf {store : CanvasStore} (h : memWf store.mem = true) (addr : Nat) (bytes : List Byte) :
    memWf (storeBytes addr bytes store).mem = true := memWriteBytes_wf bytes h addr

/-- Storing pixels with their check data keeps the canonical form. -/
theorem storeUnits_wf {s : State} (h : memWf s.store.mem = true) (units : List WriteUnit) :
    memWf (storeUnits units s).store.mem = true := foldl_storeUnit_wf units h

end Sys2Proof.Machine
end

