-- ==== Sys2Proof/Machine/Pins.lean ====
section
/-! DEFINITION. The output pins (1.5) as functions of the state, so that they cannot disagree with it. -/

namespace Sys2Proof.Machine

/-- ATN (R173). -/
def atnPin (s : State) : Bool := atnHigh s.attn

/-- SLOTRDY: high while the state is OPEN and at least one slot is FREE (R63). -/
def slotrdyPin (s : State) : Bool := decide (s.sweep.state = .opened) && anySlot s.ingest.slots .free

/-- MSTB: high for 24 ticks from a strobe, low while the clock is stopped (R23, R24). -/
def mstbPin (s : State) : Bool :=
  s.motion.clockRunning &&
    match s.motion.strobeTime with
    | some t => decide (0 ≤ ticksSince s.timeBase t ∧ ticksSince s.timeBase t < 24)
    | none => false

/-- MCSn: low during a read (R23, R25, R27). -/
def mcsnPin (s : State) : Bool :=
  match s.motion.tx with
  | .reading _ _ | .discarding _ => false
  | .absent | .window _ _ => true

/-- MSCK: low while no read runs, so low whenever the motion link is idle with its clock stopped (R23, R44); none while
a read clocks its six bytes, when it toggles (R25, log entry 28). -/
def msckPin (s : State) : Option Bool :=
  match s.motion.tx with
  | .reading _ _ | .discarding _ => none
  | .absent | .window _ _ => some false

/-- CSO: byte n of the last transaction, if it was clocked so far, byte 0 being the link status (R166). The bytes after
the link status are those of a reply that is served, and every other byte is 0: in a command transaction all of them
(R183), in a reply transaction those beyond the end of the reply, or all when none is served (R168). The rules state no
byte for a poll after its first, and there it is a free value (log entry 4). -/
def csoByte (s : State) (n : Nat) : Byte :=
  match s.ctl.cso[n]? with
  | some b => b
  | none => if s.ctl.polled then Config.pollByte n else 0

/-- MOSI: held low during the 48 MSCK periods of a read (R25). DESIGN CHOICE (log entry 28), unsafe: the rules give it
no level outside a read, and the model holds it low there too. -/
def mosiPin (_ : State) : Bool := false

/-- FVALID: high from the first header word to the last data word of a burst (R155, R185). -/
def fvalidPin (s : State) : Bool := s.fetch.bus.isSome

/-- FID: the requester number for the whole burst (R185). -/
def fidPin (s : State) : Option Nat := s.fetch.bus.map fun b => requesterCode b.requester

/-- The words that FD carries for the burst on the bus (R182, R185). -/
def fdWords (s : State) : List Half :=
  match s.fetch.bus with
  | some b => wordsOf (burstBytes b)
  | none => []

end Sys2Proof.Machine
end

