-- ==== Sys2Proof/Safety.lean ====
section
/-! DEFINITION. What counts as a sound state and what a step may touch, in the terms that claims use: the accounting
law, the slot pool, the canonical form of the memory, and the frame of what settles after a command. -/

namespace Sys2Proof.Machine

/-- The frames that have left the pool or never entered it, by fate (R21). -/
def countedFrames (c : Counters) : Nat :=
  c.composited + c.guide + c.still + c.noAdvance + c.dropped + c.truncated + c.rejected + c.discarded

/-- The accounting law (R21): received is the sum of the fates and the slots that are not FREE. -/
def accounted (s : State) : Prop :=
  s.sweep.counters.received = countedFrames s.sweep.counters + occupiedSlots s.ingest.slots

/-- How many slots are in a state (R53). -/
def slotsIn (slots : List Slot) (st : SlotState) : Nat := (slots.filter fun slot => decide (slot.state = st)).length

/-- The frame on the port is FILLING this slot. -/
def portFills (port : PortFrame) (i : Nat) : Bool :=
  match port with
  | .filling slot _ _ => decide (slot = i)
  | .low | .ignored | .header _ => false

/-- The opening frames on their way to being HELD: the one that the sweep has still to mark (R57), those in the queue, and
the one in placement (R66). -/
def openingsAhead (s : State) : Nat :=
  (if s.ingest.openingAssigned then 0 else 1) +
    (s.ingest.queue.filter fun i => (slotInfo s.ingest.slots i).opening).length +
    match s.place.work with
    | some w => if w.cls = .opening then 1 else 0
    | none => 0

/-- A frame handed over to the compositor: the one it is on, or the one held back during an update (R108). -/
def handedOver (s : State) (job : StripJob) : Prop := s.comp.job = some job ∨ s.comp.waiting = some job

/-- The engine's frames stand in their slots (R53, R54): the queue names QUEUED slots, each once; the frame in placement is
ENGAGED; of the frames handed over there is one at a time, none on hand during an update, and its slot is ENGAGED, or
HELD for strip 0; a frame handed over has its placement behind it and is searched no more; and a search is that of the
placed frame. -/
def framesSound (s : State) : Prop :=
  s.ingest.queue.Nodup ∧ (∀ i ∈ s.ingest.queue, slotState s.ingest.slots i = .queued) ∧
    (∀ w, s.place.work = some w → slotState s.ingest.slots w.slot = .engaged) ∧
    (∀ job, handedOver s job → slotState s.ingest.slots job.slot = .engaged ∨
      (job.strip0 = true ∧ slotState s.ingest.slots job.slot = .held)) ∧
    (s.comp.job = none ∨ s.comp.waiting = none) ∧ (s.comp.state = .updating → s.comp.job = none) ∧
    (∀ w job, s.place.work = some w → handedOver s job → job.slot = w.slot →
      w.stage = .placed ∧ s.reg.state ≠ .searching) ∧
    (s.reg.state = .searching → ∃ w, s.place.work = some w ∧ w.stage = .placed)

/-- The slot pool (R53): six slots; at most one is ENGAGED; the FILLING slot is the one the frame on the port fills, so at
most one is; at most one is HELD, and none while an opening frame is on its way to being HELD. -/
def poolSound (s : State) : Prop :=
  s.ingest.slots.length = 6 ∧ slotsIn s.ingest.slots .engaged ≤ 1 ∧
    (∀ i, slotState s.ingest.slots i = .filling ↔ portFills s.ingest.port i = true) ∧
    slotsIn s.ingest.slots .held + openingsAhead s ≤ 1 ∧ framesSound s

/-- The memory is in canonical form. -/
def memorySound (s : State) : Prop := memWf s.store.mem = true

/-- No word shows a single-bit error and one of two or more bits at once (R144). -/
def flawsSound (s : State) : Prop := ∀ w, w ∈ s.store.singleFlaws → w ∉ s.store.multiFlaws

/-- A word read shows an error of two or more bits: one it has had since it was written, or a new one (R144). -/
def wordFails (store : CanvasStore) (e : MemErrors) (w : Nat) : Prop := w ∈ store.multiFlaws ∨ w ∈ e.multi

/-- The pose ring and the estimator windows keep their sizes (R31, R38), and with the started mark clear the angles and
residuals of both axes are 0 (R33). -/
def trackSound (s : State) : Prop :=
  s.motion.ring.length ≤ 512 ∧ s.motion.yawWindow.length ≤ 256 ∧ s.motion.pitchWindow.length ≤ 256 ∧
    (s.motion.integ.started = false → s.motion.integ.yaw = ⟨0, 0⟩ ∧ s.motion.integ.pitch = ⟨0, 0⟩)

/-- A line of the line buffer without its count of bytes asked for. -/
def lineContent (l : BufferedLine) : Nat × Nat × List Half := (l.slot, l.line, l.words)

/-- A strip job without what the seam choice adds to it (R111 to R115). -/
def jobPlacement (j : StripJob) : StripJob :=
  { j with planned := false, seams := [], detached := false, wrapped := false }

/-- Beyond `u`, at most the two ports move on in `t`: the fetch port and the arbiter, the line buffer's counts of bytes
asked for, the seam choice of the frame in compositing with the pixels it will write, the self-test's cursor and
the free-value counter. The canvas store, the sweep record, the motion, placement and registration units, the
slots, the queue, the strip table, the fronts, the trims, the guide record, the link and the attention unit are
those of `u`. -/
def restAs (u t : State) : Prop :=
  t = { u with
    fetch := t.fetch
    arb := t.arb
    freeIndex := t.freeIndex
    ingest := { u.ingest with lines := t.ingest.lines }
    comp := { u.comp with job := t.comp.job, todo := t.comp.todo }
    selfTest := { u.selfTest with run := t.selfTest.run } } ∧
  t.ingest.lines.map lineContent = u.ingest.lines.map lineContent ∧
  t.comp.job.map jobPlacement = u.comp.job.map jobPlacement ∧
  (t.comp.todo = u.comp.todo ∨ u.comp.state = .compositing)

/-- What a requester asked for and waits on is unchanged: its request, the held one, its stall and its line. -/
def sideAs (p q : PortSide) : Prop :=
  q.transfer.map Transfer.req = p.transfer.map Transfer.req ∧ q.held = p.held ∧ q.waitStart = p.waitStart ∧
    q.stallLimit = p.stallLimit ∧ q.line = p.line

/-- `t` is `u` with what settles after a command: as `restAs`, with both requesters' requests, stalls and lines kept, a
burst on the return bus or in progress on the memory kept, and nothing taken from the attention unit or the link. -/
def settlesTo (u t : State) : Prop :=
  restAs u t ∧ sideAs u.fetch.p0 t.fetch.p0 ∧ sideAs u.fetch.p1 t.fetch.p1 ∧
    (u.fetch.bus.isSome → t.fetch.bus = u.fetch.bus) ∧
    (u.arb.inProgress.isSome → t.arb.inProgress = u.arb.inProgress)

/-- The control link once a command of a transaction is answered (R167, R169): the reply slot holds the reply, the
command slot is empty, and CSO has carried nothing but 0 after the link status (R183). -/
def answered (l : ControlLink) (kind tag : Byte) (result : CommandResult) (detail : Nat) (payload : List Byte) :
    ControlLink :=
  { latched := none
    command := none
    reply := some ⟨tag, kind, result, detail, payload⟩
    cso := l.cso
    polled := false }

/-- The control link once the command that is executing completes with DONE (R167); unchanged when none is. -/
def completed (l : ControlLink) (payload : List Byte) : ControlLink :=
  match l.command with
  | some (kind, tag) => { l with command := none, reply := some ⟨tag, kind, .done, 0, payload⟩ }
  | none => l

/-- The signed number in `len` bytes of a record from byte `pos` (R182). -/
def signedAt (record : List Byte) (pos len : Nat) : Int := (BitVec.ofNat (8 * len) (bytesNat record pos len)).toInt

/-- A value fits a signed field of `len` bytes (R182). -/
def fitsSigned (len : Nat) (v : Int) : Prop := -(256 ^ len / 2 : Int) ≤ v ∧ v < 256 ^ len / 2

/-- The pixel lies wholly within the `len` bytes from byte `addr`. -/
def unitInside (addr len : Nat) (u : WriteUnit) : Prop := addr ≤ u.addr ∧ u.addr + 2 ≤ addr + len

/-- Two pixels are the same or have no byte in common. -/
def unitsApart (u v : WriteUnit) : Prop := v = u ∨ u.addr + 2 ≤ v.addr ∨ v.addr + 2 ≤ u.addr

/-- The opening frame `w` once its last lookup has found `yaw` and left it with these flags (R78, R127): its poses are
saved, the guide record has taken its offer, the slot is HELD and the placement unit READY. -/
def heldOpening (s : State) (w : Working) (yaw : Int) (flags : FrameFlags) : State :=
  { s with
    place := { s.place with state := .ready, work := none, saved := some ⟨w.refYaw, w.bandYaws ++ [yaw], flags⟩ }
    ingest := { s.ingest with slots := moveSlot s.ingest.slots w.slot .held }
    comp := { s.comp with guide := { s.comp.guide with
      count := s.comp.guide.count + 1
      seq := w.seq
      guideMark := false
      direction := .unknown
      speed := .still
      advance := 0
      overlap := 0
      yP := w.yP
      margin := s.sweepCfg.margin
      progress := match s.comp.clean with
        | some g => s.comp.front - g
        | none => 0
      target := offerTarget s.sweepCfg s.comp.clean
      motion := s.motion.link
      flags := flags } } }

/-- What the drain-completion test brings at once in `u`, a state that has just begun to drain or to have one frame less to
drain, as seen in `t` (R15, R16, R45, R65, R81): with every slot FREE and nothing queued the sweep is DONE with its last
reason, motion sampling has stopped and the closing work has begun; with one slot HELD and every other FREE, that slot is
ENGAGED, the direction +1 and, the compositor free, strip 0 is composited from the saved poses. -/
def drainsAtOnce (u t : State) : Prop :=
  (u.ingest.queue = [] → (∀ slot ∈ u.ingest.slots, slot.state = .free) →
    t.sweep = { u.sweep with state := .done, limitRunning := false } ∧ t.motion.clockRunning = false ∧
    t.motion.link = .off ∧ t.ingest = { u.ingest with lines := [] } ∧ t.comp.state = .closing ∧
    t.comp.settled = u.comp.front ∧ t.store = u.store ∧ t.ctl = u.ctl ∧ t.attn = u.attn) ∧
  ∀ (i : Nat) (saved : SavedPoses), u.ingest.queue = [] →
    (∀ j, slotState u.ingest.slots j = if j = i then .held else .free) → i < u.ingest.slots.length →
    u.place.saved = some saved → u.comp.state = .ready →
    slotState t.ingest.slots i = .engaged ∧ t.place.direction = .plus ∧ t.comp.state = .compositing ∧
    (t.comp.job.map fun j => (j.strip0, j.slot, j.xC, j.yP)) = some (true, i, originColumn u.sweepCfg, 0) ∧
    t.sweep = u.sweep ∧ t.store = u.store ∧ t.motion = u.motion ∧ t.ctl = u.ctl ∧ t.attn = u.attn

/-- The burst that a requester's side sends next or is sending: the posted one, or the one on the bus. -/
def burstOf (f : FetchPort) (r : Requester) : Option ReturnBurst :=
  match (sideOf f r).posted with
  | some b => some b
  | none => if onBus f r then f.bus else none

/-- A stall of requester 0 in `s` is tested again by what leads to `t` (R159). Without a stall requester 0's side stays as it
is. With the item not ready the stall and its limit stay. With the item ready the stall ends and its burst follows: behind
the WAITING header if that is posted or on the bus, and otherwise it is prepared, a strip record copied, at once. A strip
that now never comes ends the transfer with ERROR RANGE, behind a WAITING header still posted. Requester 1's side and a
burst on the return bus stay. -/
def stallRetested (s t : State) : Prop :=
  sideAs s.fetch.p1 t.fetch.p1 ∧ t.fetch.p0.held = s.fetch.p0.held ∧ t.fetch.p0.line = s.fetch.p0.line ∧
  (s.fetch.bus.isSome = true → t.fetch.bus = s.fetch.bus) ∧
  ((s.fetch.p0.waitStart = none ∨ s.fetch.p0.transfer = none) → sideAs s.fetch.p0 t.fetch.p0) ∧
  ∀ (x : Transfer) (start : Time), s.fetch.p0.transfer = some x → s.fetch.p0.waitStart = some start →
    t.fetch.p0.transfer.map Transfer.req = some x.req ∧
    (testItem t .r0 x = .stall →
      t.fetch.p0.waitStart = some start ∧ t.fetch.p0.stallLimit = s.fetch.p0.stallLimit) ∧
    (testItem t .r0 x = .ready →
      t.fetch.p0.waitStart = none ∧
      (∀ b, s.fetch.p0.posted = some b → b.status = .waiting → b.requester = .r0 →
        burstOf t.fetch .r0 = some b ∧ t.fetch.p0.transfer.map Transfer.tested = some true) ∧
      (s.fetch.p0.posted = none → waitingOnBus s.fetch = true →
        t.fetch.p0.transfer.map Transfer.tested = some true) ∧
      (s.fetch.p0.posted = none → waitingOnBus s.fetch = false →
        (memoryKind x.req.kind = true →
          t.fetch.p0.phase = .preparing ∧ t.fetch.p0.transfer.map Transfer.item = some x.item ∧
          t.fetch.p0.transfer.map Transfer.tested = some true) ∧
        (x.req.kind = .strips → burstOf t.fetch .r0 =
          some ⟨.r0, dataStatus s.sweepCfg x (stripItem t x.item).length, x.item, stripItem t x.item⟩))) ∧
    (testItem t .r0 x = .range →
      t.fetch.p0.waitStart = none ∧
      (∀ b, s.fetch.p0.posted = some b → b.status = .waiting → b.requester = .r0 →
        burstOf t.fetch .r0 = some b ∧ t.fetch.p0.transfer.map Transfer.rangeAfter = some (some x.item)) ∧
      (s.fetch.p0.posted = none → burstOf t.fetch .r0 = some ⟨.r0, .errorRange, x.item, []⟩))

/-- The canvas of `s` is discarded at a requester's side, as seen in `t` once everything has settled (R163): a held request
for it is stale; a transfer of it whose ending burst is not on the bus has an ERROR NO_SWEEP header with the next item's
index for its burst, no stall and no memory request, and a memory burst of it in progress is dropped; one whose ending
burst is on the bus is left to end with that burst; the guide record's transfer and its posted burst go on. -/
def discardedAt (s t : State) (r : Requester) : Prop :=
  (sideOf t.fetch r).held = (sideOf s.fetch r).held.map (fun h => (h.1, h.2 || sweepKind h.1.kind)) ∧
  (sideOf t.fetch r).line = (sideOf s.fetch r).line ∧
  ∀ x, (sideOf s.fetch r).transfer = some x →
    (sideOf t.fetch r).transfer.map Transfer.req = some x.req ∧
    (sweepKind x.req.kind = true →
      endingOnBus s.fetch r (x.req.again && (sideOf s.fetch r).held.isNone) = false →
      burstOf t.fetch r = some ⟨r, .errorNoSweep, nextItem x, []⟩ ∧ (sideOf t.fetch r).waitStart = none ∧
      (∀ b, t.arb.fetchWait = some b → b.requester ≠ r) ∧
      ∀ b data live, s.arb.inProgress = some (.fetch b data live) → b.requester = r →
        t.arb.inProgress = some (.fetch b data false)) ∧
    (sweepKind x.req.kind = true →
      endingOnBus s.fetch r (x.req.again && (sideOf s.fetch r).held.isNone) = true →
      (sideOf t.fetch r).posted = (sideOf s.fetch r).posted) ∧
    (sweepKind x.req.kind = false →
      (sideOf t.fetch r).waitStart = (sideOf s.fetch r).waitStart ∧
      ((sideOf s.fetch r).posted = none → (sideOf t.fetch r).posted = none) ∧
      ∀ b, (sideOf s.fetch r).posted = some b → b.requester = r → burstOf t.fetch r = some b)

/-- The canvas of `s` is discarded at both requesters' sides, and a burst on the return bus completes (R163). -/
def canvasDiscarded (s t : State) : Prop :=
  (s.fetch.bus.isSome → t.fetch.bus = s.fetch.bus) ∧ ∀ r, discardedAt s t r

/-- The ingest unit and the engine have nothing waiting at the arbiter and no word left to read (R146, R147). -/
def asksWithdrawn (a : Arbiter) : Prop :=
  a.ingestWait = none ∧ a.engineWait = none ∧ a.regReads = none ∧ a.compReads = none

/-- `t` follows from `s` by serving the transfer `y` of a requester with nothing posted (R153, R154): a burst whose item
has been tested, or is now found ready, is prepared or copied; an item that is not ready stalls from this time with a
WAITING header (R159); one that can never be ready ends the transfer with ERROR RANGE. -/
def servesNext (s : State) (r : Requester) (y : Transfer) (t : State) : Prop :=
  (sideOf t.fetch r).transfer.map Transfer.req = some y.req ∧
  (sideOf t.fetch r).transfer.map Transfer.pass = some y.pass ∧
  ((y.tested = true ∨ testItem s r y = .ready) →
    (memoryKind y.req.kind = true →
      (sideOf t.fetch r).phase = .preparing ∧ (sideOf t.fetch r).transfer.map Transfer.item = some y.item ∧
      (sideOf t.fetch r).transfer.map Transfer.byte = some y.byte) ∧
    (y.req.kind = .guide → burstOf t.fetch r = some ⟨r, .dataLast, y.item, guideBytes s.comp.guide⟩) ∧
    (y.req.kind = .strips → burstOf t.fetch r =
      some ⟨r, dataStatus s.sweepCfg y (stripItem s y.item).length, y.item, stripItem s y.item⟩)) ∧
  (y.tested = false → testItem s r y = .stall →
    burstOf t.fetch r = some ⟨r, .waiting, y.item, []⟩ ∧ (sideOf t.fetch r).waitStart = some s.timeBase ∧
    (sideOf t.fetch r).stallLimit = s.config.fetchWaitLimit) ∧
  (y.tested = false → testItem s r y = .range → burstOf t.fetch r = some ⟨r, .errorRange, y.item, []⟩)

/-- The gap that a header adds to skipped: none with the reference absent (R50). -/
def headerGap (s : State) (h : Header) : Nat :=
  match s.ingest.seqRef with
  | none => 0
  | some reference => (h.seq - reference - 1).toNat

/-- What a command transaction of one of the eleven kinds asks of the link: kind code, tag, payload, the payload length
its kind requires (10.4) and the states that take it (9.2). -/
structure CommandForm where
  kind : Byte
  tag : Byte
  payload : List Byte
  length : Nat
  takenIn : SweepState → Bool

/-- The command forms of 9.2. -/
def commandForm : Instr → Option CommandForm
  | .configure tag p => some ⟨1, tag, p, 64, fun st => decide (st = .idle ∨ st = .done)⟩
  | .arm tag p => some ⟨2, tag, p, 0, fun st => decide (st = .idle ∨ st = .done)⟩
  | .start tag p => some ⟨3, tag, p, 0, fun st => decide (st = .armed)⟩
  | .stop tag p => some ⟨4, tag, p, 0, fun st => decide (st = .armed ∨ st = .opened ∨ st = .draining)⟩
  | .abort tag p => some ⟨5, tag, p, 0, fun _ => true⟩
  | .query tag p => some ⟨6, tag, p, 0, fun _ => true⟩
  | .readAttention tag p => some ⟨7, tag, p, 0, fun _ => true⟩
  | .ackAttention tag p => some ⟨8, tag, p, 1, fun _ => true⟩
  | .setAttention tag p => some ⟨9, tag, p, 1, fun st => decide (st ≠ .init)⟩
  | .selftest tag p => some ⟨10, tag, p, 0, fun st => decide (st = .idle ∨ st = .done)⟩
  | .reset tag p => some ⟨11, tag, p, 0, fun _ => true⟩
  | .powerOn | .resetnAssert | .resetnRelease | .dramInitialised _ | .selftestComplete _ | .unknownCommand _ _ _
  | .commandDiscarded | .replyTransaction _ | .sweepTimeLimit | .endRequest _ | .frameStart | .headerArrival _
  | .pixelLineStart | .lineTooLong | .pixelLineClose _ | .frameEnd | .sampleStrobe | .mdrdySeen | .goodSample _
  | .sampleMissed | .motionWaitExpiry | .searchComplete | .stripWritesComplete | .harvestComplete
  | .previewUpdateComplete | .closingWorkComplete | .memoryBurstComplete _ _ | .fetchRequest _ _ | .fetchAbandon _ _
  | .returnBurstComplete | .fetchWaitExpiry | .transactionStart | .requestMessageStart _ => none

end Sys2Proof.Machine
end

