-- ==== Sys2Proof/Certificates/Slice0/Obligations.lean ====
section
/-! DEFINITION. The statements for the provers. -/

section

open Sys2Proof Sys2Proof.Machine

/-! ## The step, start-up and the control link -/

/-- A step with a command at the front of the queue runs that command on the state with the queue's rest; a step on an
empty queue counts one tick of the time base, none while RESETn is low, and changes nothing else. The queue and
the tick on an empty queue are the model's choice (log entry 1). -/
def Obligations.StepRunsFrontCommand : Prop :=
  (∀ (c : Instr) (rest : List Instr) (s : State),
    step { s with pending := c :: rest } = exec c { s with pending := rest }) ∧
  ∀ s : State, s.pending = [] →
    step s = .next (if s.inReset then s else { s with timeBase := s.timeBase + 1 })

/-- What power-on leaves, explicitly: every block at its power-on values, and of the state before only what is outside
the part (RESETn's level, FV's level, the levels of the request lines), the DRAM's words until INIT has written
them, the free-value counter and the queue. RESETn low holds those values; its rise begins start-up from them.
RESET has the same effect in every state, but for the link: the command slot keeps the RESET and its tag, and the
link status is EXECUTING. That the DRAM's bytes stay until INIT ends, that FV's level is kept, the reset values
that the spec does not give and the bytes CSO has carried, and that a message cut by a reset is ignored, are the
model's choices (log entries 10, 19, 21 and 24). -/
def Obligations.PowerOnResetnAndReset : Prop :=
  ∀ (s u : State),
    u = { State.reset with
      inReset := s.inReset
      ingest := { Ingest.reset with port := if s.ingest.port = .low then .low else .ignored }
      store := { CanvasStore.reset with
        mem := s.store.mem, singleFlaws := s.store.singleFlaws, multiFlaws := s.store.multiFlaws }
      fetch := { FetchPort.reset with
        p0 := { PortSide.reset with line := if s.fetch.p0.line = .idle then .idle else .ignored }
        p1 := { PortSide.reset with line := if s.fetch.p1.line = .idle then .idle else .ignored } }
      freeIndex := s.freeIndex
      pending := s.pending } →
    exec .powerOn s = .next u ∧
    exec .resetnAssert s = .next { u with inReset := true } ∧
    exec .resetnRelease s = .next (if s.inReset then { u with inReset := false } else s) ∧
    ∀ tag : Byte, commandTaken s = true →
      ∃ t, exec (.reset tag []) s = .next t ∧
        t = { u with ctl := { latched := none, command := some (11, tag), reply := none, cso := s.ctl.cso, polled := false } } ∧
        t.timeBase = 0 ∧ t.sweep.state = .init ∧ linkStatus t.ctl = .executing

/-- The report that the DRAM is initialised ends INIT: every byte reads 0 with valid check data, a RESET that is
executing is answered DONE with its tag, and the state becomes IDLE, or TEST with the tests running when the TEST
strap is high. That every byte reads 0, those outside the three areas included, is the model's choice (log entry
10), and the strap is an operand (log entry 32). -/
def Obligations.InitEndsAtDramReport : Prop :=
  ∀ s : State, s.sweep.state = .init → s.inReset = false →
    exec (.dramInitialised false) s =
      .next { s with
        store := { s.store with mem := [], singleFlaws := [], multiFlaws := [] }
        sweep := { s.sweep with state := .idle }
        ctl := completed s.ctl [] } ∧
    (∃ t, exec (.dramInitialised true) s = .next t ∧
      settlesTo { s with
        store := { s.store with mem := [], singleFlaws := [], multiFlaws := [] }
        sweep := { s.sweep with state := .test }
        selfTest := ⟨.running, some ⟨1, 0, 0, none⟩⟩
        ctl := completed s.ctl [] } t) ∧
    ∀ a : Nat, memRead [] a = 0

/-- The end of the tests, which comes with the number of the memory test that has failed, or, with both memory tests
passed and their bursts behind, with the first of tests 3 to 6 whose unit is faulty, or 0 when those find every
flag and every vector right; with any other outcome nothing happens: the result, FAULT (bit 0 of the pending set)
on a failure, both flag sets cleared, the integrator zero and the ring empty if test 4 ran, the patch tables empty
if test 5 ran, the state IDLE, and the reply of a SELFTEST that is executing. The last reason, the counters and
every other block are as before. A burst of the memory tests: one that writes stores its value with new check data
and nothing else; one that reads back counts its corrected words, and while its operation lasts fails its test if
a word reads back different or is uncorrectable, and only then; one that writes fails none. That the outcome tells
of a faulty unit, the fixed vectors and their stored answers, the memory tests' data and which words come back
wrong are the model's choices (log entries 6, 9 and 30), and so is the last integrated time of 0 after test 4 (log
entry 40). -/
def Obligations.SelfTestEnds : Prop :=
  (∀ (s : State) (r : SelfRun) (outcome : Nat) (ends : Prop), s.sweep.state = .test → s.selfTest.run = some r →
    (ends ↔ r.failed = some outcome ∨
      (r.failed = none ∧ 3 ≤ r.test ∧ selfOutstanding s.arb = false ∧ (outcome = 0 ∨ (3 ≤ outcome ∧ outcome ≤ 6)))) →
    (¬ends → exec (.selftestComplete outcome) s = .next s) ∧
    (ends → ∃ t, exec (.selftestComplete outcome) s = .next t ∧ t.selfTest.run = none ∧
      settlesTo { dropSelf s with
        sweep := { s.sweep with state := .idle }
        motion := if outcome = 0 ∨ 4 ≤ outcome then { s.motion with integ := Integrator.zero, ring := [] } else s.motion
        reg := if outcome = 0 ∨ 5 ≤ outcome then { s.reg with lead := [], opening := [] } else s.reg
        store := { s.store with coverage := [], computed := [] }
        selfTest := ⟨if outcome = 0 then .passed else .failed outcome, none⟩
        attn := if outcome = 0 then s.attn else { s.attn with pendingSet := s.attn.pendingSet ||| 1 }
        ctl := completed s.ctl (natBytes 1 outcome) } t)) ∧
  ∀ (s : State) (b : SelfBurst) (live : Bool) (move : EngineMove) (e : MemErrors) (words : List Nat),
    memorySound s → s.arb.inProgress = some (.selfTest b live) → words = touchedWords (testAddress b) 64 →
    ∃ t, exec (.memoryBurstComplete move e) s = .next t ∧
      restAs { s with store := t.store, selfTest := t.selfTest } t ∧ t.selfTest.result = s.selfTest.result ∧
      (b.pass % 2 = 0 →
        t.store = { s.store with
          mem := t.store.mem, singleFlaws := t.store.singleFlaws, multiFlaws := t.store.multiFlaws } ∧
        (∀ i, i < 64 → memRead t.store.mem (testAddress b + i) = testValue b.pass (b.offset + i)) ∧
        (∀ a, (a < testAddress b ∨ testAddress b + 64 ≤ a) → memRead t.store.mem a = memRead s.store.mem a) ∧
        (∀ w, w ∈ t.store.singleFlaws ↔ w ∈ s.store.singleFlaws ∧ w ∉ words) ∧
        (∀ w, w ∈ t.store.multiFlaws ↔ w ∈ s.store.multiFlaws ∧ w ∉ words) ∧
        t.selfTest.run.map SelfRun.failed = s.selfTest.run.map SelfRun.failed) ∧
      (b.pass % 2 = 1 →
        t.store = (checkWords words e s).store ∧
        ((live = true ∧ ((∃ i, i < 64 ∧ memRead s.store.mem (testAddress b + i) ≠ testValue b.pass (b.offset + i)) ∨
            ∃ w ∈ words, w ∈ e.differs ∨ wordFails s.store e w)) →
          t.selfTest.run = s.selfTest.run.map (fun r => { r with failed := some b.test }) ∧ t.arb.selfWait = none) ∧
        (¬(live = true ∧ ((∃ i, i < 64 ∧ memRead s.store.mem (testAddress b + i) ≠ testValue b.pass (b.offset + i)) ∨
            ∃ w ∈ words, w ∈ e.differs ∨ wordFails s.store e w)) →
          t.selfTest.run.map SelfRun.failed = s.selfTest.run.map SelfRun.failed))

/-- The two checks of a taken command before its own: a payload of another length than its kind requires is answered
LENGTH, a state that does not take it is answered STATE, and the command then changes nothing but the link. A kind
that is none of the eleven is answered UNKNOWN, whatever its payload. A transaction that began with EXECUTING is
discarded whatever its kind: nothing is taken, and the link goes on with the command that is executing. In a
command transaction of any kind and length CSO carries 0 at every byte after the link status. Which row a
transaction's bytes make: byte 0 is 1 for a command, whose kind, tag and payload follow; one that ends after its
kind has tag 0 and no payload; one begun with EXECUTING is discarded; of one byte or less, or with a byte 0 that
is neither 1 nor 2, it is a poll. How a row stands for a transaction's bytes is the model's choice (log entry 4). -/
def Obligations.RefusedAndDiscardedCommands : Prop :=
  (∀ (c : Instr) (f : CommandForm) (s : State), commandForm c = some f → commandTaken s = true →
    (f.payload.length ≠ f.length →
      exec c s = .next { s with ctl := answered s.ctl f.kind f.tag .length 0 [] }) ∧
    (f.payload.length = f.length → f.takenIn s.sweep.state = false →
      exec c s = .next { s with ctl := answered s.ctl f.kind f.tag .state 0 [] })) ∧
  (∀ (s : State) (kind tag : Byte) (payload : List Byte), commandTaken s = true →
    (kind = 0 ∨ 12 ≤ kind.toNat) →
    exec (.unknownCommand kind tag payload) s =
      .next { s with ctl := answered s.ctl kind tag .unknown 0 [] }) ∧
  (∀ (c : Instr) (s : State), s.ctl.latched = some .executing →
    ((∃ f, commandForm c = some f) ∨ c = .commandDiscarded ∨
      ∃ kind tag payload, (kind = 0 ∨ 12 ≤ kind.toNat) ∧ c = .unknownCommand kind tag payload) →
    exec c s = .next { s with ctl := { s.ctl with latched := none, polled := false } }) ∧
  (∀ (c : Instr) (s t : State) (n : Nat), ((∃ f, commandForm c = some f) ∨ c = .commandDiscarded ∨
      ∃ kind tag payload, (kind = 0 ∨ 12 ≤ kind.toNat) ∧ c = .unknownCommand kind tag payload) →
    s.ctl.latched.isSome = true → (c = .commandDiscarded → s.ctl.latched = some .executing) → exec c s = .next t →
    s.ctl.cso.length ≤ n → t.ctl.cso = s.ctl.cso ∧ csoByte t n = 0) ∧
  ∀ status : LinkStatus,
    (status ≠ .executing →
      (∀ (c : Instr) (f : CommandForm), commandForm c = some f →
        transactionRow status (1 :: f.kind :: f.tag :: f.payload) = c) ∧
      (∀ (kind tag : Byte) (payload : List Byte), (kind = 0 ∨ 12 ≤ kind.toNat) →
        transactionRow status (1 :: kind :: tag :: payload) = .unknownCommand kind tag payload) ∧
      ∀ kind : Byte, transactionRow status [1, kind] = transactionRow status [1, kind, 0]) ∧
    (∀ (kind : Byte) (rest : List Byte),
      transactionRow .executing (1 :: kind :: rest) = .commandDiscarded ∧
      transactionRow status (2 :: kind :: rest) = .replyTransaction (1 + rest.length) ∧
      ∀ first : Byte, first ≠ 1 → first ≠ 2 → transactionRow status (first :: kind :: rest) = .replyTransaction 0) ∧
    (∀ bytes : List Byte, bytes.length ≤ 1 → transactionRow status bytes = .replyTransaction 0)

/-- CONFIGURE with every refuse field in range puts the clamped record in force, whole, and is answered DONE or CLAMPED
with the number of changed fields; otherwise it is answered RANGE with the first refused field's number and changes
nothing. The refuse fields are checked in number order, each against its bounds, as the payload's bytes give them. Every
field of the record, clamp, bias and fill fields included, is read from its bytes of the payload, most significant
byte first. A clamp field in its range is kept, one below it takes the lower end and one above it the upper end, Z, J
and A_min rounded down to their multiple after that, and no other field changes; the number of changed fields counts
the clamp fields whose value has changed. A clamped record is in the ranges of R170, and clamping it again changes
nothing. -/
def Obligations.ConfigureIsWholeOrNothing : Prop :=
  (∀ (s : State) (tag : Byte) (payload : List Byte), commandTaken s = true → payload.length = 64 →
    (s.sweep.state = .idle ∨ s.sweep.state = .done) →
    (∀ n, changedFields (parseConfiguration payload).values (clampConfiguration (parseConfiguration payload).values) = n →
      (∀ check ∈ refuseChecks (parseConfiguration payload), check.2 = true) →
      exec (.configure tag payload) s =
        .next { s with
          config := clampConfiguration (parseConfiguration payload).values
          ctl := answered s.ctl 1 tag (if n = 0 then .done else .clamped) n [] }) ∧
    (∀ (before after : List (Nat × Bool)) (field : Nat),
      refuseChecks (parseConfiguration payload) = before ++ (field, false) :: after →
      (∀ check ∈ before, check.2 = true) →
      exec (.configure tag payload) s = .next { s with ctl := answered s.ctl 1 tag .range field [] })) ∧
  (∀ (payload : List Byte) (n : Nat → Nat → Nat), n = bytesNat payload →
    (refuseChecks (parseConfiguration payload)).map Prod.fst = [1, 2, 3, 4, 5, 6, 7, 8, 9, 10, 11, 14, 15] ∧
    ∀ (field : Nat) (ok : Bool), (field, ok) ∈ refuseChecks (parseConfiguration payload) →
      (field = 1 → (ok = true ↔ 320 ≤ n 0 2 ∧ n 0 2 ≤ 1280 ∧ n 0 2 % 16 = 0)) ∧
      (field = 2 → (ok = true ↔ 240 ≤ n 2 2 ∧ n 2 2 ≤ 960 ∧ n 2 2 % 8 = 0)) ∧
      (field = 3 → (ok = true ↔ n 4 1 ≤ 128 ∧ n 4 1 % 4 = 0 ∧ 2 * n 4 1 + 128 ≤ n 2 2)) ∧
      (field = 4 → (ok = true ↔ 256 ≤ n 5 2 ∧ n 5 2 ≤ 16383)) ∧
      (field = 5 → (ok = true ↔
        n 7 1 = 0 ∨ (n 7 1 = 1 ∧ 1266 ≤ n 5 2 ∧ (20736000 + n 5 2 - 1) / n 5 2 % 2 = 0))) ∧
      (field = 6 → (ok = true ↔ n 7 1 = 1 ∨ (n 0 2 + 128 ≤ n 8 2 ∧ n 8 2 ≤ 16384 ∧ n 8 2 % 16 = 0))) ∧
      (field = 7 → (ok = true ↔ n 10 2 ∈ [250, 500, 1000, 2000])) ∧
      (field = 8 → (ok = true ↔ n 12 1 ∈ [1, 4, 16, 64])) ∧
      (field = 9 → (ok = true ↔
        n 13 2 ≤ 4095 ∧ 6000 ≤ n 12 1 * (n 13 2 + 1) ∧ n 12 1 * (n 13 2 + 1) ≤ 96000)) ∧
      (field = 10 → (ok = true ↔ n 15 1 % 4 ≤ 2 ∧ n 15 1 / 8 % 4 ≤ 2 ∧ n 15 1 % 4 ≠ n 15 1 / 8 % 4)) ∧
      (field = 11 → (ok = true ↔ n 16 1 ≤ 1)) ∧
      (field = 14 → (ok = true ↔ n 21 1 ∈ [8, 16, 32, 64])) ∧
      (field = 15 → (ok = true ↔ n 22 1 ≤ 1))) ∧
  (∀ (payload : List Byte) (n : Nat → Nat → Nat) (values : Configuration), payload.length = 64 → n = bytesNat payload →
    values = (parseConfiguration payload).values →
    (∀ pos len, n pos 0 = 0 ∧
      (pos + len < 64 → n pos (len + 1) = n pos len * 256 + (payload.getD (pos + len) 0).toNat)) ∧
    values.frameWidth = n 0 2 ∧ values.frameHeight = n 2 2 ∧ values.margin = n 4 1 ∧ values.columnAngle = n 5 2 ∧
    (values.mode = .ring ↔ n 7 1 = 1) ∧ values.canvasWidth = n 8 2 ∧ values.fsr = n 10 2 ∧ values.prescale = n 12 1 ∧
    values.sampleCount = n 13 2 ∧
    (n 15 1 % 4 ≤ 2 → n 15 1 / 8 % 4 ≤ 2 → n 15 1 % 4 ≠ n 15 1 / 8 % 4 →
      values.axisMap = ⟨[Axis.x, .y, .z].getD (n 15 1 % 4) .x, decide (n 15 1 / 4 % 2 = 1),
        [Axis.x, .y, .z].getD (n 15 1 / 8 % 4) .x, decide (n 15 1 / 32 % 2 = 1)⟩) ∧
    (values.biasMode = .fixed ↔ n 16 1 = 1) ∧ values.biasYaw = signedAt payload 17 2 ∧
    values.biasPitch = signedAt payload 19 2 ∧ values.blend = n 21 1 ∧ (values.serviceOrder = .rotate ↔ n 22 1 = 1) ∧
    values.motionLatency = n 23 2 ∧ values.captureLatency = n 25 3 ∧ values.stillThreshold = n 28 2 ∧
    values.motionWait = n 30 1 ∧ values.searchRange = n 31 1 ∧ values.minPatches = n 32 1 ∧ values.sadLimit = n 33 2 ∧
    values.sadMargin = n 35 2 ∧ values.textureThreshold = n 37 3 ∧ values.seamReach = n 40 2 ∧
    values.jumpLimit = n 42 1 ∧ values.minOverlap = n 43 2 ∧ values.minAdvance = n 45 2 ∧
    values.closureTolerance = n 47 1 ∧ values.sweepTimeLimit = n 48 4 ∧ values.fetchWaitLimit = n 52 4 ∧
    values.fill = ⟨payload.getD 56 0, payload.getD 57 0, payload.getD 58 0⟩) ∧
  ∀ c d : Configuration, c.blend ∈ [8, 16, 32, 64] → d = clampConfiguration c →
    d = { c with
      motionLatency := min c.motionLatency 65535
      captureLatency := min c.captureLatency 1048575
      stillThreshold := max 1 (min c.stillThreshold 4096)
      motionWait := max 1 (min c.motionWait 16)
      searchRange := max 4 (min c.searchRange 32)
      minPatches := max 1 (min c.minPatches 8)
      sadLimit := max 256 (min c.sadLimit 65280)
      sadMargin := min c.sadMargin 4096
      textureThreshold := min c.textureThreshold 131071
      seamReach := max c.blend (min c.seamReach 256) / 4 * 4
      jumpLimit := min c.jumpLimit 64 / 4 * 4
      minOverlap := max 16 (min c.minOverlap 512)
      minAdvance := max 2 (min c.minAdvance 256) / 2 * 2
      closureTolerance := min c.closureTolerance 32
      sweepTimeLimit := max 24000000 (min c.sweepTimeLimit 1440000000)
      fetchWaitLimit := min c.fetchWaitLimit 24000000 } ∧
    changedFields c d = ([d.motionLatency ≠ c.motionLatency, d.captureLatency ≠ c.captureLatency,
      d.stillThreshold ≠ c.stillThreshold, d.motionWait ≠ c.motionWait, d.searchRange ≠ c.searchRange,
      d.minPatches ≠ c.minPatches, d.sadLimit ≠ c.sadLimit, d.sadMargin ≠ c.sadMargin,
      d.textureThreshold ≠ c.textureThreshold, d.seamReach ≠ c.seamReach, d.jumpLimit ≠ c.jumpLimit,
      d.minOverlap ≠ c.minOverlap, d.minAdvance ≠ c.minAdvance, d.closureTolerance ≠ c.closureTolerance,
      d.sweepTimeLimit ≠ c.sweepTimeLimit, d.fetchWaitLimit ≠ c.fetchWaitLimit] : List Bool).countP id ∧
    d.motionLatency ≤ 65535 ∧ d.captureLatency ≤ 1048575 ∧ 1 ≤ d.stillThreshold ∧ d.stillThreshold ≤ 4096 ∧
    1 ≤ d.motionWait ∧ d.motionWait ≤ 16 ∧ 4 ≤ d.searchRange ∧ d.searchRange ≤ 32 ∧ 1 ≤ d.minPatches ∧
    d.minPatches ≤ 8 ∧ 256 ≤ d.sadLimit ∧ d.sadLimit ≤ 65280 ∧ d.sadMargin ≤ 4096 ∧ d.textureThreshold ≤ 131071 ∧
    d.blend ≤ d.seamReach ∧ d.seamReach ≤ 256 ∧ d.seamReach % 4 = 0 ∧ d.jumpLimit ≤ 64 ∧ d.jumpLimit % 4 = 0 ∧
    16 ≤ d.minOverlap ∧ d.minOverlap ≤ 512 ∧ 2 ≤ d.minAdvance ∧ d.minAdvance ≤ 256 ∧ d.minAdvance % 2 = 0 ∧
    d.closureTolerance ≤ 32 ∧ 24000000 ≤ d.sweepTimeLimit ∧ d.sweepTimeLimit ≤ 1440000000 ∧
    d.fetchWaitLimit ≤ 24000000 ∧ clampConfiguration d = d

/-- ARM in IDLE or DONE: the sweep record, the motion unit, the slots, the placement, registration and compositing
state take their values after ARM, the flags are cleared and the sweep fill is the configured one; the DRAM, the
corrected count, the attention unit and the configuration are kept, and no request of the ingest unit or the
engine waits. At the fetch port, for each requester: a transfer of the old canvas ends with an ERROR NO_SWEEP
header, or with its ending burst if that is on the bus; a held request for it is stale; a guide record transfer
goes on. That ARM empties the sent end requests, sets the slots FREE without a fate and copies the configuration
for the sweep are the model's readings (log entries 11, 17 and 29); that the last integrated time is 0 and the
strobe time absent is its choice (log entry 40); the next item after the last of a pass, and that the DATA_LAST of
a repeating transfer with a request held ends it with no header, are its readings (log entries 31 and 41), and the
lists of words left to read are its own (log entry 26). -/
def Obligations.ArmStartsASweep : Prop :=
  ∀ (s : State) (tag : Byte), commandTaken s = true → (s.sweep.state = .idle ∨ s.sweep.state = .done) →
    ∃ t, exec (.arm tag []) s = .next t ∧
      t.timeBase = s.timeBase ∧ t.inReset = s.inReset ∧ t.config = s.config ∧ t.sweepCfg = s.config ∧
      t.sweep = { SweepControl.reset with state := .armed } ∧
      t.motion = { s.motion with
        clockRunning := true, armTime := s.timeBase, strobes := 0, strobeTime := none, missCount := 0, goodCount := 0
        link := .sampling, integ := Integrator.zero, ring := [], yawWindow := [], pitchWindow := [], goodSinceArm := 0
        biasYaw := if s.config.biasMode = .fixed then s.config.biasYaw else 0
        biasPitch := if s.config.biasMode = .fixed then s.config.biasPitch else 0
        biasSource := if s.config.biasMode = .fixed then .fixed else .pending } ∧
      t.ingest = { s.ingest with
        port := if s.ingest.port = .low then .low else .ignored
        slots := s.ingest.slots.map fun slot => { slot with state := .free }
        queue := [], lines := [], seqRef := none, openingAssigned := false } ∧
      t.place = Placement.reset ∧ t.reg = Registration.reset ∧ t.comp = Compositor.initial s.config ∧
      t.store = { s.store with coverage := [], computed := [], fill := s.config.fill } ∧
      t.ctl = answered s.ctl 2 tag .done 0 [] ∧ t.attn = s.attn ∧ t.selfTest.result = s.selfTest.result ∧
      asksWithdrawn t.arb ∧ canvasDiscarded s t

/-- What a canvas discard does at the fetch port, for each requester: a held request for the canvas becomes stale; a
transfer of the canvas whose ending burst is not on the bus ends with an ERROR NO_SWEEP header posted with the
next item's index; one whose ending burst is on the bus goes on to end with that burst, with nothing posted for
it, and any transfer of another kind, the guide record's, goes on as it was. The next item after the last of a
pass is the model's reading (log entry 31), and so is that the DATA_LAST on the bus of a repeating transfer with a
request held is its ending burst (log entry 41). -/
def Obligations.CanvasDiscardAtTheFetchPort : Prop :=
  ∀ (s : State) (r : Requester) (t : State), t = discardFetch s →
    (sideOf t.fetch r).held = (sideOf s.fetch r).held.map (fun h => (h.1, h.2 || sweepKind h.1.kind)) ∧
    t.fetch.bus = s.fetch.bus ∧ t.attn = s.attn ∧ t.store = s.store ∧ t.sweep = s.sweep ∧
    ∀ x, (sideOf s.fetch r).transfer = some x →
      (sweepKind x.req.kind = true →
        endingOnBus s.fetch r (x.req.again && (sideOf s.fetch r).held.isNone) = false →
        (sideOf t.fetch r).posted = some ⟨r, .errorNoSweep, nextItem x, []⟩ ∧ (sideOf t.fetch r).waitStart = none) ∧
      (sweepKind x.req.kind = true →
        endingOnBus s.fetch r (x.req.again && (sideOf s.fetch r).held.isNone) = true →
        (sideOf t.fetch r).posted = (sideOf s.fetch r).posted ∧ (sideOf t.fetch r).transfer = some x ∧
        (sideOf t.fetch r).phase = (sideOf s.fetch r).phase) ∧
      (sweepKind x.req.kind = false →
        (sideOf t.fetch r).posted = (sideOf s.fetch r).posted ∧ (sideOf t.fetch r).transfer = some x)

/-- START in ARMED sets open pending, whether or not it is set already, and is answered DONE; in every other state it is
answered STATE. Nothing else changes. -/
def Obligations.StartSetsOpenPending : Prop :=
  ∀ (s : State) (tag : Byte), commandTaken s = true →
    exec (.start tag []) s =
      if s.sweep.state = .armed then
        .next { s with sweep := { s.sweep with openPending := true }, ctl := answered s.ctl 3 tag .done 0 [] }
      else .next { s with ctl := answered s.ctl 3 tag .state 0 [] }

/-- STOP by state: in ARMED back to IDLE with the sample clock stopped; in OPEN, DRAINING with last reason STOPPED and the
time limit cancelled, and then the drain-completion test: with a frame still FILLING, QUEUED or ENGAGED it does
nothing; with every slot FREE and nothing queued the state is DONE at once, motion sampling stopped and the closing
work begun; with a slot HELD and no other occupied, that slot is ENGAGED, the direction +1 and, the compositor free,
strip 0 is composited from the saved poses; in DRAINING no effect; each answered DONE. Everything else is as before,
every byte of the DRAM included. That the line buffer's lines go at the entry to DONE is the model's reading (log
entry 44). -/
def Obligations.StopByState : Prop :=
  ∀ (s : State) (tag : Byte), commandTaken s = true →
    (s.sweep.state = .armed →
      ∃ t, exec (.stop tag []) s = .next t ∧
        settlesTo { s with
          sweep := { s.sweep with state := .idle, openPending := false }
          motion := { s.motion with clockRunning := false, link := .off, tx := stoppedTransaction s.motion.tx }
          ctl := answered s.ctl 4 tag .done 0 [] } t) ∧
    (s.sweep.state = .opened →
      (s.ingest.queue ≠ [] ∨ anySlot s.ingest.slots .filling = true ∨ anySlot s.ingest.slots .engaged = true) →
      ∃ t, exec (.stop tag []) s = .next t ∧
        settlesTo { s with
          sweep := { s.sweep with state := .draining, lastReason := .stopped, limitRunning := false }
          ctl := answered s.ctl 4 tag .done 0 [] } t) ∧
    (∀ u : State, s.sweep.state = .opened →
      u = { s with
        sweep := { s.sweep with state := .draining, lastReason := .stopped, limitRunning := false }
        ctl := answered s.ctl 4 tag .done 0 [] } →
      ∃ t, exec (.stop tag []) s = .next t ∧ settlesTo (drainTest u) t ∧
        drainsAtOnce u t) ∧
    (s.sweep.state = .draining →
      ∃ t, exec (.stop tag []) s = .next t ∧ settlesTo { s with ctl := answered s.ctl 4 tag .done 0 [] } t)

/-- ABORT is answered DONE in every state. In INIT, TEST and IDLE it changes nothing; in the others the state is IDLE
with last reason ABORTED, every occupied slot is FREE and counted as discarded, the engine stops, the flags are
cleared, motion sampling stops, no request of the ingest unit or the engine waits, and the configuration, the
other counters, the fronts, trims, strips, closure result, guide record, DRAM and attention unit are kept. At the
fetch port, for each requester: a transfer of the canvas ends with an ERROR NO_SWEEP header, or with its ending
burst if that is on the bus; a held request for it is stale; a guide record transfer goes on. The next item after
the last of a pass, and that the DATA_LAST of a repeating transfer with a request held ends it with no header, are
the model's readings (log entries 31 and 41), and the lists of words left to read are its own (log entry 26). -/
def Obligations.AbortByState : Prop :=
  ∀ (s : State) (tag : Byte), commandTaken s = true →
    ((s.sweep.state = .init ∨ s.sweep.state = .test ∨ s.sweep.state = .idle) →
      ∃ t, exec (.abort tag []) s = .next t ∧ settlesTo { s with ctl := answered s.ctl 5 tag .done 0 [] } t) ∧
    ((s.sweep.state = .armed ∨ s.sweep.state = .opened ∨ s.sweep.state = .draining ∨ s.sweep.state = .done) →
      ∃ t, exec (.abort tag []) s = .next t ∧
        t.timeBase = s.timeBase ∧ t.config = s.config ∧ t.sweepCfg = s.sweepCfg ∧
        t.sweep = { s.sweep with
          state := .idle, lastReason := .aborted, openPending := false, limitRunning := false
          counters := { s.sweep.counters with
            discarded := holdCount (s.sweep.counters.discarded + occupiedSlots s.ingest.slots) } } ∧
        t.motion = { s.motion with clockRunning := false, link := .off, tx := stoppedTransaction s.motion.tx } ∧
        t.ingest = { s.ingest with
          port := if s.ingest.port = .low then .low else .ignored
          slots := s.ingest.slots.map fun slot => { slot with state := .free }
          queue := [], lines := [] } ∧
        t.place = { s.place with state := .ready, work := none, saved := none } ∧
        t.reg = ⟨.idle, [], [], false⟩ ∧
        t.comp = { s.comp with
          state := .ready, job := none, waiting := none, pendingReanchor := none, todo := [], halted := false } ∧
        t.store = { s.store with coverage := [], computed := [] } ∧
        t.ctl = answered s.ctl 5 tag .done 0 [] ∧ t.attn = s.attn ∧ t.selfTest.result = s.selfTest.result ∧
        asksWithdrawn t.arb ∧ canvasDiscarded s t)

/-- QUERY is taken in every state, answers DONE with the status snapshot, 108 bytes of it, and changes only the link.
The snapshot lays out the state as 10.4 says: the codes of state, last reason, direction, bias source and self-
test result, the six presence marks, the times, angles, trims, fronts and errors (0 where absent), the strip
count, both attention sets and the thirteen counters in their order; a field is as stated here whenever its value
fits it. What a field shows for a value that does not fit it is free (log entry 8), and the closure mark after a
closing strip without a closure error is the model's choice (log entry 38). -/
def Obligations.QueryReturnsTheSnapshot : Prop :=
  ∀ (s : State) (tag : Byte) (p : List Byte), p = statusSnapshot s →
    (commandTaken s = true → exec (.query tag []) s = .next { s with ctl := answered s.ctl 6 tag .done 0 p }) ∧
    p.length = 108 ∧
    p.getD 0 0 = (match s.sweep.state with
      | .init => 0 | .test => 1 | .idle => 2 | .armed => 3 | .opened => 4 | .draining => 5 | .done => 6) ∧
    p.getD 1 0 = (match s.sweep.lastReason with
      | .unset => 0 | .stopped => 1 | .timeLimit => 2 | .extent => 3 | .closed => 4 | .stripsFull => 5
      | .fault => 6 | .aborted => 7) ∧
    (∀ i, i < 8 → (p.getD 2 0).getLsbD i =
      [s.sweep.openPending, s.sweep.openTime.isSome, s.place.originYaw.isSome, s.comp.clean.isSome,
        s.comp.closureError.isSome, s.comp.closurePoor, false, false].getD i false) ∧
    p.getD 3 0 = (match s.place.direction with | .unknown => 0 | .plus => 1 | .minus => 2) ∧
    bytesNat p 4 4 = (s.sweep.openTime.getD 0).toNat ∧
    p.getD 24 0 = (match s.motion.biasSource with | .fixed => 0 | .pending => 1 | .estimated => 2 | .fallback => 3) ∧
    p.getD 25 0 = (match s.selfTest.result with
      | .passed => 0 | .failed n => BitVec.ofNat 8 n | .running => 254 | .notRun => 255) ∧
    (∀ f ∈ [(8, 6, s.place.originYaw.getD 0), (14, 6, s.place.originPitch.getD 0), (20, 2, s.motion.biasYaw),
        (22, 2, s.motion.biasPitch), (26, 6, s.comp.trimYaw), (32, 6, s.comp.trimPitch), (38, 4, s.comp.front),
        (42, 4, s.comp.settled), (46, 4, s.comp.clean.getD 0), (52, 1, (s.comp.closureError.map Prod.fst).getD 0),
        (53, 1, (s.comp.closureError.map Prod.snd).getD 0)],
      fitsSigned f.2.1 f.2.2 → signedAt p f.1 f.2.1 = f.2.2) ∧
    (s.comp.strips.length < 65536 → bytesNat p 50 2 = s.comp.strips.length) ∧
    bytesNat p 54 1 = s.attn.pendingSet.toNat ∧ bytesNat p 55 1 = s.attn.enableSet.toNat ∧
    ∀ i n, i < 13 → n < 4294967296 →
      [s.sweep.counters.received, s.sweep.counters.composited, s.sweep.counters.guide, s.sweep.counters.still,
        s.sweep.counters.noAdvance, s.sweep.counters.dropped, s.sweep.counters.truncated, s.sweep.counters.rejected,
        s.sweep.counters.discarded, s.sweep.counters.skipped, s.sweep.counters.samplesMissed,
        s.sweep.counters.motionLosses, s.store.corrected].getD i 0 = n →
      bytesNat p (56 + 4 * i) 4 = n

/-- READ_ATTENTION is taken in every state and answers the code of the highest-priority cause that is pending and
enabled, 0 if there is none; it changes no mark. -/
def Obligations.ReadAttentionAnswersTheFirstCause : Prop :=
  ∀ (s : State) (tag : Byte), commandTaken s = true →
    ∃ code : Nat,
      exec (.readAttention tag []) s =
        .next { s with ctl := answered s.ctl 7 tag .done 0 [BitVec.ofNat 8 code] } ∧
      (code = 0 ↔ ∀ i, i < 7 → (s.attn.pendingSet.getLsbD i && s.attn.enableSet.getLsbD i) = false) ∧
      (code ≠ 0 → code ≤ 7 ∧ (s.attn.pendingSet.getLsbD (code - 1) && s.attn.enableSet.getLsbD (code - 1)) = true ∧
        ∀ i, i + 1 < code → (s.attn.pendingSet.getLsbD i && s.attn.enableSet.getLsbD i) = false) ∧
      (atnHigh s.attn = true ↔ code ≠ 0)

/-- ACK_ATTENTION by its code and the cause: outside 1..7 RANGE 1; a pending latched cause, or MOTION_LOST with the
link not LOST, is cleared; MOTION_LOST with the link LOST is kept and answered STILL_ACTIVE; a cause not pending
is answered DONE with no effect. -/
def Obligations.AckAttentionByCause : Prop :=
  ∀ (s : State) (tag code : Byte), commandTaken s = true →
    ((code.toNat = 0 ∨ 7 < code.toNat) →
      exec (.ackAttention tag [code]) s = .next { s with ctl := answered s.ctl 8 tag .range 1 [] }) ∧
    (∀ i, code.toNat = i + 1 → i < 7 → s.attn.pendingSet.getLsbD i = false →
      exec (.ackAttention tag [code]) s = .next { s with ctl := answered s.ctl 8 tag .done 0 [] }) ∧
    (∀ i, code.toNat = i + 1 → i < 7 → s.attn.pendingSet.getLsbD i = true → i = 2 → s.motion.link = .lost →
      exec (.ackAttention tag [code]) s = .next { s with ctl := answered s.ctl 8 tag .stillActive 0 [] }) ∧
    (∀ i, code.toNat = i + 1 → i < 7 → s.attn.pendingSet.getLsbD i = true → ¬(i = 2 ∧ s.motion.link = .lost) →
      ∃ p : BitVec 7,
        exec (.ackAttention tag [code]) s =
          .next { s with
            attn := { s.attn with pendingSet := p }
            ctl := answered s.ctl 8 tag .done 0 [] } ∧
        ∀ j, p.getLsbD j = (s.attn.pendingSet.getLsbD j && decide (j ≠ i)))

/-- SET_ATTENTION, in every state but INIT, replaces the enable set whole by the low seven bits of its payload byte, and
ATN follows: it is high exactly when an enabled cause is pending. After power-on, RESETn and RESET every cause is
enabled but STRIP. In INIT it is refused STATE. -/
def Obligations.SetAttentionReplacesTheEnables : Prop :=
  (∀ (s : State) (tag b : Byte), commandTaken s = true →
    (s.sweep.state ≠ .init →
      ∃ e : BitVec 7,
        exec (.setAttention tag [b]) s =
          .next { s with
            attn := { s.attn with enableSet := e }
            ctl := answered s.ctl 9 tag .done 0 [] } ∧
        (∀ i, i < 7 → e.getLsbD i = b.getLsbD i) ∧
        (atnHigh { s.attn with enableSet := e } = true ↔
          ∃ i, i < 7 ∧ s.attn.pendingSet.getLsbD i = true ∧ b.getLsbD i = true)) ∧
    (s.sweep.state = .init →
      exec (.setAttention tag [b]) s = .next { s with ctl := answered s.ctl 9 tag .state 0 [] })) ∧
  ∀ s : State, ∃ e : BitVec 7, (∀ i, i < 7 → e.getLsbD i = decide (i ≠ 6)) ∧ State.reset.attn.enableSet = e ∧
    (∃ t, exec .powerOn s = .next t ∧ t.attn.enableSet = e) ∧
    (∃ t, exec .resetnAssert s = .next t ∧ t.attn.enableSet = e) ∧
    ∀ tag : Byte, commandTaken s = true → ∃ t, exec (.reset tag []) s = .next t ∧ t.attn.enableSet = e

/-- SELFTEST in IDLE or DONE: the state is TEST, the result RUNNING, the link stays EXECUTING with the command in its
slot, the counts, the integrator, the ring, the windows and the patch tables are emptied, the line buffer is free,
the engine and the closing work stop, with none of their requests waiting; the last reason, the counters and the
other fields of the sweep record are kept. At the fetch port, for each requester: a transfer of the canvas ends
with an ERROR NO_SWEEP header, or with its ending burst if that is on the bus; a held request for it is stale; a
guide record transfer goes on. That the last integrated time is 0 is the model's choice (log entry 40); the next
item after the last of a pass, and that the DATA_LAST of a repeating transfer with a request held ends it with no
header, are its readings (log entries 31 and 41), and the lists of words left to read are its own (log entry 26). -/
def Obligations.SelftestBegins : Prop :=
  ∀ (s : State) (tag : Byte), commandTaken s = true → (s.sweep.state = .idle ∨ s.sweep.state = .done) →
    ∃ t, exec (.selftest tag []) s = .next t ∧
      t.timeBase = s.timeBase ∧ t.config = s.config ∧ t.sweepCfg = s.sweepCfg ∧
      t.sweep = { s.sweep with state := .test } ∧
      t.motion = { s.motion with
        clockRunning := false, link := .off, tx := stoppedTransaction s.motion.tx
        missCount := 0, goodCount := 0, integ := Integrator.zero, ring := [], yawWindow := [], pitchWindow := []
        goodSinceArm := 0 } ∧
      t.ingest = { s.ingest with lines := [] } ∧ asksWithdrawn t.arb ∧ canvasDiscarded s t ∧
      t.place = { s.place with state := .ready, work := none, saved := none } ∧
      t.reg = Registration.reset ∧
      t.comp = { s.comp with
        state := .ready, job := none, waiting := none, pendingReanchor := none, todo := [], halted := false } ∧
      t.store = s.store ∧ t.attn = s.attn ∧
      t.ctl = { latched := none, command := some (10, tag), reply := none, cso := s.ctl.cso, polled := false } ∧
      linkStatus t.ctl = .executing ∧ t.selfTest.result = .running

/-- A reply transaction: one that began with REPLY_READY shifts out the first bytes of the reply, as many as are
clocked, and 0 beyond the reply's end, and empties the reply slot however much was clocked; one that began
otherwise shifts out 0 and keeps it. A poll changes nothing but ends the transaction. At the fall of CCSn the link
status is latched and shifted out as the first byte: EXECUTING while the command slot holds a command, else
REPLY_READY while the reply slot holds a reply, else NO_REPLY; while RESETn is low nothing happens. A reply is the tag,
the kind, the code of its result, its detail, the length of its payload in two bytes, most significant first, and its
payload. The operand that counts the clocked bytes and what stands for a poll are the model's choices (log entry 4). -/
def Obligations.StatusAndReplyTransactions : Prop :=
  (∀ (r : Reply) (p : List Byte), p = replyBytes r →
    p.length = 6 + r.payload.length ∧ p.getD 0 0 = r.tag ∧ p.getD 1 0 = r.kind ∧
    p.getD 2 0 = (match r.result with
      | .done => 0 | .clamped => 1 | .state => 2 | .range => 3 | .stillActive => 4 | .unknown => 5 | .length => 6) ∧
    (r.detail < 256 → bytesNat p 3 1 = r.detail) ∧
    (r.payload.length < 65536 → bytesNat p 4 2 = r.payload.length) ∧
    ∀ i, p.getD (6 + i) 0 = r.payload.getD i 0) ∧
  (∀ (s : State) (clocked : Nat) (status : LinkStatus), s.ctl.latched = some status →
    exec (.replyTransaction 0) s = .next { s with ctl := { s.ctl with latched := none, polled := true } } ∧
    (clocked ≠ 0 → ∀ r, status = .replyReady → s.ctl.reply = some r →
      ∃ t, exec (.replyTransaction clocked) s = .next t ∧
        t = { s with ctl := { s.ctl with
          latched := none, reply := none, cso := s.ctl.cso ++ (replyBytes r).take clocked, polled := false } } ∧
        (∀ n, n < s.ctl.cso.length → csoByte t n = csoByte s n) ∧
        ∀ i, i < clocked → csoByte t (s.ctl.cso.length + i) = (replyBytes r).getD i 0) ∧
    (clocked ≠ 0 → status ≠ .replyReady →
      ∃ t, exec (.replyTransaction clocked) s = .next t ∧
        t = { s with ctl := { s.ctl with latched := none, polled := false } } ∧
        ∀ n, s.ctl.cso.length ≤ n → csoByte t n = 0)) ∧
  ∀ s : State,
    (s.inReset = true → exec .transactionStart s = .next s) ∧
    (s.inReset = false → ∀ (status : LinkStatus) (code : Byte),
      ((s.ctl.command.isSome = true ∧ status = .executing ∧ code = 2) ∨
        (s.ctl.command = none ∧ s.ctl.reply.isSome = true ∧ status = .replyReady ∧ code = 1) ∨
        (s.ctl.command = none ∧ s.ctl.reply = none ∧ status = .noReply ∧ code = 0)) →
      exec .transactionStart s =
        .next { s with ctl := { s.ctl with latched := some status, cso := [code], polled := false } })

/-! ## The sweep's end -/

/-- The sweep time limit expires in OPEN: the time base stands at the limit (or where it is, if the limit is past), the
state is DRAINING with last reason TIME_LIMIT, and the drain-completion test follows: with a frame still FILLING,
QUEUED or ENGAGED nothing else changes; with every slot FREE and nothing queued the state is DONE at once, motion
sampling stopped and the closing work begun; with a slot HELD and no other occupied, that slot is ENGAGED, the
direction +1 and, the compositor free, strip 0 is composited from the saved poses. In every other state, or with the
limit cancelled, the expiry does not happen. That the event itself moves the time base, and that an event which
cannot happen changes nothing, are the model's choices (log entries 2 and 3); that the line buffer's lines go at the
entry to DONE is its reading (log entry 44). -/
def Obligations.TimeLimitBeginsTheDrain : Prop :=
  ∀ (s : State) (openTime due : Time),
    due = openTime + BitVec.ofNat 32 s.sweepCfg.sweepTimeLimit → s.sweep.openTime = some openTime →
    (s.sweep.state = .opened → s.sweep.limitRunning = true →
      (s.ingest.queue ≠ [] ∨ anySlot s.ingest.slots .filling = true ∨ anySlot s.ingest.slots .engaged = true) →
      ∃ t, exec .sweepTimeLimit s = .next t ∧
        settlesTo { s with
          timeBase := if 0 < (due - s.timeBase).toInt then due else s.timeBase
          sweep := { s.sweep with state := .draining, lastReason := .timeLimit, limitRunning := false } } t) ∧
    (∀ u : State, s.sweep.state = .opened → s.sweep.limitRunning = true →
      u = { s with
        timeBase := if 0 < (due - s.timeBase).toInt then due else s.timeBase
        sweep := { s.sweep with state := .draining, lastReason := .timeLimit, limitRunning := false } } →
      ∃ t, exec .sweepTimeLimit s = .next t ∧ settlesTo (drainTest u) t ∧ drainsAtOnce u t) ∧
    ((s.sweep.state ≠ .opened ∨ s.sweep.limitRunning = false) → exec .sweepTimeLimit s = .next s)

/-- An end request that a block has sent is taken: in OPEN the state is DONE with the request's reason, in DRAINING it
is DONE with the drain's reason, or FAULT if the reason is FAULT; every occupied slot is FREE and counted as
discarded, the time limit and motion sampling stop, S is F, the engine's frame and the pending re-anchor are
dropped and the closing work begins. A stall of requester 0 is tested again. A preview update in progress is
absorbed by the closing work: a write of it in progress that could have moved pixels it had left can still have
moved them. In every other state the request only goes. That a sent request is matched in a list until it is taken
is the model's reading (log entry 11), that the closing work is formed at the entry to DONE is its choice (log
entry 16), that the line buffer is free there is its reading (log entry 44), and so is that the ERROR RANGE of a strip
which now never comes follows its WAITING header where that is still posted (log entry 23); the lists of words left to
read are its own (log entry 26). -/
def Obligations.EndRequestEndsTheSweep : Prop :=
  ∀ (s : State) (reason : EndReason), reason ∈ s.sweep.endRequests →
    ((s.sweep.state = .opened ∨ s.sweep.state = .draining) →
      ∃ t, exec (.endRequest reason) s = .next t ∧
        t.sweep = { s.sweep with
          state := .done
          lastReason :=
            match reason with
            | .fault => .fault
            | .extent => if s.sweep.state = .opened then .extent else s.sweep.lastReason
            | .closed => if s.sweep.state = .opened then .closed else s.sweep.lastReason
            | .stripsFull => if s.sweep.state = .opened then .stripsFull else s.sweep.lastReason
          limitRunning := false
          counters := { s.sweep.counters with
            discarded := holdCount (s.sweep.counters.discarded + occupiedSlots s.ingest.slots) }
          endRequests := s.sweep.endRequests.erase reason } ∧
        t.motion = { s.motion with clockRunning := false, link := .off, tx := stoppedTransaction s.motion.tx } ∧
        t.ingest = { s.ingest with
          port := if s.ingest.port = .low then .low else .ignored
          slots := s.ingest.slots.map fun slot => { slot with state := .free }
          queue := [], lines := [] } ∧
        t.place = { s.place with state := .ready, work := none, saved := none } ∧
        t.reg = { s.reg with state := .idle, openingHarvest := false } ∧
        t.comp = { s.comp with
          state := .closing, settled := s.comp.front, job := none, waiting := none, pendingReanchor := none
          halted := false
          todo := previewUnits s.sweepCfg s.store (closingColumns s.sweepCfg s.store) } ∧
        t.store = s.store ∧ t.ctl = s.ctl ∧ t.attn = s.attn ∧ t.timeBase = s.timeBase ∧ t.config = s.config ∧
        stallRetested s t ∧
        ∀ (late : List WriteUnit) (areas : List MoveArea) (left : List Nat) (addr len : Nat), s.comp.state = .updating →
          s.arb.inProgress = some (.engine .compositor true late areas) → s.arb.compReads = some left →
          moveFits .compositor true late areas (.write addr len) s = true →
          (∀ u, u ∈ unitsWithin addr len (previewUnits s.sweepCfg s.store (closingColumns s.sweepCfg s.store)) ↔
            u ∈ unitsWithin addr len s.comp.todo) →
          t.arb.inProgress = some (.engine .compositor true s.comp.todo areas) ∧
          moveFits .compositor true s.comp.todo areas (.write addr len) t = true) ∧
    ((s.sweep.state ≠ .opened ∧ s.sweep.state ≠ .draining) →
      ∃ t, exec (.endRequest reason) s = .next t ∧
        settlesTo { s with sweep := { s.sweep with endRequests := s.sweep.endRequests.erase reason } } t)

/-- The drain-completion test of R15: in DRAINING with the queue empty and no slot FILLING or ENGAGED, the state
becomes DONE, the last reason kept and the line buffer free, unless a slot is HELD: that slot is ENGAGED, the
direction is +1 and, the compositor free, strip 0 is composited from the saved poses. With a slot FILLING, QUEUED
or ENGAGED, or in another state, nothing happens. The end of the drain after the hand-over of strip 0, and the
line buffer's lines that go at the entry to DONE, are the model's readings (log entries 13 and 44). -/
def Obligations.DrainCompletion : Prop :=
  ∀ s : State,
    (s.sweep.state = .draining → s.ingest.queue = [] →
      (∀ slot ∈ s.ingest.slots, slot.state = .free) →
      (drainTest s).sweep = { s.sweep with state := .done, limitRunning := false } ∧
      (drainTest s).comp.state = .closing ∧ (drainTest s).comp.settled = s.comp.front ∧
      (drainTest s).motion.clockRunning = false ∧ (drainTest s).motion.link = .off ∧
      (drainTest s).ingest = { s.ingest with lines := [] } ∧ (drainTest s).arb.ingestWait = none ∧
      (drainTest s).store = s.store) ∧
    (∀ (i : Nat) (saved : SavedPoses), s.sweep.state = .draining → s.ingest.queue = [] →
      (∀ j, slotState s.ingest.slots j = if j = i then .held else .free) → i < s.ingest.slots.length →
      s.place.saved = some saved → s.comp.state = .ready →
      slotState (drainTest s).ingest.slots i = .engaged ∧ (drainTest s).place.direction = .plus ∧
      (drainTest s).comp.state = .compositing ∧
      ((drainTest s).comp.job.map fun j => (j.strip0, j.slot, j.xC, j.yP)) = some (true, i, originColumn s.sweepCfg, 0) ∧
      (drainTest s).sweep = s.sweep ∧ (drainTest s).store = s.store) ∧
    ((s.sweep.state ≠ .draining ∨ s.ingest.queue ≠ [] ∨ anySlot s.ingest.slots .filling = true ∨
      anySlot s.ingest.slots .engaged = true) → drainTest s = s)

/-! ## Frames -/

/-- FV rises: the frame's arrival time is the time base, and its header is awaited; in INIT or TEST, or while RESETn is
low, the frame is ignored. Nothing else changes. -/
def Obligations.FrameStartRecordsTheArrival : Prop :=
  ∀ s : State, s.ingest.port = .low →
    exec .frameStart s =
      .next { s with ingest := { s.ingest with
        port := if s.inReset ∨ s.sweep.state = .init ∨ s.sweep.state = .test then .ignored else .header s.timeBase } }

/-- A header that fits the sweep's geometry and finds a FREE slot is admitted in OPEN: it is counted as received, its
gap as skipped, its number becomes the reference, and the lowest-numbered FREE slot is FILLING with the header's
record. If it carries the STOP mark the state is DRAINING with last reason STOPPED and the time limit cancelled,
and its frame goes on. Nothing else changes. A header line of fewer than 16 words has no record; the record's words
are the sequence number, the width, the height, the exposure time with the high byte of the word after it, the marks
START, STOP and GUIDE in bits 0 to 2 of that word, and the row period. The drain-completion test that follows a header
with the STOP mark is the model's reading (log entry 25). -/
def Obligations.AdmittedHeaderTakesTheLowestFreeSlot : Prop :=
  (∀ (words : List Half) (w : Nat → Half), (∀ i, w i = words.getD i 0) →
    (words.length < 16 → parseHeader words = none) ∧
    (16 ≤ words.length → ∃ h, parseHeader words = some h ∧ h.seq = w 0 ∧ h.width = (w 1).toNat ∧
      h.height = (w 2).toNat ∧ h.exposure = (w 3).toNat * 256 + (w 4).toNat / 256 ∧ h.rowPeriod = (w 5).toNat ∧
      h.startMark = (w 4).getLsbD 0 ∧ h.stopMark = (w 4).getLsbD 1 ∧ h.guideMark = (w 4).getLsbD 2)) ∧
  ∀ (s : State) (words : List Half) (h : Header) (tSof : Time) (i : Nat),
    s.ingest.port = .header tSof → s.sweep.state = .opened → parseHeader words = some h →
    h.width = s.sweepCfg.frameWidth → h.height = s.sweepCfg.frameHeight →
    i < s.ingest.slots.length → slotState s.ingest.slots i = .free →
    (∀ j, j < i → slotState s.ingest.slots j ≠ .free) →
    ∃ t, exec (.headerArrival words) s = .next t ∧
      settlesTo { s with
        sweep := { s.sweep with
          state := if h.stopMark then .draining else .opened
          lastReason := if h.stopMark then .stopped else s.sweep.lastReason
          limitRunning := s.sweep.limitRunning && !h.stopMark
          counters := { s.sweep.counters with
            received := holdCount (s.sweep.counters.received + 1)
            skipped := holdCount (s.sweep.counters.skipped + headerGap s h) } }
        ingest := { s.ingest with
          port := .filling i 0 false
          seqRef := some h.seq
          slots := s.ingest.slots.set i
            ⟨.filling, ⟨h.seq, tSof, h.exposure, h.rowPeriod, h.guideMark, false, 0⟩⟩ } } t

/-- A header admitted in OPEN that is short, or whose width or height is not the sweep's, is rejected: counted, no
slot used, the frame ignored, DROP not raised. One that fits and finds no FREE slot is dropped: counted, the frame
ignored, DROP (bit 3) raised. If it carries the STOP mark, the state is also DRAINING with last reason STOPPED and
the time limit cancelled, and the drain-completion test follows, which does nothing while a frame is FILLING,
QUEUED or ENGAGED. Nothing else changes. The drain-completion test that follows a header with the STOP mark, and the
line buffer's lines that go where it ends the sweep, are the model's readings (log entries 25 and 44). -/
def Obligations.RejectedAndDroppedHeaders : Prop :=
  ∀ (s : State) (words : List Half) (tSof : Time), s.ingest.port = .header tSof → s.sweep.state = .opened →
    (words.length < 16 →
      ∃ t, exec (.headerArrival words) s = .next t ∧
        settlesTo { s with
          sweep := { s.sweep with counters := { s.sweep.counters with
            received := holdCount (s.sweep.counters.received + 1)
            rejected := holdCount (s.sweep.counters.rejected + 1) } }
          ingest := { s.ingest with port := .ignored } } t) ∧
    ∀ (h : Header) (sweep : SweepControl) (u : State), parseHeader words = some h →
      sweep = { s.sweep with
        state := if h.stopMark then .draining else .opened
        lastReason := if h.stopMark then .stopped else s.sweep.lastReason
        limitRunning := s.sweep.limitRunning && !h.stopMark
        counters := { s.sweep.counters with
          received := holdCount (s.sweep.counters.received + 1)
          skipped := holdCount (s.sweep.counters.skipped + headerGap s h) } } →
      (((h.width ≠ s.sweepCfg.frameWidth ∨ h.height ≠ s.sweepCfg.frameHeight) ∧
          u = { s with
            sweep := { sweep with counters := { sweep.counters with
              rejected := holdCount (s.sweep.counters.rejected + 1) } }
            ingest := { s.ingest with port := .ignored, seqRef := some h.seq } }) ∨
        (h.width = s.sweepCfg.frameWidth ∧ h.height = s.sweepCfg.frameHeight ∧
          (∀ slot ∈ s.ingest.slots, slot.state ≠ .free) ∧
          u = { s with
            sweep := { sweep with counters := { sweep.counters with
              dropped := holdCount (s.sweep.counters.dropped + 1) } }
            ingest := { s.ingest with port := .ignored, seqRef := some h.seq }
            attn := { s.attn with pendingSet := s.attn.pendingSet ||| 8 } })) →
      ∃ t, exec (.headerArrival words) s = .next t ∧ settlesTo (drainTest u) t ∧
        ((h.stopMark = false ∨ s.ingest.queue ≠ [] ∨ anySlot s.ingest.slots .filling = true ∨
          anySlot s.ingest.slots .engaged = true) → settlesTo u t)

/-- In ARMED a header without the GUIDE mark that carries the START mark, or that meets open pending, opens the sweep:
the state is OPEN, or DRAINING with last reason STOPPED if it also carries the STOP mark; the open time is its
frame's arrival; open pending goes; the bias of the sweep is fixed; the header is counted, sets the reference and,
all slots FREE and its geometry right, takes slot 0; of a wrong geometry it opens the sweep all the same and is
rejected, its frame ignored, and with the STOP mark the drain that begins is complete at once. A header that is
short, carries the GUIDE mark, or meets neither, is ignored and not counted, and so is every header in INIT, TEST,
IDLE, DRAINING and DONE. The drain-completion test that follows a header with the STOP mark, and the line buffer's
lines that go where it ends the sweep, are the model's readings (log entries 25 and 44). -/
def Obligations.EligibleHeaderOpensTheSweep : Prop :=
  (∀ (s : State) (words : List Half) (tSof : Time), s.ingest.port = .header tSof → s.sweep.state = .armed →
    (∀ h, parseHeader words = some h → h.guideMark = false → (h.startMark = true ∨ s.sweep.openPending = true) →
      h.width = s.sweepCfg.frameWidth → h.height = s.sweepCfg.frameHeight → s.ingest.seqRef = none →
      (∀ slot ∈ s.ingest.slots, slot.state = .free) → 0 < s.ingest.slots.length →
      ∃ t, exec (.headerArrival words) s = .next t ∧
        settlesTo { s with
          sweep := { s.sweep with
            state := if h.stopMark then .draining else .opened
            lastReason := if h.stopMark then .stopped else s.sweep.lastReason
            openTime := some tSof, openPending := false, limitRunning := !h.stopMark
            counters := { s.sweep.counters with
              received := holdCount (s.sweep.counters.received + 1), skipped := holdCount s.sweep.counters.skipped } }
          motion := decideBias s.sweepCfg s.motion
          ingest := { s.ingest with
            port := .filling 0 0 false
            seqRef := some h.seq
            slots := s.ingest.slots.set 0 ⟨.filling, ⟨h.seq, tSof, h.exposure, h.rowPeriod, false, false, 0⟩⟩ } } t) ∧
    (∀ (h : Header) (u : State), parseHeader words = some h → h.guideMark = false →
      (h.startMark = true ∨ s.sweep.openPending = true) →
      (h.width ≠ s.sweepCfg.frameWidth ∨ h.height ≠ s.sweepCfg.frameHeight) →
      u = { s with
        sweep := { s.sweep with
          state := if h.stopMark then .draining else .opened
          lastReason := if h.stopMark then .stopped else s.sweep.lastReason
          openTime := some tSof, openPending := false, limitRunning := !h.stopMark
          counters := { s.sweep.counters with
            received := holdCount (s.sweep.counters.received + 1)
            skipped := holdCount (s.sweep.counters.skipped + headerGap s h)
            rejected := holdCount (s.sweep.counters.rejected + 1) } }
        motion := decideBias s.sweepCfg s.motion
        ingest := { s.ingest with port := .ignored, seqRef := some h.seq } } →
      ∃ t, exec (.headerArrival words) s = .next t ∧ settlesTo (drainTest u) t ∧
        (h.stopMark = false → settlesTo u t) ∧
        (h.stopMark = true → s.ingest.queue = [] → (∀ slot ∈ s.ingest.slots, slot.state = .free) →
          t.sweep = { u.sweep with state := .done } ∧ t.motion.clockRunning = false ∧ t.motion.link = .off)) ∧
    ((parseHeader words = none ∨
      ∃ h, parseHeader words = some h ∧ (h.guideMark = true ∨ (h.startMark = false ∧ s.sweep.openPending = false))) →
      exec (.headerArrival words) s = .next { s with ingest := { s.ingest with port := .ignored } })) ∧
  ∀ (s : State) (words : List Half) (tSof : Time), s.ingest.port = .header tSof →
    s.sweep.state ∈ [SweepState.init, .test, .idle, .draining, .done] →
    exec (.headerArrival words) s = .next { s with ingest := { s.ingest with port := .ignored } }

/-- The bias of the sweep (R32): in AUTO mode with at least 64 samples and every value of both windows within the still
threshold of its axis's mean, the means, each rounded half up and brought into range before it is used; otherwise the
configured values. In FIXED mode the opening changes nothing. -/
def Obligations.BiasDecision : Prop :=
  ∀ (cfg : Configuration) (m : Motion),
    (cfg.biasMode = .fixed → decideBias cfg m = m) ∧
    (cfg.biasMode = .auto →
      ∀ (ny np my mp : Int), ny = m.yawWindow.length → np = m.pitchWindow.length →
        my = max (-32768) (min 32767 ((2 * m.yawWindow.sum + ny) / (2 * ny))) →
        mp = max (-32768) (min 32767 ((2 * m.pitchWindow.sum + np) / (2 * np))) →
        ((64 ≤ m.goodSinceArm ∧ (∀ v ∈ m.yawWindow, |v - my| ≤ cfg.stillThreshold) ∧
            (∀ v ∈ m.pitchWindow, |v - mp| ≤ cfg.stillThreshold)) →
          decideBias cfg m = { m with biasYaw := my, biasPitch := mp, biasSource := .estimated }) ∧
        (¬(64 ≤ m.goodSinceArm ∧ (∀ v ∈ m.yawWindow, |v - my| ≤ cfg.stillThreshold) ∧
            (∀ v ∈ m.pitchWindow, |v - mp| ≤ cfg.stillThreshold)) →
          decideBias cfg m = { m with biasYaw := cfg.biasYaw, biasPitch := cfg.biasPitch, biasSource := .fallback }))

/-- The four truncations of R58, each with what is left of the frame on the port: the slot is FREE and counted as
truncated, DROP (bit 3) is raised, the frame's lines leave the line buffer, and in OPEN nothing else changes. In
DRAINING the drain-completion test follows: with a frame still QUEUED or ENGAGED it does nothing; with every other
slot FREE and nothing queued the state is DONE at once with the drain's reason, motion sampling stopped and the
closing work begun; with a slot HELD and no other occupied, that slot is ENGAGED, the direction +1 and, the
compositor free, strip 0 is composited from the saved poses. FV
falling with no FILLING frame on the port only ends the frame there. That a truncation drops the lines of its
slot, an earlier frame's of that slot among them, and no others is the model's choice (log entry 18); that an
over-long line still truncates at its close, and that the line buffer's other lines go at the entry to DONE, are its
readings (log entries 20 and 44). -/
def Obligations.TruncationFreesTheSlot : Prop :=
  (∀ s : State, (s.ingest.port = .low ∨ s.ingest.port = .ignored ∨ ∃ tSof, s.ingest.port = .header tSof) →
    exec .frameEnd s = .next { s with ingest := { s.ingest with port := .low } }) ∧
  ∀ (s u : State) (c : Instr) (i line : Nat) (high : Bool) (port : PortFrame),
    s.ingest.port = .filling i line high → slotState s.ingest.slots i = .filling →
    ((c = .pixelLineStart ∧ high = false ∧ 2 ≤ s.ingest.lines.length ∧ port = .ignored) ∨
      (c = .lineTooLong ∧ high = true ∧ port = .ignored) ∨
      (∃ words : List Half, c = .pixelLineClose words ∧ high = true ∧ words.length < s.sweepCfg.frameWidth ∧
        port = .ignored) ∨
      (c = .frameEnd ∧ port = .low)) →
    u = { dropLines i s with
      sweep := { s.sweep with counters := { s.sweep.counters with
        truncated := holdCount (s.sweep.counters.truncated + 1) } }
      ingest := { s.ingest with
        port := port
        slots := s.ingest.slots.modify i fun slot => { slot with state := .free }
        queue := s.ingest.queue.filter fun k => decide (k ≠ i)
        lines := s.ingest.lines.filter fun l => decide (l.slot ≠ i) }
      attn := { s.attn with pendingSet := s.attn.pendingSet ||| 8 } } →
    ∃ t, exec c s = .next t ∧
      (s.sweep.state = .opened → settlesTo u t) ∧
      (s.sweep.state = .draining → settlesTo (drainTest u) t ∧ drainsAtOnce u t ∧
        ((u.ingest.queue ≠ [] ∨ anySlot u.ingest.slots .engaged = true) → settlesTo u t))

/-- LV rises for a pixel line of a FILLING frame with a free entry: the line is under way. A line of the right length
that is not the last closes: it waits in its entry behind the lines already there and the next line is awaited.
Nothing else changes. -/
def Obligations.PixelLinesPassThroughTheBuffer : Prop :=
  (∀ (s : State) (i line : Nat), s.ingest.port = .filling i line false → s.ingest.lines.length < 2 →
    exec .pixelLineStart s = .next { s with ingest := { s.ingest with port := .filling i line true } }) ∧
  ∀ (s : State) (i line : Nat) (words : List Half), s.ingest.port = .filling i line true →
    words.length = s.sweepCfg.frameWidth → line + 1 < s.sweepCfg.frameHeight →
    ∃ t, exec (.pixelLineClose words) s = .next t ∧
      settlesTo { s with ingest := { s.ingest with
        port := .filling i (line + 1) false
        lines := s.ingest.lines ++ [⟨i, line, words, 0⟩] } } t

/-- The last pixel line of a FILLING frame closes with W_f words while the engine has a frame: the slot is QUEUED at
the tail of the queue, with the opening mark if the sweep has no opening frame yet and the frame carries no GUIDE
mark, and the rest of the frame on the port is ignored. An early guide frame (R82), a GUIDE frame that so
completes in OPEN with the queue empty and the engine free before the opening frame has been placed, is taken and
released at once: its slot is FREE, guide is counted, no pose is looked up and the guide record is not touched. Any other
frame is taken at once by a free engine, in OPEN or DRAINING, and ENGAGED. Where the pose ring does not answer its reference
time, it waits for motion. The opening frame whose reference and band times the ring answers sets the origin and is HELD
with its poses. With the direction known, the frame that the ring answers takes its pitch offset, then the predicted
centre and the clamped band shifts of the column step, makes its offer and, LEAD not empty, is searched. -/
def Obligations.LastLineCompletesTheFrame : Prop :=
  (∀ (s : State) (i line : Nat) (words : List Half) (opening : Bool), s.ingest.port = .filling i line true →
    words.length = s.sweepCfg.frameWidth → line + 1 = s.sweepCfg.frameHeight → slotState s.ingest.slots i = .filling →
    anySlot s.ingest.slots .engaged = true →
    opening = (!s.ingest.openingAssigned && !(slotInfo s.ingest.slots i).guide) →
    ∃ t, exec (.pixelLineClose words) s = .next t ∧
      settlesTo { s with ingest := { s.ingest with
        port := .ignored
        slots := s.ingest.slots.modify i fun slot =>
          { slot with state := .queued, info := { slot.info with opening := opening } }
        queue := s.ingest.queue ++ [i]
        lines := s.ingest.lines ++ [⟨i, line, words, 0⟩]
        openingAssigned := s.ingest.openingAssigned || opening } } t) ∧
  (∀ (s : State) (i line : Nat) (words : List Half), s.ingest.port = .filling i line true →
    words.length = s.sweepCfg.frameWidth → line + 1 = s.sweepCfg.frameHeight → slotState s.ingest.slots i = .filling →
    (slotInfo s.ingest.slots i).guide = true →
    s.place.originYaw = none → s.sweep.state = .opened → s.ingest.queue = [] →
    (∀ j, slotState s.ingest.slots j ≠ .engaged) →
    ∃ t, exec (.pixelLineClose words) s = .next t ∧ slotState t.ingest.slots i = .free ∧ t.ingest.queue = [] ∧
      (∀ j, j ≠ i → slotState t.ingest.slots j = slotState s.ingest.slots j) ∧
      t.ingest.port = .ignored ∧ t.ingest.openingAssigned = s.ingest.openingAssigned ∧
      t.sweep = { s.sweep with counters := { s.sweep.counters with
        guide := holdCount (s.sweep.counters.guide + 1) } } ∧
      t.place = { s.place with state := .ready, work := none } ∧ t.comp.guide = s.comp.guide ∧
      t.comp.front = s.comp.front ∧ t.comp.strips = s.comp.strips ∧ t.motion = s.motion ∧ t.reg = s.reg ∧
      t.store = s.store ∧ t.ctl = s.ctl ∧ t.attn = s.attn ∧ t.config = s.config) ∧
  ∀ (s : State) (i line : Nat) (words : List Half) (info : SlotRecord) (opening : Bool) (tRef : Time) (ingest : Ingest),
    s.ingest.port = .filling i line true → words.length = s.sweepCfg.frameWidth → line + 1 = s.sweepCfg.frameHeight →
    slotState s.ingest.slots i = .filling → (∀ j, slotState s.ingest.slots j ≠ .engaged) → s.ingest.queue = [] →
    info = slotInfo s.ingest.slots i → opening = (!s.ingest.openingAssigned && !info.guide) →
    (opening = false → s.place.originYaw.isSome = true) → s.place.motionLost = false →
    tRef = info.tSof - BitVec.ofNat 32 s.sweepCfg.captureLatency +
      BitVec.ofNat 32 (s.sweepCfg.frameHeight / 2 * info.rowPeriod / 16) - BitVec.ofNat 32 (info.exposure / 2) →
    ingest = { s.ingest with
      port := .ignored
      slots := s.ingest.slots.modify i fun slot =>
        { slot with state := .engaged, info := { slot.info with opening := opening } }
      lines := s.ingest.lines ++ [⟨i, line, words, 0⟩]
      openingAssigned := s.ingest.openingAssigned || opening } →
    ((s.sweep.state = .opened ∨ s.sweep.state = .draining) → lookupRing s.motion.ring tRef = none →
      0 < s.sweepCfg.motionWait * (s.sweepCfg.prescale * (s.sweepCfg.sampleCount + 1)) →
      s.sweepCfg.motionWait * (s.sweepCfg.prescale * (s.sweepCfg.sampleCount + 1)) < 2147483648 →
      ∃ t w, exec (.pixelLineClose words) s = .next t ∧ t.place.work = some w ∧
        settlesTo { s with ingest := ingest, place := { s.place with state := .waitMotion, work := some w } } t ∧
        w.slot = i ∧ w.seq = info.seq ∧ w.takeTime = s.timeBase ∧ w.trimYaw = s.comp.trimYaw ∧
        w.trimPitch = s.comp.trimPitch ∧ w.source = .track ∧ w.tRef = tRef ∧ w.flags = FrameFlags.clear ∧
        w.stage = .reference ∧ w.cls = if opening then .opening else if info.guide then .guide else .ordinary) ∧
    ∀ (ref : PoseFound) (pose : Nat → PoseFound) (y : Int) (flags : FrameFlags),
      lookupRing s.motion.ring tRef = some ref →
      (∀ k, k < 8 → lookupRing s.motion.ring (bandTime s.sweepCfg info k y) = some (pose k)) →
      flags = (List.range 8).foldl (fun f k => mergeFlags f (pose k).flags) ref.flags →
      (∀ w : Working, opening = true → y = 0 → s.sweep.state = .opened → s.place.direction = .unknown →
        w.slot = i → w.seq = info.seq → w.yP = 0 → w.refYaw = ref.yaw →
        w.bandYaws = (List.range 7).map (fun k => (pose k).yaw) →
        ∃ t, exec (.pixelLineClose words) s = .next t ∧
          settlesTo (heldOpening { s with
            ingest := ingest
            place := { s.place with originYaw := some ref.yaw, originPitch := some ref.pitch } } w (pose 7).yaw flags) t) ∧
      ∀ raw sign : Int, opening = false → s.sweep.state = .opened → s.place.direction ≠ .unknown →
        sign = (if s.place.direction = .minus then -1 else 1) → s.reg.lead ≠ [] →
        raw = (ref.pitch + s.comp.trimPitch - s.place.originPitch.getD 0) / s.sweepCfg.columnAngle →
        y = max (-(s.sweepCfg.margin : Int)) (min s.sweepCfg.margin raw) →
        ∃ t w, exec (.pixelLineClose words) s = .next t ∧ t.place.work = some w ∧
          restAs { s with
            ingest := ingest
            place := { s.place with state := .passed, work := some w }
            reg := { s.reg with state := .searching }
            comp := { s.comp with guide := t.comp.guide } } t ∧
          w.slot = i ∧ w.source = .track ∧ w.yP = y ∧ w.bandYaws = (List.range 8).map (fun k => (pose k).yaw) ∧
          w.xC = (s.sweepCfg.frameWidth / 2 + 64 : Nat) +
            sign * (ref.yaw + s.comp.trimYaw - s.place.originYaw.getD 0) / s.sweepCfg.columnAngle ∧
          w.shifts = (List.range 8).map (fun k =>
            max (-64) (min 64 (sign * ((pose k).yaw - ref.yaw) / s.sweepCfg.columnAngle))) ∧
          w.flags = { flags with
            pitchClamp := flags.pitchClamp || decide (y ≠ raw)
            rsClamp := flags.rsClamp || (List.range 8).any fun k =>
              decide (64 < |sign * ((pose k).yaw - ref.yaw) / s.sweepCfg.columnAngle|) } ∧
          t.comp.guide.count = s.comp.guide.count + 1 ∧ t.comp.guide.seq = info.seq ∧ t.comp.guide.yP = y ∧
          t.comp.guide.flags = w.flags ∧ t.comp.guide.direction = s.place.direction ∧
          t.comp.guide.guideMark = info.guide ∧ t.comp.guide.last = s.comp.guide.last ∧
          t.comp.guide.advance = leastEnd s.sweepCfg (bandEdges s.sweepCfg w.xC w.shifts) - s.comp.front ∧
          t.comp.guide.overlap = s.comp.front - minOf 0 (bandEdges s.sweepCfg w.xC w.shifts)

/-! ## Motion -/

/-- A strobe while the sample clock runs and no transaction is open: it is strobe number k at t_arm + k × T, its time
is recorded, the sample time is the strobe time less the motion latency and the data-ready window opens. MDRDY
seen within floor(T/2) of the strobe starts the read at that time; later it is ignored. Nothing else changes. That
the strobe moves the time base to its due time, and that a late MDRDY changes nothing, are the model's choices
(log entries 2 and 3). -/
def Obligations.StrobeAndDataReady : Prop :=
  (∀ (s : State) (due : Time), s.motion.clockRunning = true →
    (s.motion.tx = .absent ∨ ∃ start, s.motion.tx = .discarding start) →
    due = s.motion.armTime + BitVec.ofNat 32 ((s.motion.strobes + 1) * (s.sweepCfg.prescale * (s.sweepCfg.sampleCount + 1))) →
    exec .sampleStrobe s =
      .next { s with
        timeBase := if 0 < (due - s.timeBase).toInt then due else s.timeBase
        motion := { s.motion with
          strobes := s.motion.strobes + 1
          strobeTime := some due
          tx := .window due (due - BitVec.ofNat 32 s.sweepCfg.motionLatency) } }) ∧
  ∀ (s : State) (strobeTime sample : Time), s.motion.tx = .window strobeTime sample →
    ((s.timeBase - strobeTime).toInt ≤ ((s.sweepCfg.prescale * (s.sweepCfg.sampleCount + 1) / 2 : Nat) : Int) →
      exec .mdrdySeen s = .next { s with motion := { s.motion with tx := .reading sample s.timeBase } }) ∧
    (((s.sweepCfg.prescale * (s.sweepCfg.sampleCount + 1) / 2 : Nat) : Int) < (s.timeBase - strobeTime).toInt →
      exec .mdrdySeen s = .next s)

/-- A good sample, with no frame waiting for motion and none to take: the read ends 200 ticks after its start; the raw
yaw and pitch are the codes of the axes that the axis map names, negated for sign −, and the rates these less the
bias, clamped. The first sample after ARM is not integrated: it sets the last integrated time, and its entry carries
yaw 0, pitch 0 and no GAP. Every later one steps each axis by the numerator rate × FSR × Δt × 3 over D = 40,960,000,
the residual carried, with Δt the time since the last integrated sample, at most 8 × T; where that bound bites the
entry carries GAP. It carries SAT where the code of the yaw or the pitch axis is at a limit. The entry joins the ring
at the newest end, the oldest leaving a full ring; in AUTO mode while ARMED the raw values join the windows; the
counts move, and unless this is the fourth good sample of a loss nothing else changes. A read whose clock has stopped
only ends. That the end of the read moves the time base is the model's choice (log entry 2), and so is that Δt is the
signed difference of the two times, with no bound and no GAP after more than 2^31 ticks (log entry 33); that c counts
only the samples that join the windows is its reading (log entry 42). -/
def Obligations.GoodSampleJoinsTheTrack : Prop :=
  (∀ (s : State) (bytes : BitVec 48) (start : Time), s.motion.tx = .discarding start →
    exec (.goodSample bytes) s =
      .next { s with
        timeBase := if 0 < (start + 200 - s.timeBase).toInt then start + 200 else s.timeBase
        motion := { s.motion with tx := .absent } }) ∧
  (∀ (s : State) (bytes : BitVec 48) (sample start : Time) (e : PoseEntry) (code : Axis → Int)
      (rawY rawP rateY rateP since dt : Int) (after : Integrator),
    s.motion.tx = .reading sample start → (s.motion.link ≠ .lost ∨ s.motion.goodCount + 1 < 4) →
    s.place.state ≠ .waitMotion → s.ingest.queue = [] →
    code .x = (bytes.extractLsb' 32 16).toInt → code .y = (bytes.extractLsb' 16 16).toInt →
    code .z = (bytes.extractLsb' 0 16).toInt →
    rawY = (if s.sweepCfg.axisMap.yawNegated then -code s.sweepCfg.axisMap.yawAxis
      else code s.sweepCfg.axisMap.yawAxis) →
    rawP = (if s.sweepCfg.axisMap.pitchNegated then -code s.sweepCfg.axisMap.pitchAxis
      else code s.sweepCfg.axisMap.pitchAxis) →
    rateY = max (-32768) (min 32767 (rawY - s.motion.biasYaw)) →
    rateP = max (-32768) (min 32767 (rawP - s.motion.biasPitch)) →
    since = (sample - s.motion.integ.lastTime).toInt →
    dt = min since (8 * (s.sweepCfg.prescale * (s.sweepCfg.sampleCount + 1)) : Nat) →
    after = (if s.motion.integ.started then
        { yaw := integrateAxis s.motion.integ.yaw (rateY * s.sweepCfg.fsr * dt * 3)
          pitch := integrateAxis s.motion.integ.pitch (rateP * s.sweepCfg.fsr * dt * 3)
          lastTime := sample
          started := true }
      else { s.motion.integ with lastTime := sample, started := true }) →
    e = { time := sample
          yaw := after.yaw.angle
          pitch := after.pitch.angle
          rateYaw := rateY
          ratePitch := rateP
          gap := s.motion.integ.started &&
            decide ((8 * (s.sweepCfg.prescale * (s.sweepCfg.sampleCount + 1)) : Nat) < since)
          sat := decide (code s.sweepCfg.axisMap.yawAxis ∈ [32767, -32768] ∨
            code s.sweepCfg.axisMap.pitchAxis ∈ [32767, -32768]) } →
    ∃ t, exec (.goodSample bytes) s = .next t ∧
      settlesTo { s with
        timeBase := if 0 < (start + 200 - s.timeBase).toInt then start + 200 else s.timeBase
        motion := { s.motion with
          tx := .absent
          missCount := 0
          goodCount := min (s.motion.goodCount + 1) 4
          integ := after
          ring := (if 512 ≤ s.motion.ring.length then s.motion.ring.drop 1 else s.motion.ring) ++ [e]
          yawWindow :=
            if s.sweep.state = .armed ∧ s.sweepCfg.biasMode = .auto then
              (if 256 ≤ s.motion.yawWindow.length then s.motion.yawWindow.drop 1 else s.motion.yawWindow) ++ [rawY]
            else s.motion.yawWindow
          pitchWindow :=
            if s.sweep.state = .armed ∧ s.sweepCfg.biasMode = .auto then
              (if 256 ≤ s.motion.pitchWindow.length then s.motion.pitchWindow.drop 1 else s.motion.pitchWindow) ++ [rawP]
            else s.motion.pitchWindow
          goodSinceArm :=
            if s.sweep.state = .armed ∧ s.sweepCfg.biasMode = .auto then min (s.motion.goodSinceArm + 1) 65535
            else s.motion.goodSinceArm } } t ∧
      (trackSound s → s.motion.integ.started = false → e.yaw = 0 ∧ e.pitch = 0 ∧ e.gap = false)) ∧
  ∀ (a : AxisIntegral) (u : Int), -1099511627776 ≤ a.angle + (u + a.residual) / 40960000 →
    a.angle + (u + a.residual) / 40960000 ≤ 1099511627776 →
    integrateAxis a u = ⟨a.angle + (u + a.residual) / 40960000, (u + a.residual) % 40960000⟩

/-- The fourth good sample in a row while LOST: the link is SAMPLING, the motion-lost mark goes, and in OPEN or DRAINING
with a strip in the table and no frame in compositing the yaw trim is the re-anchor's; with a frame in compositing the
re-anchor is pending, and otherwise none is sent. -/
def Obligations.RegainSendsAReanchor : Prop :=
  ∀ (s : State) (bytes : BitVec 48) (sample start : Time) (e : PoseEntry),
    s.motion.tx = .reading sample start → s.motion.link = .lost → 3 ≤ s.motion.goodCount →
    s.place.state ≠ .waitMotion → s.ingest.queue = [] → e = poseEntry s.sweepCfg s.motion sample bytes →
    ∃ t, exec (.goodSample bytes) s = .next t ∧
      t.motion.link = .sampling ∧ t.motion.ring.getLast? = some e ∧ t.place = { s.place with motionLost := false } ∧
      t.sweep = s.sweep ∧ t.attn = s.attn ∧ t.store = s.store ∧ t.comp.strips = s.comp.strips ∧
      t.comp.front = s.comp.front ∧ t.comp.trimPitch = s.comp.trimPitch ∧
      (((s.sweep.state = .opened ∨ s.sweep.state = .draining) ∧ s.comp.strips ≠ []) →
        (inCompositing s.comp = false →
          t.comp.trimYaw = reanchorTrim s.sweepCfg s.place.direction s.comp.strips (s.place.originYaw.getD 0)
            ⟨e.time, e.yaw⟩ ∧ t.comp.pendingReanchor = s.comp.pendingReanchor) ∧
        (inCompositing s.comp = true →
          t.comp.trimYaw = s.comp.trimYaw ∧ t.comp.pendingReanchor = some ⟨e.time, e.yaw⟩)) ∧
      (¬((s.sweep.state = .opened ∨ s.sweep.state = .draining) ∧ s.comp.strips ≠ []) →
        t.comp.trimYaw = s.comp.trimYaw ∧ t.comp.pendingReanchor = s.comp.pendingReanchor)

/-- A data-ready window expires: the sample is counted as missed and the counts move. The eighth miss in a row while
SAMPLING, with no frame waiting for motion and none to take, is a loss: the link is LOST, the loss is counted,
MOTION_LOST (bit 2) is raised and the placement unit's motion-lost mark is set. Nothing else changes. That the end
of the window moves the time base is the model's choice (log entry 2). -/
def Obligations.MissedSampleAndLoss : Prop :=
  ∀ (s : State) (strobeTime sample due : Time), s.motion.tx = .window strobeTime sample →
    due = strobeTime + BitVec.ofNat 32 (s.sweepCfg.prescale * (s.sweepCfg.sampleCount + 1) / 2) →
    ((s.motion.link ≠ .sampling ∨ s.motion.missCount + 1 < 8) →
      ∃ t, exec .sampleMissed s = .next t ∧
        settlesTo { s with
          timeBase := if 0 < (due - s.timeBase).toInt then due else s.timeBase
          motion := { s.motion with
            tx := .absent, goodCount := 0, missCount := min (s.motion.missCount + 1) 8 }
          sweep := { s.sweep with counters := { s.sweep.counters with
            samplesMissed := holdCount (s.sweep.counters.samplesMissed + 1) } } } t) ∧
    (s.motion.link = .sampling → 7 ≤ s.motion.missCount → s.place.state ≠ .waitMotion → s.ingest.queue = [] →
      ∃ t, exec .sampleMissed s = .next t ∧
        settlesTo { s with
          timeBase := if 0 < (due - s.timeBase).toInt then due else s.timeBase
          motion := { s.motion with tx := .absent, goodCount := 0, missCount := 8, link := .lost }
          sweep := { s.sweep with counters := { s.sweep.counters with
            samplesMissed := holdCount (s.sweep.counters.samplesMissed + 1)
            motionLosses := holdCount (s.sweep.counters.motionLosses + 1) } }
          attn := { s.attn with pendingSet := s.attn.pendingSet ||| 4 }
          place := { s.place with motionLost := true } } t)

/-- The integrator law (R36): from angle 0 and residual 0, after the steps with numerators `us` none of which leaves
the range, the angle is the floor of their sum over D and the residual the remainder. A step that would leave the
range sets the angle to that end with residual 0, and an angle at an end leaves it only by a step in the opposite
direction. -/
def Obligations.IntegratorLaw : Prop :=
  (∀ us : List Int,
    (∀ n, n ≤ us.length → -1099511627776 ≤ (us.take n).sum / 40960000 ∧ (us.take n).sum / 40960000 ≤ 1099511627776) →
    us.foldl integrateAxis ⟨0, 0⟩ = ⟨us.sum / 40960000, us.sum % 40960000⟩) ∧
  (∀ (a : AxisIntegral) (u : Int), 1099511627776 < a.angle + (u + a.residual) / 40960000 →
    integrateAxis a u = ⟨1099511627776, 0⟩) ∧
  (∀ (a : AxisIntegral) (u : Int), a.angle + (u + a.residual) / 40960000 < -1099511627776 →
    integrateAxis a u = ⟨-1099511627776, 0⟩) ∧
  ∀ (a : AxisIntegral) (u : Int), 0 ≤ a.residual → a.residual < 40960000 →
    (a.angle = 1099511627776 → 0 ≤ u → (integrateAxis a u).angle = 1099511627776) ∧
    (a.angle = -1099511627776 → u ≤ 0 → (integrateAxis a u).angle = -1099511627776) ∧
    0 ≤ (integrateAxis a u).residual ∧ (integrateAxis a u).residual < 40960000

/-! ## Placement and registration -/

/-- The ends of a motion wait. At the limit, no frame queued and the motion-lost mark clear, the time base stands there
and the lookup it waits at and every later one is answered: by the ring where it can, else with the pose extrapolated
from the newest entry, EXTRAPOLATED with that entry's flags, or 0 and TRACK_SHORT too on an empty ring. The opening
frame in OPEN goes on from its reference lookup (which sets the origin angles) or any band lookup to its hold. Any
other frame takes its pitch offset from the reference lookup, and with the direction unknown the direction step; with
the direction known it goes on to the column step, makes its offer in OPEN and, LEAD not empty, is searched. At a loss
with the strip count at 0 the opening frame at its last lookup is extrapolated at once; a frame that has met the mark
with the strip count at 0 never waits again. At a loss with strips in the table a frame is placed by their history: its
column on the line through the last two strips, or that of the last with one strip or no time between the two, band
shifts 0, the last strip's pitch offset, EXTRAPOLATED; it makes its offer and is searched, or, LEAD empty and no closure
measurement due, goes on with MOTION_ONLY. A good sample, no regain, that lets the ring answer the opening frame's last
lookup ends the wait with the ring's yaw and flags. An opening frame's poses are saved, the guide record takes its
offer, the slot is HELD and the unit READY. A good sample that answers the reference lookup of any other frame brings its
pitch offset and, the direction unknown, the direction step: a GUIDE frame, or one less than 32 columns from the origin,
makes its offer and is released as guide or still; any other fixes the direction by the sign, strip 0 from the HELD slot
is handed to the compositor (held back during an update), and the frame waits for its commit. The saturation of the
extrapolated angles and the move of the time base are the model's choices (log entries 14 and 2). -/
def Obligations.WaitExpiryExtrapolatesAndHolds : Prop :=
  (∀ a b : FrameFlags, mergeFlags a b = ⟨a.trackShort || b.trackShort, a.extrapolated || b.extrapolated,
    a.gap || b.gap, a.rateSat || b.rateSat, a.pitchClamp || b.pitchClamp, a.rsClamp || b.rsClamp⟩) ∧
  (∀ (s u : State) (w : Working) (due : Time) (pose : Time → PoseFound) (ref : PoseFound),
    s.place.state = .waitMotion → s.place.work = some w → s.place.motionLost = false → s.ingest.queue = [] →
    due = w.takeTime + BitVec.ofNat 32 (s.sweepCfg.motionWait * (s.sweepCfg.prescale * (s.sweepCfg.sampleCount + 1))) →
    u = { s with
      timeBase := if 0 < (due - s.timeBase).toInt then due else s.timeBase
      place := { s.place with state := .placing, work := some { w with expired := true } } } →
    (∀ t p, lookupRing s.motion.ring t = some p → pose t = p) →
    (∀ t n, lookupRing s.motion.ring t = none → s.motion.ring.getLast? = some n →
      pose t =
        { yaw := max (-1099511627776) (min 1099511627776
            (n.yaw + n.rateYaw * s.sweepCfg.fsr * (t - n.time).toInt * 3 / 40960000))
          pitch := max (-1099511627776) (min 1099511627776
            (n.pitch + n.ratePitch * s.sweepCfg.fsr * (t - n.time).toInt * 3 / 40960000))
          flags := { FrameFlags.clear with extrapolated := true, gap := n.gap, rateSat := n.sat } }) →
    (∀ t, s.motion.ring = [] →
      pose t = ⟨0, 0, { FrameFlags.clear with extrapolated := true, trackShort := true }⟩) →
    ref = pose w.tRef →
    (∀ (k : Nat) (times : Nat → Time), w.cls = .opening → s.sweep.state = .opened → s.place.direction = .unknown →
      w.stage = .band k → k < 8 → (∀ j, times j = w.bandTimes.getD j 0) →
      ∃ t, exec .motionWaitExpiry s = .next t ∧
        settlesTo (heldOpening u
          { w with bandYaws := w.bandYaws ++ (List.range (7 - k)).map fun i => (pose (times (k + i))).yaw }
          (pose (times 7)).yaw
          ((List.range (8 - k)).foldl (fun f i => mergeFlags f (pose (times (k + i))).flags) w.flags)) t) ∧
    (∀ times : Nat → Time, w.cls = .opening → s.sweep.state = .opened → s.place.direction = .unknown →
      w.stage = .reference → (∀ j, times j = bandTime s.sweepCfg (slotInfo s.ingest.slots w.slot) j 0) →
      ∃ t, exec .motionWaitExpiry s = .next t ∧
        settlesTo (heldOpening
          { u with place := { u.place with originYaw := some ref.yaw, originPitch := some ref.pitch } }
          { w with
            refYaw := ref.yaw, yP := 0
            bandYaws := w.bandYaws ++ (List.range 7).map fun i => (pose (times i)).yaw }
          (pose (times 7)).yaw
          ((List.range 8).foldl (fun f i => mergeFlags f (pose (times i)).flags) (mergeFlags w.flags ref.flags))) t) ∧
    ∀ (raw y : Int) (placed : Working),
      raw = (ref.pitch + w.trimPitch - s.place.originPitch.getD 0) / s.sweepCfg.columnAngle →
      y = max (-(s.sweepCfg.margin : Int)) (min s.sweepCfg.margin raw) →
      placed = { w with
        expired := true
        refYaw := ref.yaw
        refPitch := ref.pitch
        yP := y
        bandTimes := bandTimesOf s w.slot y
        flags := { mergeFlags w.flags ref.flags with
          pitchClamp := (w.flags.pitchClamp || ref.flags.pitchClamp) || decide (y ≠ raw) }
        stage := .band 0 } →
      (w.cls ≠ .opening → s.place.direction = .unknown → w.stage = .reference →
        ∃ t, exec .motionWaitExpiry s = .next t ∧ settlesTo (directionStep placed u) t) ∧
      ∀ (k : Nat) (w0 w1 : Working) (yaws : List Int) (sign : Int), w.cls ≠ .opening → s.place.direction ≠ .unknown →
        s.reg.lead ≠ [] → k < 8 →
        ((w.stage = .reference ∧ k = 0 ∧ w0 = placed) ∨ (w.stage = .band k ∧ w0 = { w with expired := true })) →
        sign = (if s.place.direction = .minus then -1 else 1) →
        yaws = w0.bandYaws ++ (List.range (8 - k)).map (fun i => (pose (w0.bandTimes.getD (k + i) 0)).yaw) →
        w1 = { w0 with
          bandYaws := yaws
          xC := (s.sweepCfg.frameWidth / 2 + 64 : Nat) +
            sign * (w0.refYaw + w.trimYaw - s.place.originYaw.getD 0) / s.sweepCfg.columnAngle
          shifts := yaws.map fun v => max (-64) (min 64 (sign * (v - w0.refYaw) / s.sweepCfg.columnAngle))
          flags := (List.range (8 - k)).foldl
            (fun f i => mergeFlags f (pose (w0.bandTimes.getD (k + i) 0)).flags) w0.flags
          stage := .placed } →
        ∃ (t : State) (w2 : Working), exec .motionWaitExpiry s = .next t ∧
          w2 = { w1 with flags := { w1.flags with
            rsClamp := w1.flags.rsClamp ||
              yaws.any fun v => decide (64 < |sign * (v - w0.refYaw) / s.sweepCfg.columnAngle|) } } ∧
          restAs { u with
            place := { s.place with state := .passed, work := some w2 }
            reg := { s.reg with state := .searching }
            comp := { s.comp with guide := t.comp.guide } } t ∧
          (s.sweep.state ≠ .opened → t.comp.guide = s.comp.guide) ∧
          (s.sweep.state = .opened →
            t.comp.guide.count = s.comp.guide.count + 1 ∧ t.comp.guide.seq = w.seq ∧ t.comp.guide.yP = w0.yP ∧
            t.comp.guide.flags = w2.flags ∧ t.comp.guide.direction = s.place.direction ∧
            t.comp.guide.guideMark = decide (w.cls = .guide) ∧ t.comp.guide.motion = s.motion.link ∧
            t.comp.guide.last = s.comp.guide.last ∧
            t.comp.guide.advance = leastEnd s.sweepCfg (bandEdges s.sweepCfg w2.xC w2.shifts) - s.comp.front ∧
            t.comp.guide.overlap = s.comp.front - minOf 0 (bandEdges s.sweepCfg w2.xC w2.shifts))) ∧
  (∀ (s u : State) (w : Working) (n : PoseEntry) (strobeTime sample due at7 : Time) (yaw : Int) (flags : FrameFlags),
    s.place.state = .waitMotion → s.place.work = some w → w.stage = .band 7 → w.cls = .opening →
    s.comp.strips = [] → s.place.direction = .unknown → s.sweep.state = .opened → s.ingest.queue = [] →
    s.motion.ring.getLast? = some n → lookupRing s.motion.ring at7 = none → at7 = w.bandTimes.getD 7 0 →
    s.motion.tx = .window strobeTime sample → s.motion.link = .sampling → 7 ≤ s.motion.missCount →
    due = strobeTime + BitVec.ofNat 32 (s.sweepCfg.prescale * (s.sweepCfg.sampleCount + 1) / 2) →
    yaw = max (-1099511627776) (min 1099511627776
      (n.yaw + n.rateYaw * s.sweepCfg.fsr * (at7 - n.time).toInt * 3 / 40960000)) →
    flags = { w.flags with
      extrapolated := true, gap := w.flags.gap || n.gap, rateSat := w.flags.rateSat || n.sat } →
    u = { s with
      timeBase := if 0 < (due - s.timeBase).toInt then due else s.timeBase
      motion := { s.motion with tx := .absent, goodCount := 0, missCount := 8, link := .lost }
      sweep := { s.sweep with counters := { s.sweep.counters with
        samplesMissed := holdCount (s.sweep.counters.samplesMissed + 1)
        motionLosses := holdCount (s.sweep.counters.motionLosses + 1) } }
      attn := { s.attn with pendingSet := s.attn.pendingSet ||| 4 }
      place := { s.place with motionLost := true } } →
    ∃ t, exec .sampleMissed s = .next t ∧ settlesTo (heldOpening u w yaw flags) t) ∧
  (∀ (s u : State) (w : Working) (t : Time), s.place.motionLost = true → s.comp.strips = [] →
    lookupPose u.sweepCfg u (meetLoss s w) t ≠ .wait) ∧
  (∀ (s u : State) (w w' : Working) (rest : List StripRecord) (n : StripRecord) (strobeTime sample due : Time) (x : Int)
      (edges : List Int),
    s.place.state = .waitMotion → s.place.work = some w → (w.stage = .reference ∨ ∃ k, w.stage = .band k) →
    s.comp.strips = rest ++ [n] → s.ingest.queue = [] →
    s.motion.tx = .window strobeTime sample → s.motion.link = .sampling → 7 ≤ s.motion.missCount →
    due = strobeTime + BitVec.ofNat 32 (s.sweepCfg.prescale * (s.sweepCfg.sampleCount + 1) / 2) →
    u = { s with
      timeBase := if 0 < (due - s.timeBase).toInt then due else s.timeBase
      motion := { s.motion with tx := .absent, goodCount := 0, missCount := 8, link := .lost }
      sweep := { s.sweep with counters := { s.sweep.counters with
        samplesMissed := holdCount (s.sweep.counters.samplesMissed + 1)
        motionLosses := holdCount (s.sweep.counters.motionLosses + 1) } }
      attn := { s.attn with pendingSet := s.attn.pendingSet ||| 4 } } →
    x = (match rest.getLast? with
      | none => n.xC
      | some before =>
        if 0 < (n.tRef - before.tRef).toInt then
          n.xC + (n.xC - before.xC) * (w.tRef - n.tRef).toInt / (n.tRef - before.tRef).toInt
        else n.xC) →
    edges = bandEdges s.sweepCfg x (List.replicate 8 0) →
    w' = { w with
      source := .history, xC := x, shifts := List.replicate 8 0, yP := n.yP
      flags := { w.flags with extrapolated := true }, stage := .placed } →
    ((s.reg.lead ≠ [] ∨ closureDue s.sweepCfg w.cls s.reg.opening s.comp.clean edges = true) →
      ∃ t, exec .sampleMissed s = .next t ∧
        restAs { u with
          place := { s.place with motionLost := true, state := .passed, work := some w' }
          reg := { s.reg with state := .searching }
          comp := { s.comp with guide := t.comp.guide } } t ∧
        (s.sweep.state ≠ .opened → t.comp.guide = s.comp.guide) ∧
        (s.sweep.state = .opened →
          t.comp.guide.count = s.comp.guide.count + 1 ∧ t.comp.guide.seq = w.seq ∧ t.comp.guide.yP = n.yP ∧
          t.comp.guide.flags = w'.flags ∧ t.comp.guide.direction = s.place.direction ∧
          t.comp.guide.guideMark = decide (w.cls = .guide) ∧ t.comp.guide.motion = .lost ∧
          t.comp.guide.last = s.comp.guide.last ∧
          t.comp.guide.advance = leastEnd s.sweepCfg edges - s.comp.front ∧
          t.comp.guide.overlap = s.comp.front - minOf 0 edges)) ∧
    (s.reg.lead = [] → closureDue s.sweepCfg w.cls s.reg.opening s.comp.clean edges = false →
      s.sweep.state = .opened → slotState s.ingest.slots w.slot ≠ .free →
      ∃ t, exec .sampleMissed s = .next t ∧ t.motion = u.motion ∧ t.attn = u.attn ∧ t.store = s.store ∧
        t.comp.strips = s.comp.strips ∧ t.comp.front = s.comp.front ∧ t.reg = { s.reg with state := .idle } ∧
        t.comp.guide.count = s.comp.guide.count + 2 ∧ t.comp.guide.last = some ⟨none, 0, 0⟩ ∧
        (w.cls = .guide →
          slotState t.ingest.slots w.slot = .free ∧
          t.place = { s.place with motionLost := true, state := .ready, work := none } ∧
          t.sweep = { u.sweep with counters := { u.sweep.counters with
            guide := holdCount (s.sweep.counters.guide + 1) } }) ∧
        (w.cls ≠ .guide → s.comp.state = .updating →
          t.place.state = .passed ∧ t.place.motionLost = true ∧ t.sweep = u.sweep ∧
          t.ingest.slots = s.ingest.slots ∧ t.comp.state = .updating ∧
          (t.comp.waiting.map fun j => (j.slot, j.xC, j.yP, j.edges)) =
            some (w.slot, x, clampPitch s.sweepCfg n.yP, edges)))) ∧
  (∀ (s u : State) (w : Working) (bytes : BitVec 48) (sample start : Time) (pose : PoseFound),
    s.place.state = .waitMotion → s.place.work = some w → s.place.motionLost = false → s.place.direction = .unknown →
    s.ingest.queue = [] → s.motion.tx = .reading sample start →
    (s.motion.link ≠ .lost ∨ s.motion.goodCount + 1 < 4) →
    u = { s with
      timeBase := if 0 < (start + 200 - s.timeBase).toInt then start + 200 else s.timeBase
      motion := sampleMotion sample bytes s } →
    lookupRing u.motion.ring (lookupTime w) = some pose →
    (w.stage = .band 7 → w.cls = .opening → s.sweep.state = .opened →
      ∃ t, exec (.goodSample bytes) s = .next t ∧
        settlesTo (heldOpening u w pose.yaw (mergeFlags w.flags pose.flags)) t) ∧
    (w.stage = .reference → w.cls ≠ .opening →
      ∀ raw y : Int, raw = (pose.pitch + w.trimPitch - s.place.originPitch.getD 0) / s.sweepCfg.columnAngle →
        y = max (-(s.sweepCfg.margin : Int)) (min s.sweepCfg.margin raw) →
        ∃ t, exec (.goodSample bytes) s = .next t ∧
          settlesTo (directionStep { w with
            refYaw := pose.yaw
            refPitch := pose.pitch
            yP := y
            bandTimes := bandTimesOf s w.slot y
            flags := { mergeFlags w.flags pose.flags with
              pitchClamp := (w.flags.pitchClamp || pose.flags.pitchClamp) || decide (y ≠ raw) }
            stage := .band 0 } { u with place := { s.place with state := .placing } }) t)) ∧
  ∀ (s t : State) (w : Working) (delta : Int), t = directionStep w s → s.place.direction = .unknown →
    s.sweep.state = .opened → slotState s.ingest.slots w.slot ≠ .free →
    delta = (w.refYaw + w.trimYaw - s.place.originYaw.getD 0) / s.sweepCfg.columnAngle →
    ((w.cls = .guide ∨ |delta| < 32) →
      slotState t.ingest.slots w.slot = .free ∧ t.place = { s.place with state := .ready, work := none } ∧
      t.sweep = { s.sweep with counters :=
        if w.cls = .guide then { s.sweep.counters with guide := holdCount (s.sweep.counters.guide + 1) }
        else { s.sweep.counters with still := holdCount (s.sweep.counters.still + 1) } } ∧
      t.comp.guide.count = s.comp.guide.count + 1 ∧ t.comp.guide.seq = w.seq ∧ t.comp.guide.advance = delta ∧
      t.comp.guide.overlap = 0 ∧ t.comp.guide.speed = .still ∧ t.comp.guide.direction = .unknown ∧
      t.comp.guide.guideMark = decide (w.cls = .guide) ∧ t.comp.state = s.comp.state ∧ t.store = s.store) ∧
    (w.cls ≠ .guide → 32 ≤ |delta| →
      t.place = { s.place with
        direction := if delta < 0 then .minus else .plus
        state := .placing
        work := some { w with stage := .awaitStrip0 } } ∧
      t.ingest = s.ingest ∧ t.sweep = s.sweep ∧ t.store = s.store ∧ t.comp.guide = s.comp.guide ∧
      ∀ (i : Nat) (saved : SavedPoses), firstSlot s.ingest.slots .held = some i → s.place.saved = some saved →
        (s.comp.state ≠ .updating →
          t.comp.state = .compositing ∧ (t.comp.job.map fun j => (j.strip0, j.slot, j.xC, j.yP, j.shifts)) =
            some (true, i, originColumn s.sweepCfg, 0,
              bandShifts s.sweepCfg (if delta < 0 then .minus else .plus) saved.theta0 saved.bandYaws)) ∧
        (s.comp.state = .updating →
          t.comp.state = .updating ∧ (t.comp.waiting.map fun j => (j.strip0, j.slot, j.xC, j.yP, j.shifts)) =
            some (true, i, originColumn s.sweepCfg, 0,
              bandShifts s.sweepCfg (if delta < 0 then .minus else .plus) saved.theta0 saved.bandYaws)))

/-- The band rows of a frame lie in the frame, for every band, every pitch offset in −m..m and every geometry that R170
admits; and canvas row c_k lies in band k. -/
def Obligations.BandRowsLieInTheFrame : Prop :=
  ∀ (cfg : Configuration) (k : Nat) (y : Int), k < 8 → cfg.frameHeight % 8 = 0 → cfg.margin % 4 = 0 →
    2 * cfg.margin + 128 ≤ cfg.frameHeight → -(cfg.margin : Int) ≤ y → y ≤ cfg.margin →
    bandRow cfg k y < cfg.frameHeight ∧ (bandRow cfg k y : Int) = bandCentre cfg k + cfg.margin + y ∧
    bandOfRow cfg (bandCentre cfg k) = k ∧ bandCentre cfg k + 8 ≤ (k + 1) * bandRows cfg ∧
    k * bandRows cfg + 8 ≤ bandCentre cfg k

/-- With the trim that a re-anchor sets, the column formula gives at the regain exactly the history column, as long as the
trim does not meet the ends of its range. -/
def Obligations.ReanchorPredictsTheHistoryColumn : Prop :=
  ∀ (cfg : Configuration) (dir : Direction) (strips : List StripRecord) (origin trim : Int) (r : Reanchor),
    0 < cfg.columnAngle → dir ≠ .unknown → trim = reanchorTrim cfg dir strips origin r →
    -1099511627776 < trim → trim < 1099511627776 →
    predictedCentre cfg dir r.yaw trim origin = historyColumn strips r.time

/-- The best position of a patch is one of the scored positions, and no other goes before it in the order of R97; of two
different offsets with their scores, one goes before the other. -/
def Obligations.BestOffsetIsTheFirst : Prop :=
  (∀ (scored : List ((Int × Int) × Nat)) (best : (Int × Int) × Nat), bestOffset scored = some best →
    best ∈ scored ∧ ∀ o ∈ scored, beforeOffset o best = false) ∧
  (∀ scored : List ((Int × Int) × Nat), bestOffset scored = none → scored = []) ∧
  ∀ a b : (Int × Int) × Nat, a.1 ≠ b.1 → (beforeOffset a b = true ∨ beforeOffset b a = true)

/-- The consensus: with fewer than M_min confident patches, or fewer than M_min inliers, there is no correction; a
correction's components are measured values of confident patches, at least M_min patches lie within 1 of it in
both, and half of the measured values or more lie on either side of each component. -/
def Obligations.ConsensusIsMeasured : Prop :=
  ∀ (minPatches : Nat) (measured : List (Int × Int)) (c : Consensus), 1 ≤ minPatches →
    c = consensus minPatches measured →
    c.confident = measured.length ∧
    (measured.length < minPatches → c.correction = none ∧ c.inliers = 0) ∧
    (c.inliers < minPatches → c.correction = none) ∧
    ∀ d : Int × Int, c.correction = some d →
      d.1 ∈ measured.map Prod.fst ∧ d.2 ∈ measured.map Prod.snd ∧
      c.inliers = (measured.filter fun o => decide (|o.1 - d.1| ≤ 1 ∧ |o.2 - d.2| ≤ 1)).length ∧
      minPatches ≤ c.inliers ∧
      measured.length ≤ 2 * (measured.filter fun o => decide (o.1 ≤ d.1)).length ∧
      measured.length ≤ 2 * (measured.filter fun o => decide (d.1 ≤ o.1)).length ∧
      measured.length ≤ 2 * (measured.filter fun o => decide (o.2 ≤ d.2)).length ∧
      measured.length ≤ 2 * (measured.filter fun o => decide (d.2 ≤ o.2)).length

/-- The search of a frame ends in OPEN with all its lines in the slot, nothing left to read and no frame queued. With
a word left to read it does not end. Whatever the result, the unit is IDLE, the guide record takes the result as
its last correction and the update count rises by one. A GUIDE frame is released: its slot FREE, guide counted. An
ordinary frame's final placement, x_c − dx with the pitch offset clamped, is with the compositor: composited if it
advances, otherwise released as no_advance; held while a preview update runs. That the result is computed when the
event comes is the model's choice (log entry 26). -/
def Obligations.SearchResultIsTakenUp : Prop :=
  (∀ (s : State) (w : Working) (r : RegResult) (dx dy : Int) (edges : List Int),
    s.reg.state = .searching → s.place.work = some w → s.sweep.state = .opened → s.ingest.queue = [] →
    readsLeft s .registration = [] → s.sweepCfg.frameHeight ≤ (slotInfo s.ingest.slots w.slot).linesWritten →
    (∀ j, slotState s.ingest.slots j = .engaged ↔ j = w.slot) →
    r = searchResult s.sweepCfg s.store (searchFrame s w) s.reg.lead s.reg.opening (frameClosureDue s w) →
    (dx, dy) = r.correction.getD (0, 0) → edges = bandEdges s.sweepCfg (w.xC - dx) w.shifts →
    ∃ t, exec .searchComplete s = .next t ∧ t.reg = { s.reg with state := .idle } ∧
      t.comp.guide = { s.comp.guide with
        count := s.comp.guide.count + 1, last := some ⟨r.correction, r.confident, r.inliers⟩ } ∧
      t.motion = s.motion ∧ t.store = s.store ∧ t.comp.front = s.comp.front ∧ t.comp.strips = s.comp.strips ∧
      t.comp.trimPitch = s.comp.trimPitch ∧ t.attn = s.attn ∧ t.ctl = s.ctl ∧
      (w.cls = .guide →
        slotState t.ingest.slots w.slot = .free ∧ t.place.state = .ready ∧ t.place.work = none ∧
        t.sweep = { s.sweep with counters := { s.sweep.counters with
          guide := holdCount (s.sweep.counters.guide + 1) } }) ∧
      (w.cls = .ordinary → s.comp.state = .ready →
        ∀ cls newFront, (cls, newFront) =
            classifyStrip s.sweepCfg (s.comp.clean.getD 0) (leastEnd s.sweepCfg edges) →
          ((cls ≠ .normal ∨ (s.sweepCfg.minAdvance : Int) ≤ newFront - s.comp.front) →
            t.comp.state = .compositing ∧ t.sweep = s.sweep ∧ t.ingest.slots = s.ingest.slots ∧
            (t.comp.job.map fun j => (j.slot, j.xC, j.yP, j.edges, j.cls, j.newFront)) =
              some (w.slot, w.xC - dx, clampPitch s.sweepCfg (w.yP + dy), edges, cls, newFront)) ∧
          (cls = .normal → newFront - s.comp.front < (s.sweepCfg.minAdvance : Int) →
            slotState t.ingest.slots w.slot = .free ∧ t.comp.state = .ready ∧ t.place.work = none ∧
            t.sweep = { s.sweep with counters := { s.sweep.counters with
              noAdvance := holdCount (s.sweep.counters.noAdvance + 1) } })) ∧
      (w.cls = .ordinary → s.comp.state = .updating →
        t.comp.state = .updating ∧ t.sweep = s.sweep ∧ t.ingest.slots = s.ingest.slots ∧
        (t.comp.waiting.map fun j => (j.slot, j.xC, j.yP, j.edges)) =
          some (w.slot, w.xC - dx, clampPitch s.sweepCfg (w.yP + dy), edges))) ∧
  ∀ s : State, readsLeft s .registration ≠ [] → ∃ t, exec .searchComplete s = .next t ∧ settlesTo s t

/-! ## Compositing -/

/-- The blend of R116: between the old and the new value for every zone index, therefore in 0..255; equal values give
themselves; the output moves from the old value towards a larger new one as the index grows; and the old and the new
value change places under the reverse blend of R117. -/
def Obligations.BlendStaysBetween : Prop :=
  ∀ b z old new : Nat, 0 < b → z < b → old ≤ 255 → new ≤ 255 →
    min old new ≤ blendValue b z old new ∧ blendValue b z old new ≤ max old new ∧ blendValue b z old new ≤ 255 ∧
    reverseValue b z old new = blendValue b z new old ∧
    blendValue b z old old = old ∧
    (∀ z', z ≤ z' → z' < b → old ≤ new → blendValue b z old new ≤ blendValue b z' old new)

/-- The seam choice: one answer for each band; a band without a candidate gets none and every other band gets one of its
own candidates. The feasible candidates of the first blend band of a run are its candidates with their costs, and those of
the next band are the ones that the jump limit, if it applies between the two, lets a feasible candidate above reach, with
their cost and the least accumulated cost above. Where the limit applies between two adjacent blend bands, their seams are
no more than it apart. The seam of a run's last band is the feasible candidate of least accumulated cost, and that of a
band above the allowed predecessor of the seam below of least accumulated cost; ties go to the candidate nearest the middle
of the band's first and last, then to the lower column. So the seams of a run have the least total cost of all choices of
one candidate in each of its bands that keep to the limit where it applies. -/
def Obligations.SeamsAreCandidates : Prop :=
  (∀ (jump : Nat) (costs : List (List (Int × Nat))),
    (solveSeams jump costs).length = costs.length ∧
    (∀ k, costs.getD k [] = [] → (solveSeams jump costs).getD k none = none) ∧
    (∀ k, costs.getD k [] ≠ [] →
      ∃ c cost, (solveSeams jump costs).getD k none = some c ∧ (c, cost) ∈ costs.getD k []) ∧
    (∀ k, costs.getD k [] ≠ [] → (k = 0 ∨ costs.getD (k - 1) [] = []) →
      ((accumulateBands jump none costs).getD k none).map SeamBand.feasible = some (costs.getD k [])) ∧
    ∀ (k : Nat) (above : SeamBand), (accumulateBands jump none costs).getD k none = some above →
      costs.getD (k + 1) [] ≠ [] →
      (∃ below, (accumulateBands jump none costs).getD (k + 1) none = some below ∧ below.feasible ≠ [] ∧
        ∀ (c : Int) (total : Nat), (c, total) ∈ below.feasible ↔
          ∃ cost, (c, cost) ∈ costs.getD (k + 1) [] ∧
            ∃ p ∈ above.feasible, (jumpApplies jump above.feasible (costs.getD (k + 1) []) = true → |c - p.1| ≤ jump) ∧
              total = cost + p.2 ∧ ∀ q ∈ above.feasible,
                (jumpApplies jump above.feasible (costs.getD (k + 1) []) = true → |c - q.1| ≤ jump) → p.2 ≤ q.2) ∧
      (jumpApplies jump above.feasible (costs.getD (k + 1) []) = true →
        ∃ a c : Int, (solveSeams jump costs).getD k none = some a ∧
          (solveSeams jump costs).getD (k + 1) none = some c ∧ |c - a| ≤ jump)) ∧
  (∀ (jump : Nat) (costs : List (List (Int × Nat))) (k : Nat) (band : SeamBand) (first last : Int × Nat)
      (allowed : Int × Nat → Prop),
    (accumulateBands jump none costs).getD k none = some band →
    (costs.getD k []).head? = some first → (costs.getD k []).getLast? = some last →
    (∀ p, allowed p ↔ p ∈ band.feasible ∧ ∀ below, (solveSeams jump costs).getD (k + 1) none = some below →
      jumpApplies jump band.feasible (costs.getD (k + 1) []) = true → |below - p.1| ≤ jump) →
    ∃ best : Int × Nat, allowed best ∧ (solveSeams jump costs).getD k none = some best.1 ∧
      ∀ p, allowed p → best.2 < p.2 ∨ (best.2 = p.2 ∧
        (|2 * best.1 - (first.1 + last.1)| < |2 * p.1 - (first.1 + last.1)| ∨
          (|2 * best.1 - (first.1 + last.1)| = |2 * p.1 - (first.1 + last.1)| ∧ best.1 ≤ p.1)))) ∧
  ∀ (jump : Nat) (costs : List (List (Int × Nat))) (n m : Nat), n ≤ m →
    (∀ k, n ≤ k → k ≤ m → costs.getD k [] ≠ []) → (n = 0 ∨ costs.getD (n - 1) [] = []) → costs.getD (m + 1) [] = [] →
    ∃ seam : Nat → Int × Nat,
      (∀ k, n ≤ k → k ≤ m →
        seam k ∈ costs.getD k [] ∧ (solveSeams jump costs).getD k none = some (seam k).1) ∧
      ∀ other : Nat → Int × Nat, (∀ k, n ≤ k → k ≤ m → other k ∈ costs.getD k []) →
        (∀ (k : Nat) (above : SeamBand), n ≤ k → k < m → (accumulateBands jump none costs).getD k none = some above →
          jumpApplies jump above.feasible (costs.getD (k + 1) []) = true → |(other (k + 1)).1 - (other k).1| ≤ jump) →
        ((List.range (m + 1 - n)).map fun d => (seam (n + d)).2).sum ≤
          ((List.range (m + 1 - n)).map fun d => (other (n + d)).2).sum

/-- What a strip writes. Every column that a strip other than strip 0 writes lies at or above F − Z − B/2 and below the
new front, and at or above its band's edge: settled columns, which the commit before left below that, do not change.
The candidates of a band are the multiples of 4 from max(a_k + B/2, F − Z) to F − B/2, in rising order; the cost of one
is the sum over the band's rows of |Y_old − Y_new|, with the fill's Y for an unwritten cell; strip 0 has no seam, and
any other strip the choice of `solveSeams` for those costs. Band k writes every row of every column from a_k for strip
0, from its seam less B/2, or from max(a_k, F) without a seam, up to the new front, and nothing else: the frame's pixel
where the old cell is unwritten or no zone holds the column; the blend of R116 in the zone around the seam; the
reverse blend of R117 in the last B columns of a closing strip; chroma by the zone index of its pair's even column. So
it is after any command that leaves a strip in compositing chosen which was not chosen before, with DETACHED for a
hole and WRAPPED for a stored column other than the sweep column, and no command leaves a strip unchosen whose lines
are all in the slot. When the choice is made is the model's choice (log entry 26), and so is that strip 0 writes a
stored column by each of its sweep columns where two reach one (log entry 35). -/
def Obligations.WritesStayAboveTheSettledFront : Prop :=
  (∀ (cfg : Configuration) (store : CanvasStore) (dir : Direction) (front settled : Int) (job : StripJob) (k : Nat)
    (x : Int),
    job.strip0 = false → k < 8 → cfg.blend % 2 = 0 → settled ≤ max (front - cfg.seamReach - (cfg.blend / 2 : Nat)) 0 →
    0 ≤ front →
    x ∈ writtenColumns cfg front job (stripSeams cfg store dir front job) k →
    x < job.newFront ∧ job.edges.getD k 0 ≤ x ∧ (0 ≤ x → settled ≤ x)) ∧
  (∀ (cfg : Configuration) (front edge : Int),
    (seamCandidates cfg front edge).Pairwise (· < ·) ∧
    ∀ c, c ∈ seamCandidates cfg front edge ↔
      c % 4 = 0 ∧ edge + (cfg.blend / 2 : Nat) ≤ c ∧ front - cfg.seamReach ≤ c ∧ c ≤ front - (cfg.blend / 2 : Nat)) ∧
  (∀ (cfg : Configuration) (x : Int) (slot line column row : Nat),
    (cfg.mode = .linear → storedColumn cfg x = x.toNat) ∧
    (cfg.mode = .ring →
      storedColumn cfg x = (x % (((20736000 + cfg.columnAngle - 1) / cfg.columnAngle : Nat) : Int)).toNat) ∧
    slotAddress cfg slot line column = slot * 2457600 + line * cfg.frameWidth * 2 + 2 * column ∧
    cellAddress cfg column row =
      16777216 + column / 16 * ((cfg.frameHeight - 2 * cfg.margin) * 32) + row * 32 + 2 * (column % 16)) ∧
  (∀ (cfg : Configuration) (store : CanvasStore) (dir : Direction) (front clean : Int) (job : StripJob)
      (edge : Nat → Int) (line : Nat → Nat) (column chroma : Nat → Int → Nat) (newY newC oldY oldC : Nat → Int → Nat → Byte)
      (written : Nat → Int → Prop),
    (∀ k, edge k = job.edges.getD k 0) → (∀ row, line row = ((row : Int) + cfg.margin + job.yP).toNat) →
    (∀ k x, column k x = if dir = .minus then cfg.frameWidth - 1 - (x - edge k).toNat else (x - edge k).toNat) →
    (∀ k x, chroma k x = 2 * (column k x / 2) + (x - edge k).toNat % 2) →
    (∀ k x row, newY k x row = memRead store.mem (slotAddress cfg job.slot (line row) (column k x))) →
    (∀ k x row, newC k x row = memRead store.mem (slotAddress cfg job.slot (line row) (chroma k x) + 1)) →
    (∀ k x, written k x ↔ k * 16384 + storedColumn cfg x ∈ store.coverage) →
    (∀ k x row, written k x →
      oldY k x row = memRead store.mem (cellAddress cfg (storedColumn cfg x) row) ∧
      oldC k x row = memRead store.mem (cellAddress cfg (storedColumn cfg x) row + 1)) →
    (∀ k x row, ¬written k x → oldY k x row = store.fill.y) →
    (job.strip0 = true → stripSeams cfg store dir front job = List.replicate 8 none) ∧
    (job.strip0 = false →
      ∃ costs : List (List (Int × Nat)), costs.length = 8 ∧
        stripSeams cfg store dir front job = solveSeams cfg.jumpLimit costs ∧
        ∀ k, k < 8 → costs.getD k [] = (seamCandidates cfg front (edge k)).map fun c =>
          (c, ((List.range (bandRows cfg)).map fun r =>
            (((oldY k c (k * bandRows cfg + r)).toNat : Int) - (newY k c (k * bandRows cfg + r)).toNat).natAbs).sum)) ∧
    ∀ (seams : List (Option Int)) (output : Nat → Int → Nat → Byte × Byte) (start : Nat → Int),
      (∀ k, start k = if job.strip0 then edge k else
        match seams.getD k none with
        | some c => c - (cfg.blend / 2 : Nat)
        | none => max (edge k) front) →
      (∀ k x row, output k x row = stripPixel cfg store dir clean job seams k x row) →
      (∀ u : WriteUnit, u ∈ stripUnits cfg store dir front clean job seams ↔
        ∃ (k row : Nat) (x : Int), k < 8 ∧ start k ≤ x ∧ x < job.newFront ∧ k * bandRows cfg ≤ row ∧
          row < (k + 1) * bandRows cfg ∧
          u = ⟨cellAddress cfg (storedColumn cfg x) row, (output k x row).1, (output k x row).2,
            .cell k (storedColumn cfg x)⟩) ∧
      ∀ (k row z even : Nat) (x reverse : Int) (inZone inReverse : Prop), k * bandRows cfg ≤ row →
        row < (k + 1) * bandRows cfg →
        (inZone ↔ ∃ c, seams.getD k none = some c ∧ c - (cfg.blend / 2 : Nat) ≤ x ∧ x < c + (cfg.blend / 2 : Nat)) →
        reverse = clean + (ringWidth cfg : Int) - cfg.blend → (inReverse ↔ job.cls = .closing ∧ reverse ≤ x) →
        even = z - z % 2 →
        ((¬written k x ∨ (¬inZone ∧ ¬inReverse)) → output k x row = (newY k x row, newC k x row)) ∧
        (written k x → (∃ c, seams.getD k none = some c ∧ inZone ∧ z = (x - (c - (cfg.blend / 2 : Nat))).toNat) →
          output k x row =
            (BitVec.ofNat 8 (((oldY k x row).toNat * (2 * cfg.blend - 2 * z - 1) +
                (newY k x row).toNat * (2 * z + 1) + cfg.blend) / (2 * cfg.blend)),
              BitVec.ofNat 8 (((oldC k x row).toNat * (2 * cfg.blend - 2 * even - 1) +
                (newC k x row).toNat * (2 * even + 1) + cfg.blend) / (2 * cfg.blend)))) ∧
        (written k x → ¬inZone → inReverse → z = (x - reverse).toNat →
          output k x row =
            (BitVec.ofNat 8 (((newY k x row).toNat * (2 * cfg.blend - 2 * z - 1) +
                (oldY k x row).toNat * (2 * z + 1) + cfg.blend) / (2 * cfg.blend)),
              BitVec.ofNat 8 (((newC k x row).toNat * (2 * cfg.blend - 2 * even - 1) +
                (oldC k x row).toNat * (2 * even + 1) + cfg.blend) / (2 * cfg.blend))))) ∧
  ∀ (c : Instr) (s t : State), exec c s = .next t →
    (∀ job : StripJob, t.comp.state = .compositing → t.comp.job = some job → job.planned = true →
      ¬(s.comp.state = .compositing ∧ s.comp.job.map StripJob.planned = some true) →
      job.seams = stripSeams t.sweepCfg t.store t.place.direction t.comp.front job ∧
      (job.detached = true ↔ job.strip0 = false ∧
        ∃ k, k < 8 ∧ job.seams.getD k none = none ∧ t.comp.front < job.edges.getD k 0) ∧
      (job.wrapped = true ↔
        ∃ k x, k < 8 ∧ x ∈ writtenColumns t.sweepCfg t.comp.front job job.seams k ∧
          (storedColumn t.sweepCfg x : Int) ≠ x) ∧
      t.comp.todo = stripUnits t.sweepCfg t.store t.place.direction t.comp.front
        (if job.strip0 then maxOf 0 job.edges else t.comp.clean.getD 0) job job.seams) ∧
    ((∀ job : StripJob, s.comp.state = .compositing → s.comp.job = some job → job.planned = false →
        linesReady s job.slot = false) →
      ∀ job : StripJob, t.comp.state = .compositing → t.comp.job = some job → job.planned = false →
        linesReady t job.slot = false)

/-- The writes of a planned strip are complete, with nothing left to read: the compositor and the registration unit
are HARVESTING, the compositor asks for no more memory, and nothing else changes. The harvest has to read the
words of LEAD's candidates, and at strip 0 in RING mode of OPENING's: those that hold a cell of the 16 rows of an
eligible candidate of a band, one whose 16 stored columns are all covered. While a word is left to read, neither
the writes nor the harvest completes. What the event needs before it can come, and the words that the harvest
reads, are the model's reading (log entry 26). -/
def Obligations.WritesCompleteAskForTheHarvest : Prop :=
  (∀ (s : State) (job : StripJob), s.comp.state = .compositing → s.comp.job = some job → job.planned = true →
    s.comp.todo = [] → readsLeft s .compositor = [] →
    ∃ t, exec .stripWritesComplete s = .next t ∧ t.comp.job = some job ∧ t.comp.todo = [] ∧
      settlesTo { dropEngine .compositor s with
        comp := { s.comp with state := .harvesting }
        reg := { s.reg with state := .harvesting, openingHarvest := false } } t ∧
      (s.arb.regReads = none →
        ∀ w, w ∈ readsLeft t .registration ↔
          w ∈ harvestWords s.sweepCfg s.store (leadColumns job.newFront) ∨
          (job.strip0 = true ∧ s.sweepCfg.mode = .ring ∧
            w ∈ harvestWords s.sweepCfg s.store (openingColumns (maxOf 0 job.edges))))) ∧
  (∀ (cfg : Configuration) (store : CanvasStore) (columns : List Int) (w : Nat),
    w ∈ harvestWords cfg store columns ↔
      ∃ (k : Nat) (x : Int) (r j : Nat), k < 8 ∧ x ∈ columns ∧ r < 16 ∧ j < 16 ∧
        (∀ i : Nat, i < 16 → coverageIndex k (storedColumn cfg (x + i)) ∈ store.coverage) ∧
        w = cellAddress cfg (storedColumn cfg (x + j)) (bandCentre cfg k - 8 + r) / 8) ∧
  ∀ s : State,
    (readsLeft s .compositor ≠ [] → ∃ t, exec .stripWritesComplete s = .next t ∧ settlesTo s t) ∧
    (readsLeft s .registration ≠ [] → ∃ t, exec .harvestComplete s = .next t ∧ settlesTo s t)

/-- The harvest completes with nothing left to read and the strip commits, in OPEN with no frame queued, and the
frame's own placement in hand, or none, or, for strip 0, that of the deciding frame which waits for this commit:
the record is appended, F, G, S and the trims take their values (a pending re-anchor's trim last), the closure
result is a closing strip's, LEAD is harvested whole with the new front and OPENING at strip 0 in RING mode, a
stall of requester 0 is tested again, the slot is FREE and composited counted, STRIP (bit 6) is raised and
PITCH_LIMIT (bit 4) for a clamped pitch, at most one end request is sent, and the preview update begins. The
deciding frame then goes on from its band lookups: it waits for motion where the ring does not answer; with the
motion-lost mark set it is history-placed from strip 0's record; answered by the ring it takes its predicted
centre and its clamped band shifts in the direction decided. A harvested table has the bands in order, at most one
entry each: of the band's candidate columns whose 16 stored columns are all covered, the one of highest texture energy,
of equal energies the higher column, if that energy reaches the texture threshold; its samples are the canvas luma of
16 columns and of the 16 rows about the band's centre; the energy is the sum over these of the differences to the
right and downward neighbours, at the last column and the last row to the one before. LEAD's candidates are the
columns F' − 96 to F' − 32 by 8, OPENING's G to G + 32 by 8. That the tables are formed when the event comes, and
that every word was read, is the model's choice (log entry 26). -/
def Obligations.HarvestCommitsTheStrip : Prop :=
  (∀ f g : Int,
    leadColumns f = [f - 96, f - 88, f - 80, f - 72, f - 64, f - 56, f - 48, f - 40, f - 32] ∧
    openingColumns g = [g, g + 8, g + 16, g + 24, g + 32]) ∧
  (∀ (cfg : Configuration) (store : CanvasStore) (columns : List Int) (sample : Nat → Int → Nat → Nat → Nat)
      (energy : Nat → Int → Nat) (covered : Nat → Int → Prop),
    cfg.frameHeight % 8 = 0 → cfg.margin % 4 = 0 → 2 * cfg.margin + 128 ≤ cfg.frameHeight →
    columns.Pairwise (· < ·) →
    (∀ k x r j, sample k x r j = (memRead store.mem
      (cellAddress cfg (storedColumn cfg (x + (j : Int))) (bandCentre cfg k - 8 + r))).toNat) →
    (∀ k x, energy k x = ((List.range 16).map fun r => ((List.range 16).map fun c =>
      ((sample k x r (if c = 15 then 14 else c + 1) : Int) - sample k x r c).natAbs +
        ((sample k x (if r = 15 then 14 else r + 1) c : Int) - sample k x r c).natAbs).sum).sum) →
    (∀ k x, covered k x ↔ x ∈ columns ∧
      ∀ j : Nat, j < 16 → k * 16384 + storedColumn cfg (x + (j : Int)) ∈ store.coverage) →
    ((harvestTable cfg store columns).map Patch.band).Pairwise (· < ·) ∧
    ∀ p : Patch, p ∈ harvestTable cfg store columns ↔
      p.band < 8 ∧ covered p.band p.x ∧ cfg.textureThreshold ≤ energy p.band p.x ∧
      (∀ x, covered p.band x →
        energy p.band x < energy p.band p.x ∨ (energy p.band x = energy p.band p.x ∧ x ≤ p.x)) ∧
      p.y = bandCentre cfg p.band - 8 ∧
      p.samples = (List.range 16).map fun r => (List.range 16).map fun j => sample p.band p.x r j) ∧
  ∀ (s : State) (job : StripJob) (record : StripRecord) (trims : Int × Int),
    s.reg.state = .harvesting → s.comp.state = .harvesting → s.comp.job = some job → s.sweep.state = .opened →
    s.ingest.queue = [] → slotState s.ingest.slots job.slot ≠ .free → readsLeft s .registration = [] →
    (s.place.work = none ∨ (∃ w, s.place.work = some w ∧ w.slot = job.slot) ∨
      (job.strip0 = true ∧ ∃ w, s.place.work = some w ∧ w.slot ≠ job.slot ∧ w.stage = .awaitStrip0 ∧
        w.cls = .ordinary ∧ slotState s.ingest.slots w.slot = .engaged)) →
    record = stripRecord s.sweepCfg s.comp.strips.length s.comp.front job →
    trims = trimAfter s.sweepCfg s.place.direction job.result.correction s.comp.trimYaw s.comp.trimPitch →
    ∃ t, exec .harvestComplete s = .next t ∧
      t.comp.strips = s.comp.strips ++ [record] ∧ t.comp.front = job.newFront ∧
      t.comp.clean = (if job.strip0 then some (maxOf 0 job.edges) else s.comp.clean) ∧
      t.comp.settled = max (max s.comp.settled (job.newFront - s.sweepCfg.seamReach - (s.sweepCfg.blend / 2 : Nat))) 0 ∧
      t.comp.trimYaw =
        (match s.comp.pendingReanchor with
        | none => trims.1
        | some r => reanchorTrim s.sweepCfg s.place.direction (s.comp.strips ++ [record]) (s.place.originYaw.getD 0) r) ∧
      t.comp.trimPitch = trims.2 ∧ t.comp.pendingReanchor = none ∧
      t.comp.closureError = (if job.cls = .closing then job.result.closure else s.comp.closureError) ∧
      t.comp.closurePoor = (if job.cls = .closing then closurePoor s.sweepCfg job.result.closure else s.comp.closurePoor) ∧
      t.comp.state = .updating ∧ t.comp.job = none ∧
      t.comp.todo = previewUnits s.sweepCfg s.store
        (updateColumns s.sweepCfg s.store t.comp.settled t.comp.clean) ∧
      t.reg.lead = harvestTable s.sweepCfg s.store (leadColumns job.newFront) ∧
      t.reg.opening = (if job.strip0 ∧ s.sweepCfg.mode = .ring then
          harvestTable s.sweepCfg s.store (openingColumns (maxOf 0 job.edges))
        else s.reg.opening) ∧ t.reg.openingHarvest = false ∧
      slotState t.ingest.slots job.slot = .free ∧
      (∀ j, j ≠ job.slot → slotState t.ingest.slots j = slotState s.ingest.slots j) ∧
      t.place.saved = (if job.strip0 then none else s.place.saved) ∧ t.place.direction = s.place.direction ∧
      ((s.place.work = none ∨ ∃ w, s.place.work = some w ∧ w.slot = job.slot) →
        t.place.work = none ∧ t.place.state = .ready ∧ t.reg.state = .idle ∧ t.comp.guide = s.comp.guide ∧
        t.comp.waiting = s.comp.waiting) ∧
      (∀ w, s.place.work = some w → w.slot ≠ job.slot →
        (s.place.motionLost = false → w.metLoss = false → waitExpired s.sweepCfg s.timeBase w = false →
          lookupRing s.motion.ring (w.bandTimes.getD 0 0) = none →
          t.place.state = .waitMotion ∧ t.place.work = some { w with stage := .band 0 } ∧ t.reg.state = .idle ∧
          t.comp.guide = s.comp.guide) ∧
        (s.place.motionLost = true → s.comp.strips = [] →
          t.place.state = .passed ∧ ∃ w', t.place.work = some w' ∧ w'.slot = w.slot ∧ w'.source = .history ∧
            w'.xC = record.xC ∧ w'.yP = record.yP ∧ w'.shifts = List.replicate 8 0 ∧
            w'.flags = { w'.flags with extrapolated := true } ∧
            (t.reg.lead ≠ [] → t.reg.state = .searching ∧ t.comp.guide.count = s.comp.guide.count + 1 ∧
              t.comp.guide.seq = w.seq)) ∧
        (∀ (pose : Nat → PoseFound) (sign : Int), s.place.motionLost = false → w.bandYaws = [] →
          sign = (if s.place.direction = .minus then -1 else 1) →
          (∀ k, k < 8 → lookupRing s.motion.ring (w.bandTimes.getD k 0) = some (pose k)) →
          t.place.state = .passed ∧ ∃ w', t.place.work = some w' ∧ w'.slot = w.slot ∧ w'.source = w.source ∧
            w'.yP = w.yP ∧ w'.bandYaws = (List.range 8).map (fun k => (pose k).yaw) ∧
            w'.xC = (s.sweepCfg.frameWidth / 2 + 64 : Nat) +
              sign * (w.refYaw + w.trimYaw - s.place.originYaw.getD 0) / s.sweepCfg.columnAngle ∧
            w'.shifts = (List.range 8).map (fun k =>
              max (-64) (min 64 (sign * ((pose k).yaw - w.refYaw) / s.sweepCfg.columnAngle))) ∧
            (t.reg.lead ≠ [] → t.reg.state = .searching ∧ t.comp.guide.count = s.comp.guide.count + 1 ∧
              t.comp.guide.seq = w.seq))) ∧
      t.sweep = { s.sweep with
        counters := { s.sweep.counters with composited := holdCount (s.sweep.counters.composited + 1) }
        endRequests := s.sweep.endRequests ++
          if job.cls = .closing then [.closed]
          else if job.cls = .extent then [.extent]
          else if s.comp.strips.length + 1 = 256 then [.stripsFull]
          else [] } ∧
      t.attn = { s.attn with
        pendingSet := s.attn.pendingSet ||| 64 ||| if job.frameFlags.pitchClamp then 16 else 0 } ∧
      t.motion = s.motion ∧ t.store = s.store ∧ t.ctl = s.ctl ∧ t.config = s.config ∧ stallRetested s t

/-- The preview update is complete, no end request of a commit waiting: the compositor is READY, or takes the
placement held meanwhile if it advances. One that does not advance is released, in OPEN with no frame queued: its slot
FREE, no_advance counted, the placement unit and the compositor READY, and a pending re-anchor applied to the yaw trim
as it leaves. While an end request of the commit waits, which any reason but FAULT is,
the update does not complete. The closing work is complete: the compositor is READY, SWEEP_END (bit 1) is raised
and a stall of requester 0 is tested again; the canvas, the strips, the fronts and the sweep record are retained.
With a word left to read, neither completes. What the events need before they can come is the model's choice (log
entry 26); that the update lasts until the end request of its commit is taken, and that the ERROR RANGE of a strip
which now never comes follows its WAITING header where that is still posted, are its readings (log entries 43 and
23). -/
def Obligations.PreviewUpdateAndClosingWorkComplete : Prop :=
  (∀ s : State, s.comp.state = .updating → s.comp.halted = false → s.comp.todo = [] → s.comp.waiting = none →
    readsLeft s .compositor = [] → (∀ reason ∈ s.sweep.endRequests, reason = .fault) →
    ∃ t, exec .previewUpdateComplete s = .next t ∧
      settlesTo { dropEngine .compositor s with comp := { s.comp with state := .ready } } t) ∧
  (∀ (s : State) (job : StripJob) (cls : StripClass) (newFront : Int),
    s.comp.state = .updating → s.comp.halted = false → s.comp.todo = [] → s.comp.waiting = some job →
    readsLeft s .compositor = [] → (∀ reason ∈ s.sweep.endRequests, reason = .fault) →
    anySlot s.ingest.slots .engaged = true →
    (cls, newFront) = classifyStrip s.sweepCfg (stripClean s.comp.clean job) (leastEnd s.sweepCfg job.edges) →
    (job.strip0 = true ∨ cls ≠ .normal ∨ (s.sweepCfg.minAdvance : Int) ≤ newFront - s.comp.front) →
    ∃ t, exec .previewUpdateComplete s = .next t ∧
      settlesTo { dropEngine .compositor s with comp := { s.comp with
        state := .compositing, waiting := none, todo := []
        job := some { job with cls := cls, newFront := newFront, planned := false } } } t) ∧
  (∀ (s : State) (job : StripJob) (newFront : Int),
    s.comp.state = .updating → s.comp.halted = false → s.comp.todo = [] → s.comp.waiting = some job →
    readsLeft s .compositor = [] → (∀ reason ∈ s.sweep.endRequests, reason = .fault) →
    s.sweep.state = .opened → s.ingest.queue = [] → slotState s.ingest.slots job.slot ≠ .free → job.strip0 = false →
    classifyStrip s.sweepCfg (s.comp.clean.getD 0) (leastEnd s.sweepCfg job.edges) = (.normal, newFront) →
    newFront - s.comp.front < (s.sweepCfg.minAdvance : Int) →
    ∃ t, exec .previewUpdateComplete s = .next t ∧
      settlesTo { dropEngine .compositor s with
        comp := { s.comp with
          state := .ready, waiting := none, job := none, pendingReanchor := none
          trimYaw := match s.comp.pendingReanchor with
            | none => s.comp.trimYaw
            | some r => reanchorTrim s.sweepCfg s.place.direction s.comp.strips (s.place.originYaw.getD 0) r }
        ingest := { s.ingest with
          slots := s.ingest.slots.modify job.slot fun slot => { slot with state := .free } }
        sweep := { s.sweep with counters := { s.sweep.counters with
          noAdvance := holdCount (s.sweep.counters.noAdvance + 1) } }
        place := { s.place with state := .ready, work := none } } t) ∧
  (∀ s : State, s.comp.state = .closing → s.comp.todo = [] → readsLeft s .compositor = [] →
    ∃ t, exec .closingWorkComplete s = .next t ∧
      restAs { s with
        comp := { s.comp with state := .ready }
        attn := { s.attn with pendingSet := s.attn.pendingSet ||| 2 } } t ∧ stallRetested s t) ∧
  (∀ (s : State) (reason : EndReason), reason ∈ s.sweep.endRequests → reason ≠ .fault →
    ∃ t, exec .previewUpdateComplete s = .next t ∧ settlesTo s t) ∧
  ∀ s : State, readsLeft s .compositor ≠ [] →
    (∃ t, exec .previewUpdateComplete s = .next t ∧ settlesTo s t) ∧
    ∃ t, exec .closingWorkComplete s = .next t ∧ settlesTo s t

/-! ## The stacked DRAM and the arbiter -/

/-- A write burst of the ingest unit completes in a canonical memory: its bytes stand in the DRAM from its address
upward, every other byte reads as before, and the words it covers carry no earlier error. The last burst of the
oldest line frees that line's entry and counts the line as written, if it is the slot's next; a burst of a frame that has been
dropped only stores its bytes. Nothing else changes. That a write stores its bytes when its burst completes is the
model's reading (log entry 5), and that a line counts as written only in its order is its choice (log entry 18). -/
def Obligations.IngestBurstStoresItsBytes : Prop :=
  ∀ (s : State) (b : IngestBurst) (live : Bool) (move : EngineMove) (e : MemErrors),
    memorySound s → s.arb.inProgress = some (.ingest b live) →
    ∃ t, exec (.memoryBurstComplete move e) s = .next t ∧
      (∀ i, i < b.bytes.length → memRead t.store.mem (b.addr + i) = b.bytes.getD i 0) ∧
      (∀ a, (a < b.addr ∨ b.addr + b.bytes.length ≤ a) → memRead t.store.mem a = memRead s.store.mem a) ∧
      (∀ w, (w ∈ t.store.singleFlaws ↔ w ∈ s.store.singleFlaws ∧ w ∉ touchedWords b.addr b.bytes.length) ∧
        (w ∈ t.store.multiFlaws ↔ w ∈ s.store.multiFlaws ∧ w ∉ touchedWords b.addr b.bytes.length)) ∧
      t.store = { s.store with
        mem := t.store.mem, singleFlaws := t.store.singleFlaws, multiFlaws := t.store.multiFlaws } ∧
      (live = false → restAs { s with store := t.store } t) ∧
      ∀ l rest, live = true → s.ingest.lines = l :: rest →
        restAs { s with
          store := t.store
          ingest := { s.ingest with
            lines := if b.last then rest else l :: rest
            slots :=
              if b.last then
                s.ingest.slots.modify l.slot fun slot => { slot with info := { slot.info with
                  linesWritten :=
                    if slot.info.linesWritten = l.line then slot.info.linesWritten + 1 else slot.info.linesWritten } }
              else s.ingest.slots } } t

/-- The words of a burst are those its bytes touch. A read counts each word it corrects, and what the check data
showed stays with the word until it is rewritten. A read burst of an engine unit completes, of bytes that its
operation reads. With no uncorrectable word nothing else changes, but that the harvest of strip 0 in RING mode
turns to OPENING, with LEAD replaced whole, at the first read once no word of LEAD's candidates is left to read,
and that the words read are left to read no more, for either unit. A search reads words of LEAD's windows alone
while one of them is left to read or no closure measurement is due, and words of OPENING's windows alone after
that. With one, FAULT (bit 0) is raised and a FAULT end request is sent: a search ends without a result; a harvest
leaves the table it was harvesting empty and its strip is dropped, as is a strip in compositing; an update is
halted; in the closing work every block that the burst read takes the fill pixel and no other changes. The fronts,
trims and strips stay, and so do the DRAM and both flag sets. A read of an operation that has ended is only
checked. A move that the operation cannot have made leaves the state as it is, and one beyond the DRAM faults.
What the burst moved and the errors in it are operands (log entries 5 and 6); that an operation lists its words
and that those read leave what it has still to read is the model's choice (log entry 26); the halted update and
the order of the two tables in a harvest, with which of them a fault leaves empty, are the model's choices (log
entries 15 and 27); that a dropped strip leaves the compositor READY at once with no job, and in compositing with
no pending re-anchor, is the model's choice (log entry 34). -/
def Obligations.EngineReadErrors : Prop :=
  (∀ addr len w, 0 < len → (w ∈ touchedWords addr len ↔ addr < 8 * w + 8 ∧ 8 * w < addr + len)) ∧
  (∀ (s u : State) (words : List Nat) (e : MemErrors), u = checkWords words e s →
    u = { s with store := { s.store with
      corrected := u.store.corrected, singleFlaws := u.store.singleFlaws, multiFlaws := u.store.multiFlaws } } ∧
    (∃ hit : List Nat, hit.Sublist words ∧ u.store.corrected = holdCount (s.store.corrected + hit.length) ∧
      ∀ w ∈ words, w ∈ hit ↔ ¬wordFails s.store e w ∧ (w ∈ s.store.singleFlaws ∨ w ∈ e.single)) ∧
    ∀ w, (w ∈ u.store.multiFlaws ↔ w ∈ s.store.multiFlaws ∨ (w ∈ words ∧ w ∈ e.multi)) ∧
      (w ∈ u.store.singleFlaws ↔
        (w ∈ s.store.singleFlaws ∨ (w ∈ words ∧ w ∈ e.single)) ∧ ¬(w ∈ words ∧ wordFails s.store e w))) ∧
  (∀ (s : State) (job : StripJob), s.reg.state = .harvesting → s.comp.job = some job →
    (s.reg.openingHarvest = false → onOpening s job = true →
      (turnToOpening s).reg = { s.reg with
        lead := harvestTable s.sweepCfg s.store (leadColumns job.newFront), openingHarvest := true }) ∧
    (onOpening s job = true ↔ job.strip0 = true ∧ s.sweepCfg.mode = .ring ∧
      ∀ w ∈ readsLeft s .registration, w ∉ leadWords s job) ∧
    ((s.reg.openingHarvest = true ∨ onOpening s job = false) → turnToOpening s = s)) ∧
  (∀ (s : State) (unit : EngineUnit) (late : List WriteUnit) (areas : List MoveArea) (addr len : Nat) (e : MemErrors)
      (words : List Nat) (reg : Registration),
    s.arb.inProgress = some (.engine unit true late areas) → moveWellFormed (.read addr len) = true →
    moveFits unit true late areas (.read addr len) s = true → words = touchedWords addr len →
    reg = (if unit = .registration then turnToOpening s else s).reg →
    ((∀ w ∈ words, ¬wordFails s.store e w) →
      ∃ t, exec (.memoryBurstComplete (.read addr len) e) s = .next t ∧
        restAs { s with store := (checkWords words e s).store, reg := reg } t ∧
        (unit = .registration → s.reg.state ≠ .idle → ∀ left, s.arb.regReads = some left →
          t.arb.regReads = some (left.filter fun w => decide (w ∉ words))) ∧
        (unit = .compositor → (s.comp.state = .updating ∨ s.comp.state = .closing ∨
            (s.comp.state = .compositing ∧ s.comp.job.map StripJob.planned = some true)) →
          ∀ left, s.arb.compReads = some left →
            t.arb.compReads = some (left.filter fun w => decide (w ∉ words)))) ∧
    ((∃ w ∈ words, wordFails s.store e w) →
      ∃ t, exec (.memoryBurstComplete (.read addr len) e) s = .next t ∧
        t.store = (checkWords words e s).store ∧
        t.attn = { s.attn with pendingSet := s.attn.pendingSet ||| 1 } ∧
        t.sweep = { s.sweep with endRequests := s.sweep.endRequests ++ [.fault] } ∧
        t.comp.front = s.comp.front ∧ t.comp.settled = s.comp.settled ∧ t.comp.clean = s.comp.clean ∧
        t.comp.strips = s.comp.strips ∧ t.comp.trimYaw = s.comp.trimYaw ∧ t.comp.trimPitch = s.comp.trimPitch ∧
        t.comp.guide = s.comp.guide ∧ t.ingest.slots = s.ingest.slots ∧ t.ingest.queue = s.ingest.queue ∧
        t.motion = s.motion ∧ t.place = s.place ∧ t.ctl = s.ctl ∧
        (unit = .registration → s.reg.state = .searching →
          t.reg = { s.reg with state := .idle } ∧ t.comp.state = s.comp.state) ∧
        (unit = .registration → s.reg.state = .harvesting →
          t.reg = (if reg.openingHarvest then { reg with state := .idle, opening := [], openingHarvest := false }
            else { reg with state := .idle, lead := [] }) ∧ t.comp.state = .ready ∧ t.comp.job = none) ∧
        (unit = .compositor → s.comp.state = .compositing →
          t.reg = s.reg ∧ t.comp.state = .ready ∧ t.comp.job = none ∧ t.comp.pendingReanchor = none) ∧
        (unit = .compositor → s.comp.state = .updating →
          t.reg = s.reg ∧ t.comp.state = .updating ∧ t.comp.halted = true ∧ t.comp.todo = []) ∧
        (unit = .compositor → s.comp.state = .closing →
          t.reg = s.reg ∧ t.comp.state = .closing ∧ t.comp.todo.length = s.comp.todo.length ∧
          ∀ (i : Nat) (u : WriteUnit) (j q : Nat), s.comp.todo[i]? = some u → u.target = .preview j q →
            ((∃ dr, dr < 8 ∧ cellAddress s.sweepCfg (8 * j) (8 * q + dr) < addr + len ∧
                addr < cellAddress s.sweepCfg (8 * j) (8 * q + dr) + 16) →
              t.comp.todo[i]? = some { u with y := s.store.fill.y, c := fillChroma s.store.fill j }) ∧
            ((∀ dr, dr < 8 → addr + len ≤ cellAddress s.sweepCfg (8 * j) (8 * q + dr) ∨
                cellAddress s.sweepCfg (8 * j) (8 * q + dr) + 16 ≤ addr) →
              t.comp.todo[i]? = some u)))) ∧
  (∀ (s : State) (w : Working) (late : List WriteUnit) (areas : List MoveArea) (addr len : Nat) (e : MemErrors),
    s.reg.state = .searching → s.place.work = some w →
    s.arb.inProgress = some (.engine .registration true late areas) → addr + len ≤ 67108864 →
    ((frameClosureDue s w = false ∨ ∃ word ∈ readsLeft s .registration, word ∈ leadWindows s w) →
      (∃ word ∈ touchedWords addr len, word ∉ leadWindows s w) →
      exec (.memoryBurstComplete (.read addr len) e) s = .next s) ∧
    (frameClosureDue s w = true → (∀ word ∈ readsLeft s .registration, word ∉ leadWindows s w) →
      (∃ word ∈ touchedWords addr len, word ∉ openingWindows s w) →
      exec (.memoryBurstComplete (.read addr len) e) s = .next s)) ∧
  ∀ (s : State) (unit : EngineUnit) (live : Bool) (late : List WriteUnit) (areas : List MoveArea) (addr len : Nat)
      (e : MemErrors),
    s.arb.inProgress = some (.engine unit live late areas) →
    (live = false → moveWellFormed (.read addr len) = true →
      moveFits unit false late areas (.read addr len) s = true →
      ∃ t, exec (.memoryBurstComplete (.read addr len) e) s = .next t ∧
        restAs { s with store := (checkWords (touchedWords addr len) e s).store } t) ∧
    (addr + len ≤ 67108864 → (∀ a ∈ areas, a.reads = true → addr < a.base ∨ a.base + a.size < addr + len) →
      exec (.memoryBurstComplete (.read addr len) e) s = .next s) ∧
    (67108864 < addr + len → exec (.memoryBurstComplete (.read addr len) e) s = .fault .outsideDram)

/-- The words that a write reads first are those it covers in part. A write burst of the compositor completes in a
canonical memory. Every byte outside the burst reads as before, and so does every byte within it that belongs to
no pixel of the work at hand. With no uncorrectable word among those it reads first, the pixels wholly within the
burst are stored and leave the work and no other does, their words carry no error, and the flag of a column is set
when the last of its pixels is stored; no other flag changes. An uncorrectable word is left as it was: FAULT is
raised and a FAULT end request is sent, a strip in compositing is dropped, an update is halted, and the closing
work goes on. A write of an operation that has ended only stores the pixels that operation had left, and an
uncorrectable word is left as it was without any other effect. What the burst moved and the errors in it are
operands (log entries 5 and 6); what an uncorrectable word does to a strip's frame, to an update, which it leaves
halted with nothing to do, and to the closing work are the model's choices (log entries 34, 15 and 39). -/
def Obligations.EngineWriteStaysInItsBurst : Prop :=
  (∀ (units : List WriteUnit) (w : Nat), (∀ u ∈ units, u.addr % 2 = 0) →
    (w ∈ mergedWords units ↔ (∃ u ∈ units, u.addr / 8 = w) ∧ ∃ i, i < 4 ∧ ∀ u ∈ units, u.addr ≠ 8 * w + 2 * i)) ∧
  (∀ (s : State) (late : List WriteUnit) (areas : List MoveArea) (addr len : Nat) (e : MemErrors) (merged : List Nat),
    memorySound s → s.arb.inProgress = some (.engine .compositor true late areas) →
    moveWellFormed (.write addr len) = true → moveFits .compositor true late areas (.write addr len) s = true →
    merged = mergedWords (unitsWithin addr len s.comp.todo) →
    ∃ t, exec (.memoryBurstComplete (.write addr len) e) s = .next t ∧
      (∀ a, (a < addr ∨ addr + len ≤ a) → memRead t.store.mem a = memRead s.store.mem a) ∧
      (∀ a, (∀ u ∈ s.comp.todo, a ≠ u.addr ∧ a ≠ u.addr + 1) → memRead t.store.mem a = memRead s.store.mem a) ∧
      (∀ u ∈ s.comp.todo, unitInside addr len u → ¬(u.addr / 8 ∈ merged ∧ wordFails s.store e (u.addr / 8)) →
        (∀ v ∈ s.comp.todo, unitsApart u v) →
        memRead t.store.mem u.addr = u.y ∧ memRead t.store.mem (u.addr + 1) = u.c ∧
        u.addr / 8 ∉ t.store.singleFlaws ∧ u.addr / 8 ∉ t.store.multiFlaws) ∧
      t.store.corrected = (checkWords merged e s).store.corrected ∧ t.store.fill = s.store.fill ∧
      (∀ i, i ∈ s.store.coverage → i ∈ t.store.coverage) ∧ (∀ i, i ∈ s.store.computed → i ∈ t.store.computed) ∧
      (∀ i, i ∈ t.store.coverage → i ∈ s.store.coverage ∨
        ∃ u ∈ s.comp.todo, ∃ k x, u.target = .cell k x ∧ i = coverageIndex k x ∧
          ∀ v ∈ s.comp.todo, v.target = .cell k x → unitInside addr len v) ∧
      (∀ i, i ∈ t.store.computed → i ∈ s.store.computed ∨
        ∃ u ∈ s.comp.todo, ∃ q, u.target = .preview i q ∧
          ∀ v ∈ s.comp.todo, ∀ p, v.target = .preview i p → unitInside addr len v) ∧
      (((∀ w ∈ merged, ¬wordFails s.store e w) ∨ s.comp.state = .closing) →
        ((∀ job, s.comp.job = some job → job.planned = true) →
          ∀ u, u ∈ t.comp.todo ↔ u ∈ s.comp.todo ∧ ¬unitInside addr len u) ∧
        (∀ u ∈ s.comp.todo, unitInside addr len u →
          (∀ k x, u.target = .cell k x → (∀ v ∈ s.comp.todo, v.target = .cell k x → unitInside addr len v) →
            coverageIndex k x ∈ t.store.coverage) ∧
          (∀ j q, u.target = .preview j q →
            (∀ v ∈ s.comp.todo, ∀ p, v.target = .preview j p → unitInside addr len v) → j ∈ t.store.computed))) ∧
      ((∀ w ∈ merged, ¬wordFails s.store e w) →
        restAs { s with store := t.store, comp := { s.comp with todo := t.comp.todo } } t) ∧
      ((∃ w ∈ merged, wordFails s.store e w) → ∃ comp : Compositor,
        restAs { s with
          store := t.store
          attn := { s.attn with pendingSet := s.attn.pendingSet ||| 1 }
          sweep := { s.sweep with endRequests := s.sweep.endRequests ++ [.fault] }
          comp := comp } t ∧
        (s.comp.state = .closing → comp = { s.comp with todo := t.comp.todo }) ∧
        (s.comp.state = .compositing →
          comp = { s.comp with state := .ready, job := none, pendingReanchor := none, todo := [] }) ∧
        (s.comp.state = .updating → comp = { s.comp with todo := [], halted := true }) ∧
        (∀ w ∈ merged, wordFails s.store e w → w ∈ t.store.multiFlaws ∧ ((∀ u ∈ s.comp.todo, u.addr % 2 = 0) →
          ∀ i, i < 8 → memRead t.store.mem (8 * w + i) = memRead s.store.mem (8 * w + i))))) ∧
  ∀ (s : State) (unit : EngineUnit) (late : List WriteUnit) (areas : List MoveArea) (addr len : Nat) (e : MemErrors)
      (merged : List Nat),
    memorySound s → s.arb.inProgress = some (.engine unit false late areas) →
    moveWellFormed (.write addr len) = true → moveFits unit false late areas (.write addr len) s = true →
    merged = mergedWords (unitsWithin addr len late) →
    ∃ t, exec (.memoryBurstComplete (.write addr len) e) s = .next t ∧
      (∀ a, (a < addr ∨ addr + len ≤ a) → memRead t.store.mem a = memRead s.store.mem a) ∧
      (∀ u ∈ late, unitInside addr len u → ¬(u.addr / 8 ∈ merged ∧ wordFails s.store e (u.addr / 8)) →
        (∀ v ∈ late, unitsApart u v) →
        memRead t.store.mem u.addr = u.y ∧ memRead t.store.mem (u.addr + 1) = u.c) ∧
      (∀ w ∈ merged, wordFails s.store e w → w ∈ t.store.multiFlaws ∧ ((∀ u ∈ late, u.addr % 2 = 0) →
        ∀ i, i < 8 → memRead t.store.mem (8 * w + i) = memRead s.store.mem (8 * w + i))) ∧
      t.store.corrected = (checkWords merged e s).store.corrected ∧
      t.store.coverage = s.store.coverage ∧ t.store.computed = s.store.computed ∧ t.store.fill = s.store.fill ∧
      restAs { s with store := t.store } t

/-- A fetch read takes its bytes at its grant: the stored byte where the coverage flag or the computed flag of its
column is set, and the sweep's fill elsewhere, U at an even column and V at an odd one. When it completes for a
transfer that prepares a burst, its words are checked. With no uncorrectable word its bytes are in hand, behind
those already there, or the burst they complete is the requester's next; with one, the transfer ends with ERROR
MEMORY and the item's index, and neither an attention cause nor an end request comes of it. A read of a transfer
that has ended is only checked. The DRAM and the flags are unchanged. The errors are an operand (log entry 6). -/
def Obligations.FetchReadCompletes : Prop :=
  (∀ (s : State) (b : FetchRead), s.arb.fetchWait = some b →
    (grantClient .fetch s).arb.inProgress = some (.fetch b (fetchBytes s.sweepCfg s.store b) true)) ∧
  (∀ (cfg : Configuration) (store : CanvasStore) (b : FetchRead) (i n : Nat), i < b.len → n = b.offset + i →
    (fetchBytes cfg store b).length = b.len ∧
    (b.kind = .canvas →
      (coverageIndex (bandOfRow cfg (n / 32)) (16 * b.item + n % 32 / 2) ∈ store.coverage →
        (fetchBytes cfg store b).getD i 0 = memRead store.mem (canvasArea + b.item * (canvasHeight cfg * 32) + n)) ∧
      (coverageIndex (bandOfRow cfg (n / 32)) (16 * b.item + n % 32 / 2) ∉ store.coverage →
        (fetchBytes cfg store b).getD i 0 =
          (if n % 2 = 0 then store.fill.y else if n % 4 = 1 then store.fill.u else store.fill.v))) ∧
    (b.kind = .preview →
      (n / 2 ∈ store.computed →
        (fetchBytes cfg store b).getD i 0 = memRead store.mem (previewArea + b.item * previewWidth cfg * 2 + n)) ∧
      (n / 2 ∉ store.computed →
        (fetchBytes cfg store b).getD i 0 =
          (if n % 2 = 0 then store.fill.y else if n % 4 = 1 then store.fill.u else store.fill.v)))) ∧
  (∀ (s : State) (b : FetchRead) (data : List Byte) (x : Transfer) (move : EngineMove) (e : MemErrors)
      (words : List Nat),
    s.arb.inProgress = some (.fetch b data true) → (sideOf s.fetch b.requester).transfer = some x →
    (sideOf s.fetch b.requester).posted = none → words = touchedWords b.addr b.len →
    ∃ t, exec (.memoryBurstComplete move e) s = .next t ∧
      t.store = (checkWords words e s).store ∧
      t.attn = s.attn ∧ t.sweep = s.sweep ∧ t.ctl = s.ctl ∧ t.comp.strips = s.comp.strips ∧ t.motion = s.motion ∧
      ((∀ w ∈ words, ¬wordFails s.store e w) → burstLength s.sweepCfg x ≤ x.inHand.length + data.length →
        burstOf t.fetch b.requester =
          some ⟨b.requester, dataStatus s.sweepCfg x (x.inHand.length + data.length), x.item, x.inHand ++ data⟩) ∧
      ((∀ w ∈ words, ¬wordFails s.store e w) → x.inHand.length + data.length < burstLength s.sweepCfg x →
        (sideOf t.fetch b.requester).transfer.map Transfer.inHand = some (x.inHand ++ data)) ∧
      ((∃ w ∈ words, wordFails s.store e w) →
        burstOf t.fetch b.requester = some ⟨b.requester, .errorMemory, x.item, []⟩)) ∧
  ∀ (s : State) (b : FetchRead) (data : List Byte) (move : EngineMove) (e : MemErrors),
    s.arb.inProgress = some (.fetch b data false) →
    ∃ t, exec (.memoryBurstComplete move e) s = .next t ∧
      restAs { s with store := (checkWords (touchedWords b.addr b.len) e s).store } t ∧
      sideAs s.fetch.p0 t.fetch.p0 ∧ sideAs s.fetch.p1 t.fetch.p1

/-- The arbiter's choice among the waiting requests: nothing in INIT and self-test alone in TEST; otherwise ingest first,
and of the engine and the fetch port both waiting the fetch port under FIXED and the one not last served under ROTATE;
each grant to one of these two sets the last-served mark to it, and the other grants leave it. When a burst completes, the
burst that is put in progress is that of the client chosen among the requests then waiting, what the completed burst has
withdrawn aside; behind a burst of the ingest unit these are the requests that waited before it. A request that arrives
alone at a free memory is granted at once; of several that arrive together one is, whatever the last-served mark, and no
other of them; while a burst is in progress an arrival changes nothing. Which of several is granted is free (log entry
7); the words that an engine operation has left to read, by which a waiting request of the engine is withdrawn, are the
model's own (log entry 26), and so are the areas that its burst may move (log entry 5). -/
def Obligations.ArbiterChoosesByTheServiceOrder : Prop :=
  (∀ s : State,
    (s.sweep.state = .init → arbiterChoice s = none) ∧
    (s.sweep.state = .test → ∀ c, arbiterChoice s = some c ↔ c = .selfTest ∧ s.arb.selfWait.isSome = true) ∧
    ((s.sweep.state ≠ .init ∧ s.sweep.state ≠ .test) →
      (s.arb.ingestWait.isSome = true → arbiterChoice s = some .ingest) ∧
      (s.arb.ingestWait = none → s.arb.engineWait.isSome = true → s.arb.fetchWait.isSome = true →
        arbiterChoice s = some (
          if s.config.serviceOrder = .fixed ∨ s.arb.lastServed = .engine then .fetch else .engine)) ∧
      (s.arb.ingestWait = none → s.arb.engineWait.isSome = true → s.arb.fetchWait = none →
        arbiterChoice s = some .engine) ∧
      (s.arb.ingestWait = none → s.arb.engineWait = none → s.arb.fetchWait.isSome = true →
        arbiterChoice s = some .fetch)) ∧
    (s.arb.engineWait.isSome = true → (grantClient .engine s).arb.lastServed = .engine) ∧
    (s.arb.fetchWait.isSome = true → (grantClient .fetch s).arb.lastServed = .fetch) ∧
    (grantClient .ingest s).arb.lastServed = s.arb.lastServed ∧
    (grantClient .selfTest s).arb.lastServed = s.arb.lastServed) ∧
  (∀ (s : State) (allowed : Client → Prop),
    (∀ c, allowed c ↔ waits s.arb c = true ∧ s.sweep.state ≠ .init ∧ (c = .selfTest ↔ s.sweep.state = .test)) →
    (s.arb.inProgress.isSome = true → grantArrived s = s) ∧ ((∀ c, ¬allowed c) → grantArrived s = s) ∧
    (s.arb.inProgress = none → ∀ c, allowed c →
      ((∀ d, allowed d → d = c) → grantArrived s = grantClient c s) ∧
      ∃ d n, allowed d ∧ grantArrived s = grantClient d { s with freeIndex := n })) ∧
  (∀ (s u : State) (burst : InFlight) (move : EngineMove) (e : MemErrors), s.arb.inProgress = some burst →
    (∀ unit live late areas, burst = .engine unit live late areas →
      moveInDram move = true ∧ moveWellFormed move = true ∧ moveFits unit live late areas move s = true) →
    u = engineWithdraw (planReads (prepareStrip (completeBurst burst move e s))) →
    ∃ t, exec (.memoryBurstComplete move e) s = .next t ∧
      (∀ b, arbiterChoice u = some .ingest → u.arb.ingestWait = some b →
        t.arb.inProgress = some (.ingest b true) ∧ t.arb.lastServed = s.arb.lastServed) ∧
      (∀ unit, arbiterChoice u = some .engine → u.arb.engineWait = some unit →
        t.arb.inProgress = some (.engine unit true [] (engineAreas u unit)) ∧ t.arb.lastServed = .engine) ∧
      (∀ b, arbiterChoice u = some .fetch → u.arb.fetchWait = some b →
        t.arb.inProgress = some (.fetch b (fetchBytes s.sweepCfg t.store b) true) ∧ t.arb.lastServed = .fetch) ∧
      (∀ b, arbiterChoice u = some .selfTest → u.arb.selfWait = some b →
        t.arb.inProgress = some (.selfTest b true) ∧ t.arb.lastServed = s.arb.lastServed) ∧
      u.arb.ingestWait = s.arb.ingestWait ∧ u.sweep.state = s.sweep.state) ∧
  ∀ (s : State) (b : IngestBurst) (live : Bool) (move : EngineMove) (e : MemErrors),
    s.arb.inProgress = some (.ingest b live) → s.sweep.state ≠ .init → s.sweep.state ≠ .test →
    ∃ t, exec (.memoryBurstComplete move e) s = .next t ∧
      (∀ next, s.arb.ingestWait = some next → t.arb.inProgress = some (.ingest next true)) ∧
      (∀ read, s.arb.ingestWait = none → s.arb.fetchWait = some read →
        (s.arb.engineWait = none ∨ s.config.serviceOrder = .fixed ∨ s.arb.lastServed = .engine) →
        t.arb.inProgress = some (.fetch read (fetchBytes s.sweepCfg t.store read) true) ∧ t.arb.lastServed = .fetch) ∧
      (∀ unit, s.arb.ingestWait = none → s.arb.engineWait = some unit → unitWants s unit = true →
        engineReads s.arb unit ≠ none → operates s unit = true →
        (s.arb.fetchWait = none ∨ (s.config.serviceOrder = .rotate ∧ s.arb.lastServed = .fetch)) →
        t.arb.inProgress = some (.engine unit true [] (engineAreas s unit)) ∧ t.arb.lastServed = .engine)

/-! ## The fetch port -/

/-- The start bit of a message on an idle line: the message will be taken, or ignored if it begins during INIT or
while RESETn is low. A request message ends. One whose shifting began during INIT is ignored. With no transfer and
none of its bursts posted or on the bus the request becomes the transfer: a failed check answers with its ERROR
header and the first item; the guide record is sent whole as one DATA_LAST burst; a strip record that exists is sent whole,
as DATA_LAST if it is the only one asked for, and one that does not exist ends requester 1's transfer with ERROR RANGE
and its index; a canvas or preview item that is ready is prepared; an item of requester 0 that is not stalls with a
WAITING header from this time. With a transfer in progress it is the held request, not stale. Outside the fetch port
and the arbiter nothing changes. The message's five bytes, the first the most significant, carry the active bit, the
kind and the repeat bit in byte 0, the first item in bytes 1 and 2 and the count in bytes 3 and 4; the repeat bit counts
for PREVIEW and GUIDE. A strip record is served as 64 bytes and the guide record as 32, laid out as 10.5 says, field by
field, an absent value as 0; a field is as stated here whenever its value fits it. What a field shows for a value that
does not fit it is free (log entry 8). -/
def Obligations.FetchRequestIsTakenOrHeld : Prop :=
  (∀ (m : BitVec 40) (n : Nat) (q : FetchReq), n = m.toNat → q = parseRequest m →
    (requestActive m = true ↔ n / 2 ^ 38 % 2 = 1) ∧
    q.kind = (match n / 2 ^ 35 % 8 with
      | 0 => .canvas | 1 => .preview | 2 => .strips | 3 => .guide | _ => .invalid) ∧
    (q.again = true ↔ n / 2 ^ 34 % 2 = 1 ∧ (q.kind = .preview ∨ q.kind = .guide)) ∧
    q.first = n / 2 ^ 16 % 2 ^ 16 ∧ q.count = n % 2 ^ 16) ∧
  (∀ (r : StripRecord) (p : List Byte), p = stripBytes r →
    p.length = 64 ∧ (r.index < 256 → bytesNat p 0 1 = r.index) ∧
    (∀ i, i < 8 → (p.getD 1 0).getLsbD i = [r.correction.isSome, r.closure.isSome].getD i false) ∧
    (∀ i, i < 16 → (BitVec.ofNat 16 (bytesNat p 2 2)).getLsbD i =
      [r.flags.motionOnly, r.flags.frame.extrapolated, r.flags.frame.trackShort, r.flags.frame.gap,
        r.flags.frame.rateSat, r.flags.frame.pitchClamp, r.flags.frame.rsClamp, r.flags.detached, r.flags.closing,
        r.flags.closurePoor, r.flags.wrapped].getD i false) ∧
    bytesNat p 4 2 = r.seq.toNat ∧ bytesNat p 6 4 = r.tRef.toNat ∧
    (∀ f ∈ [(10, 4, r.xC), (14, 2, r.yP), (24, 4, r.prevFront), (28, 4, r.newFront),
        (50, 1, (r.correction.map Prod.fst).getD 0), (51, 1, (r.correction.map Prod.snd).getD 0),
        (54, 1, (r.closure.map Prod.fst).getD 0), (55, 1, (r.closure.map Prod.snd).getD 0)],
      fitsSigned f.2.1 f.2.2 → signedAt p f.1 f.2.1 = f.2.2) ∧
    (∀ k, k < 8 →
      (fitsSigned 1 (r.shifts.getD k 0) → signedAt p (16 + k) 1 = r.shifts.getD k 0) ∧
      (p.getD 32 0).getLsbD k = (r.seams.getD k none).isSome ∧
      ∀ v, v = (r.seams.getD k none).getD 0 → 0 ≤ v → v < 65536 → (bytesNat p (34 + 2 * k) 2 : Int) = v) ∧
    p.getD 33 0 = 0 ∧ (r.confident < 256 → bytesNat p 52 1 = r.confident) ∧
    (r.inliers < 256 → bytesNat p 53 1 = r.inliers) ∧ ∀ i, 56 ≤ i → p.getD i 0 = 0) ∧
  (∀ (g : GuideRecord) (p : List Byte) (last : Option (Int × Int)), p = guideBytes g →
    last = (match g.last with
      | some l => l.correction
      | none => none) →
    p.length = 32 ∧ bytesNat p 0 2 = g.count.toNat ∧ bytesNat p 2 2 = g.seq.toNat ∧
    p.getD 4 0 = (match g.direction with | .unknown => 0 | .plus => 1 | .minus => 2) ∧
    p.getD 5 0 = (match g.speed with | .still => 0 | .tooFast => 1 | .fast => 2 | .slow => 3 | .good => 4) ∧
    (∀ i, i < 8 → (p.getD 6 0).getLsbD i = [g.guideMark, g.last.isSome, last.isSome].getD i false) ∧
    p.getD 7 0 = (match g.motion with | .off => 0 | .sampling => 1 | .lost => 2) ∧
    (∀ f ∈ [(8, 4, g.advance), (12, 4, g.overlap), (16, 2, g.yP), (20, 2, g.progress),
        (26, 1, (last.map Prod.fst).getD 0), (27, 1, (last.map Prod.snd).getD 0)],
      fitsSigned f.2.1 f.2.2 → signedAt p f.1 f.2.1 = f.2.2) ∧
    (g.margin < 256 → bytesNat p 18 1 = g.margin) ∧ p.getD 19 0 = 0 ∧
    (0 ≤ g.target → g.target < 65536 → (bytesNat p 22 2 : Int) = g.target) ∧
    (∀ i, i < 16 → (BitVec.ofNat 16 (bytesNat p 24 2)).getLsbD i =
      [false, g.flags.extrapolated, g.flags.trackShort, g.flags.gap, g.flags.rateSat, g.flags.pitchClamp,
        g.flags.rsClamp].getD i false) ∧
    (∀ l, g.last = some l →
      (l.confident < 256 → bytesNat p 28 1 = l.confident) ∧ (l.inliers < 256 → bytesNat p 29 1 = l.inliers)) ∧
    (g.last = none → p.getD 28 0 = 0 ∧ p.getD 29 0 = 0) ∧ ∀ i, 30 ≤ i → p.getD i 0 = 0) ∧
  (∀ (s : State) (r : Requester), (sideOf s.fetch r).line = .idle →
    exec (.requestMessageStart r) s =
      .next (setSide r { sideOf s.fetch r with
        line := if s.inReset ∨ s.sweep.state = .init then .ignored else .shifting } s)) ∧
  ∀ (s : State) (r : Requester) (m : BitVec 40) (q : FetchReq), requestActive m = true → q = parseRequest m →
    s.sweep.state ≠ .init →
    ((sideOf s.fetch r).line = .ignored →
      ∃ t, exec (.fetchRequest r m) s = .next t ∧
        settlesTo (setSide r { sideOf s.fetch r with line := .idle } s) t) ∧
    ((sideOf s.fetch r).line = .shifting →
      ∃ t, exec (.fetchRequest r m) s = .next t ∧ restAs s t ∧ (sideOf t.fetch r).line = .idle ∧
        (∀ x, (sideOf s.fetch r).transfer = some x →
          (sideOf t.fetch r).held = some (q, false) ∧
          (sideOf t.fetch r).transfer.map Transfer.req = some x.req) ∧
        ((sideOf s.fetch r).transfer = none → (sideOf s.fetch r).posted = none → onBus s.fetch r = false →
          (sideOf t.fetch r).transfer.map Transfer.req = some q ∧
          (∀ status, checkRequest s q false = some status →
            burstOf t.fetch r = some ⟨r, status, q.first, []⟩) ∧
          (checkRequest s q false = none →
            (q.kind = .guide → burstOf t.fetch r = some ⟨r, .dataLast, 0, guideBytes s.comp.guide⟩) ∧
            (q.kind = .strips →
              (∀ record, s.comp.strips[q.first]? = some record →
                burstOf t.fetch r =
                  some ⟨r, if q.count = 1 then .dataLast else .data, q.first, stripBytes record⟩) ∧
              (r = .r1 → s.comp.strips.length ≤ q.first →
                burstOf t.fetch r = some ⟨r, .errorRange, q.first, []⟩)) ∧
            (memoryKind q.kind = true → (r = .r1 ∨ itemReady s q.kind q.first = true) →
              (sideOf t.fetch r).phase = .preparing ∧ (sideOf t.fetch r).waitStart = none) ∧
            (q.kind ≠ .guide → r = .r0 → itemReady s q.kind q.first = false →
              ¬(q.kind = .strips ∧ s.sweep.state = .done) →
              burstOf t.fetch r = some ⟨r, .waiting, q.first, []⟩ ∧
              (sideOf t.fetch r).waitStart = some s.timeBase ∧
              (sideOf t.fetch r).stallLimit = s.config.fetchWaitLimit))))

/-- The checks of R151 in their order: a stale held request, then a canvas kind where no canvas exists, then a count
of 0 or an unknown kind, then the item limit; the guide record passes always. The item limit is the number of column groups
for CANVAS, W_c / 16 in LINEAR mode and ceil(W_ring / 16) in RING mode, H_c / 8 for PREVIEW with H_c = H_f − 2m, and for
STRIPS the strip count in DONE and 256 before. The readiness of a canvas group for
requester 0: in DONE always; in OPEN and DRAINING, in LINEAR mode, exactly when 16g + 15 is below S, and in RING
mode exactly when G is present, 16g is at least G and 16g + 15 is below S and W_ring. -/
def Obligations.RequestChecksAndGroupReadiness : Prop :=
  (∀ (s : State) (q : FetchReq),
    checkRequest s q true = some .errorNoSweep ∧
    (q.kind = .guide → checkRequest s q false = none) ∧
    (sweepKind q.kind = true →
      (s.sweep.state ∈ [SweepState.idle, .armed, .test] → checkRequest s q false = some .errorNoSweep) ∧
      (s.sweep.state ∉ [SweepState.idle, .armed, .test] →
        (q.count = 0 → checkRequest s q false = some .errorRange) ∧
        (itemLimit s q.kind < q.first + q.count → checkRequest s q false = some .errorRange) ∧
        (q.count ≠ 0 → q.first + q.count ≤ itemLimit s q.kind → checkRequest s q false = none))) ∧
    (q.kind = .invalid → checkRequest s q false = some .errorRange)) ∧
  (∀ (s : State) (cfg : Configuration), cfg = s.sweepCfg →
    (cfg.mode = .linear → itemLimit s .canvas = cfg.canvasWidth / 16) ∧
    (cfg.mode = .ring →
      itemLimit s .canvas = ((20736000 + cfg.columnAngle - 1) / cfg.columnAngle + 15) / 16) ∧
    itemLimit s .preview = (cfg.frameHeight - 2 * cfg.margin) / 8 ∧
    (s.sweep.state = .done → itemLimit s .strips = s.comp.strips.length) ∧
    (s.sweep.state ≠ .done → itemLimit s .strips = 256)) ∧
  ∀ (s : State) (g : Nat),
    (s.sweep.state = .done → groupReady s g = true) ∧
    ((s.sweep.state = .opened ∨ s.sweep.state = .draining) → s.sweepCfg.mode = .linear →
      (groupReady s g = true ↔ (16 * g + 15 : Int) < s.comp.settled)) ∧
    ((s.sweep.state = .opened ∨ s.sweep.state = .draining) → s.sweepCfg.mode = .ring →
      (groupReady s g = true ↔ ∃ clean, s.comp.clean = some clean ∧ clean ≤ (16 * g : Int) ∧
        (16 * g + 15 : Int) < s.comp.settled ∧ 16 * g + 15 < ringWidth s.sweepCfg))

/-- A message with active 0 ends: with no transfer, or with one that an expiry has ended, it is ignored; with one
whose ending burst is not on the bus, the held request is dropped, any stall ends and an ABANDONED header with the
next item's index is the requester's next burst; with the ending burst on the bus, only the held request goes.
Outside the fetch port and the arbiter nothing changes. That a request following the abandon is taken when the
ABANDONED header completes, the next item after the last of a pass, and that an abandon after an expiry changes
nothing, are the model's readings (log entries 12, 31 and 37). -/
def Obligations.AbandonEndsTheTransfer : Prop :=
  ∀ (s : State) (r : Requester) (m : BitVec 40), requestActive m = false → s.sweep.state ≠ .init →
    (sideOf s.fetch r).line = .shifting →
    (((sideOf s.fetch r).transfer = none ∨
        (∃ b, (sideOf s.fetch r).posted = some b ∧ b.status = .errorNotSettled) ∨
        ∃ b, s.fetch.bus = some b ∧ b.requester = r ∧ b.status = .errorNotSettled) →
      ∃ t, exec (.fetchAbandon r m) s = .next t ∧
        settlesTo (setSide r { sideOf s.fetch r with line := .idle } s) t) ∧
    ∀ x, (sideOf s.fetch r).transfer = some x →
      (∀ b, (sideOf s.fetch r).posted = some b → b.status ≠ .errorNotSettled) →
      (∀ b, s.fetch.bus = some b → b.requester = r → b.status ≠ .errorNotSettled) →
      (endingOnBus s.fetch r x.req.again = true →
        ∃ t, exec (.fetchAbandon r m) s = .next t ∧
          settlesTo (setSide r { sideOf s.fetch r with line := .idle, held := none } s) t) ∧
      (endingOnBus s.fetch r x.req.again = false →
        ∃ t, exec (.fetchAbandon r m) s = .next t ∧ restAs s t ∧ (sideOf t.fetch r).held = none ∧
          (sideOf t.fetch r).waitStart = none ∧ (sideOf t.fetch r).line = .idle ∧
          burstOf t.fetch r = some ⟨r, .abandoned, nextItem x, []⟩)

/-- The burst on the return bus completes. One that ends its transfer leaves its requester without a transfer, or
takes the held request; DATA_LAST of a transfer that goes on takes the held request too, or begins the next pass
at its first item. After DATA, and after the WAITING header of a stall that has ended, the next burst is served:
the first of an item after its test. After the WAITING header of a stall that goes on the requester is stalled; of
one whose item can never be ready, ERROR RANGE follows. With bursts of both requesters posted the bus takes
requester 1's under FIXED and that of the one not served last under ROTATE; with one posted, that one; and the bus
turn mark names it. Outside the fetch port and the arbiter nothing changes. That what the completion itself
prepares counts as posted at its choice of the bus, that the ERROR RANGE of an item which can never be ready
follows its WAITING header, what the next item is after a pass, and that a held request is taken after an
ABANDONED header too, are the model's readings (log entries 36, 23, 31 and 12). With both requesters posting at
once on an idle bus the order is free (log entry 7); this statement leaves that order out. A burst is its header of 8
bytes, the requester, the code of its status, the item index and the length, each in two bytes, and two bytes 0, and
its data behind it; on the pins FVALID and FID stand for a burst on the bus alone, and FD carries its bytes two by two,
the earlier in the high half. An item index that does not fit its field shows a free value (log entry 8). -/
def Obligations.ReturnBurstCompletes : Prop :=
  (∀ (b : ReturnBurst) (p : List Byte), p = burstBytes b →
    p.length = 8 + b.data.length ∧ p.getD 0 0 = (match b.requester with | .r0 => 0 | .r1 => 1) ∧
    p.getD 1 0 = (match b.status with
      | .data => 0 | .dataLast => 1 | .waiting => 2 | .errorRange => 3 | .errorNoSweep => 4 | .errorNotSettled => 5
      | .errorMemory => 6 | .abandoned => 7) ∧
    (b.item < 65536 → bytesNat p 2 2 = b.item) ∧ (b.data.length < 65536 → bytesNat p 4 2 = b.data.length) ∧
    p.getD 6 0 = 0 ∧ p.getD 7 0 = 0 ∧ (∀ i, p.getD (8 + i) 0 = b.data.getD i 0) ∧
    ∀ s : State, s.fetch.bus = some b →
      fvalidPin s = true ∧ fidPin s = some (match b.requester with | .r0 => 0 | .r1 => 1) ∧
      (fdWords s).length = 4 + (b.data.length + 1) / 2 ∧
      ∀ i, 2 * i < p.length →
        ((fdWords s).getD i 0).toNat = (p.getD (2 * i) 0).toNat * 256 + (p.getD (2 * i + 1) 0).toNat) ∧
  (∀ s : State, s.fetch.bus = none → fvalidPin s = false ∧ fidPin s = none ∧ fdWords s = []) ∧
  (∀ (s : State) (b : ReturnBurst) (x : Transfer) (r : Requester) (p : PortSide), s.fetch.bus = some b →
    r = b.requester → p = sideOf s.fetch r → p.transfer = some x → p.posted = none →
    ∃ t, exec .returnBurstComplete s = .next t ∧ restAs s t ∧
      (endsTransfer b.status x.req.again = true → p.held = none →
        (sideOf t.fetch r).transfer = none ∧ (sideOf t.fetch r).waitStart = none ∧
        ∀ next, (sideOf s.fetch (otherRequester r)).posted = some next →
          t.fetch.bus = some next ∧ t.fetch.busTurn = otherRequester r) ∧
      ((endsTransfer b.status x.req.again = true ∨ b.status = .dataLast) → ∀ q stale, p.held = some (q, stale) →
        (sideOf t.fetch r).held = none ∧ (sideOf t.fetch r).transfer.map Transfer.req = some q) ∧
      (b.status = .dataLast → x.req.again = true → p.held = none →
        servesNext s r ⟨x.req, firstItem x.req, 0, [], 0, false, none, x.pass + 1⟩ t) ∧
      (b.status = .data → servesNext s r x t) ∧
      (b.status = .waiting →
        (∀ item, x.rangeAfter = some item → burstOf t.fetch r = some ⟨r, .errorRange, item, []⟩) ∧
        (x.rangeAfter = none → p.waitStart = none → servesNext s r x t) ∧
        (x.rangeAfter = none → p.waitStart ≠ none →
          (sideOf t.fetch r).phase = .stalled ∧ (sideOf t.fetch r).transfer = some x ∧
          (sideOf t.fetch r).waitStart = p.waitStart ∧ (sideOf t.fetch r).posted = none))) ∧
  ∀ (s : State) (b p0 p1 : ReturnBurst), s.fetch.bus = some b →
    (b.status = .data ∨ b.status = .waiting ∨ b.status = .dataLast) →
    s.fetch.p0.posted = some p0 → s.fetch.p1.posted = some p1 →
    ∃ t, exec .returnBurstComplete s = .next t ∧ restAs s t ∧
      ((s.config.serviceOrder = .fixed ∨ s.fetch.busTurn = .r0) → t.fetch.bus = some p1 ∧ t.fetch.busTurn = .r1) ∧
      (s.config.serviceOrder = .rotate → s.fetch.busTurn = .r1 → t.fetch.bus = some p0 ∧ t.fetch.busTurn = .r0)

/-- A stall of requester 0 with a limit reaches it: the time base stands at the limit, the transfer ends with ERROR
NOT_SETTLED and the index of the item waited for, the wait start time goes, FETCH_TIMEOUT (bit 5) is raised. With
a limit of 0, or without a stall, nothing expires. That the event itself moves the time base, and that without a
stall it changes nothing, are the model's choices (log entries 2 and 3). -/
def Obligations.FetchWaitExpires : Prop :=
  (∀ (s : State) (x : Transfer) (start due : Time),
    s.fetch.p0.waitStart = some start → s.fetch.p0.transfer = some x →
    due = start + BitVec.ofNat 32 s.fetch.p0.stallLimit →
    (s.fetch.p0.stallLimit ≠ 0 →
      ∃ t, exec .fetchWaitExpiry s = .next t ∧
        burstOf t.fetch .r0 = some ⟨.r0, .errorNotSettled, x.item, []⟩ ∧ t.fetch.p0.waitStart = none ∧
        restAs { s with
          timeBase := if 0 < (due - s.timeBase).toInt then due else s.timeBase
          attn := { s.attn with pendingSet := s.attn.pendingSet ||| 32 } } t) ∧
    (s.fetch.p0.stallLimit = 0 → ∃ t, exec .fetchWaitExpiry s = .next t ∧ settlesTo s t)) ∧
  ∀ s : State, (s.fetch.p0.waitStart = none ∨ s.fetch.p0.transfer = none) →
    ∃ t, exec .fetchWaitExpiry s = .next t ∧ settlesTo s t

/-! ## Invariants that every step keeps -/

/-- What no command does: it does not touch the queue of waiting commands, whatever else it does, and it never refuses.
The queue is the model's own (log entry 1). -/
def Obligations.CommandsKeepTheQueue : Prop :=
  ∀ (c : Instr) (s : State),
    (∀ t, exec c s = .next t → t.pending = s.pending) ∧ ∀ r, exec c s ≠ .refused r

/-- The accounting law (R21) is kept by every step, as long as received has not reached the end of its range: received is
the sum of the fates and the slots that are not FREE. -/
def Obligations.AccountingLawIsKept : Prop :=
  ∀ s t : State, accounted s → s.sweep.counters.received < 4294967295 → step s = .next t → accounted t

/-- The slot pool is kept sound by every step: six slots, at most one ENGAGED, FILLING the one that the frame on the port
fills and no other, and at most one HELD (R53); with what keeps that so: no opening frame is on its way while one is
HELD, the queue names QUEUED slots, each once, the frame in placement is ENGAGED and the frame handed over to the
compositor is ENGAGED, or HELD for strip 0. -/
def Obligations.SlotPoolIsKept : Prop :=
  ∀ s t : State, poolSound s → step s = .next t →
    poolSound t ∧ slotsIn t.ingest.slots .held ≤ 1 ∧ slotsIn t.ingest.slots .filling ≤ 1

/-- The DRAM's list keeps its canonical form: addresses rise strictly and no listed byte is one that an unlisted address
reads as; no word comes to show a single-bit error and a greater one at once (R144); and the pose ring and the estimator
windows keep their sizes (R31, R38), and until a first sample is integrated angles and residuals are 0 (R33). -/
def Obligations.MemoryFormAndTrackSizesAreKept : Prop :=
  ∀ s t : State, step s = .next t →
    (memorySound s → memorySound t) ∧ (flawsSound s → flawsSound t) ∧ (trackSound s → trackSound t)

/-- Right after reset the state has the values that the spec gives for it, the configuration's defaults field by field
among them, and every invariant above holds. The values that the spec does not give are not stated here (log entry
21). -/
def Obligations.ResetStateIsSound : Prop :=
  accounted State.reset ∧ poolSound State.reset ∧ memorySound State.reset ∧ flawsSound State.reset ∧
  trackSound State.reset ∧
  State.reset.config =
    { frameWidth := 1280, frameHeight := 960, margin := 32, columnAngle := 1800, mode := .linear, canvasWidth := 8192
      fsr := 500, prescale := 16, sampleCount := 1499
      axisMap := { yawAxis := .z, yawNegated := false, pitchAxis := .x, pitchNegated := false }
      biasMode := .auto, biasYaw := 0, biasPitch := 0, blend := 16, serviceOrder := .fixed, motionLatency := 0
      captureLatency := 0, stillThreshold := 64, motionWait := 4, searchRange := 16, minPatches := 3, sadLimit := 3072
      sadMargin := 256, textureThreshold := 2048, seamReach := 128, jumpLimit := 16, minOverlap := 64, minAdvance := 16
      closureTolerance := 8, sweepTimeLimit := 1440000000, fetchWaitLimit := 4800000, fill := ⟨0, 128, 128⟩ } ∧
  State.reset.timeBase = 0 ∧ State.reset.sweep.state = .init ∧ State.reset.sweep.lastReason = .unset ∧
  State.reset.sweep.openPending = false ∧ State.reset.sweep.openTime = none ∧
  State.reset.sweep.counters = Counters.zero ∧ State.reset.place.direction = .unknown ∧
  State.reset.place.originYaw = none ∧ State.reset.place.originPitch = none ∧ State.reset.comp.clean = none ∧
  State.reset.comp.trimYaw = 0 ∧ State.reset.comp.trimPitch = 0 ∧ State.reset.comp.front = 0 ∧
  State.reset.comp.settled = 0 ∧ State.reset.comp.strips = [] ∧ State.reset.comp.closureError = none ∧
  State.reset.motion.biasSource = .pending ∧ State.reset.motion.biasYaw = 0 ∧ State.reset.motion.biasPitch = 0 ∧
  State.reset.motion.clockRunning = false ∧ State.reset.motion.missCount = 0 ∧ State.reset.motion.goodCount = 0 ∧
  State.reset.motion.integ.yaw = ⟨0, 0⟩ ∧ State.reset.motion.integ.pitch = ⟨0, 0⟩ ∧
  State.reset.motion.integ.started = false ∧ State.reset.motion.ring = [] ∧ State.reset.motion.yawWindow = [] ∧
  State.reset.motion.pitchWindow = [] ∧ State.reset.motion.goodSinceArm = 0 ∧ State.reset.motion.tx = .absent ∧
  State.reset.ingest.queue = [] ∧ State.reset.ingest.lines = [] ∧ State.reset.ingest.seqRef = none ∧
  State.reset.ingest.openingAssigned = false ∧ State.reset.ingest.slots.length = 6 ∧
  State.reset.place.state = .ready ∧ State.reset.place.work = none ∧ State.reset.place.saved = none ∧
  State.reset.place.motionLost = false ∧ State.reset.reg.state = .idle ∧ State.reset.reg.lead = [] ∧
  State.reset.reg.opening = [] ∧ State.reset.comp.state = .ready ∧ State.reset.comp.pendingReanchor = none ∧
  State.reset.comp.closurePoor = false ∧ State.reset.comp.job = none ∧
  State.reset.comp.guide = { GuideRecord.initial Configuration.default with
    count := 0, seq := 0, guideMark := false, direction := .unknown, speed := .still, advance := 0, overlap := 0, yP := 0
    margin := 32, progress := 0, target := 8192, motion := .off, flags := FrameFlags.clear, last := none } ∧
  State.reset.store.coverage = [] ∧ State.reset.store.computed = [] ∧
  State.reset.motion.link = .off ∧ State.reset.store.corrected = 0 ∧ State.reset.store.fill = ⟨0, 128, 128⟩ ∧
  State.reset.arb.lastServed = .engine ∧ State.reset.fetch.busTurn = .r0 ∧ State.reset.fetch.memTurn = .r1 ∧
  (∀ r : Requester, (sideOf State.reset.fetch r).transfer = none ∧ (sideOf State.reset.fetch r).posted = none ∧
    (sideOf State.reset.fetch r).held = none ∧ (sideOf State.reset.fetch r).waitStart = none) ∧
  State.reset.arb.inProgress = none ∧ State.reset.arb.ingestWait = none ∧ State.reset.arb.engineWait = none ∧
  State.reset.arb.fetchWait = none ∧ State.reset.arb.selfWait = none ∧ linkStatus State.reset.ctl = .noReply ∧
  State.reset.attn.enableSet = 0b0111111 ∧
  State.reset.fetch.bus = none ∧ State.reset.ctl.command = none ∧ State.reset.ctl.reply = none ∧
  State.reset.attn.pendingSet = 0 ∧ atnPin State.reset = false ∧ slotrdyPin State.reset = false ∧
  mstbPin State.reset = false ∧ State.reset.selfTest.result = .notRun ∧
  (∀ slot ∈ State.reset.ingest.slots, slot.state = .free)

end
end

