-- ==== Sys2Proof/Laws/Frames.lean ====
section
/-! SUPPORT. What each shared operation can change, said once per operation: `OnlyFetch` for the fetch port's,
`OnlyPort` for what settles after a command, `OnlySweep` for the sweep's and the engine's. -/

namespace Sys2Proof.Machine

/-! ## The fetch port and the arbiter -/

/-- At most the fetch port and the arbiter differ. -/
def OnlyFetch (s t : State) : Prop := ∃ f a, t = { s with fetch := f, arb := a }

theorem OnlyFetch.refl (s : State) : OnlyFetch s s := ⟨_, _, rfl⟩

theorem OnlyFetch.trans {s t u : State} : OnlyFetch s t → OnlyFetch t u → OnlyFetch s u := by
  rintro ⟨_, _, rfl⟩ ⟨_, _, rfl⟩; exact ⟨_, _, rfl⟩

theorem setSide_only (r : Requester) (p : PortSide) (s : State) : OnlyFetch s (setSide r p s) := by
  cases r <;> exact ⟨_, _, rfl⟩

theorem dropFetch_only (r : Requester) (s : State) : OnlyFetch s (dropFetch r s) := ⟨_, _, rfl⟩

theorem dropEngine_only (u : EngineUnit) (s : State) : OnlyFetch s (dropEngine u s) := ⟨_, _, rfl⟩

theorem postData_only (r : Requester) (t : Transfer) (bytes : List Byte) (s : State) :
    OnlyFetch s (postData r t bytes s) := setSide_only ..

theorem endWith_only (r : Requester) (st : BurstStatus) (item : Nat) (s : State) : OnlyFetch s (endWith r st item s) :=
  (dropFetch_only r s).trans (setSide_only ..)

theorem prepareBurst_only (r : Requester) (t : Transfer) (s : State) : OnlyFetch s (prepareBurst r t s) := by
  unfold prepareBurst
  split
  · exact postData_only ..
  · exact postData_only ..
  · exact setSide_only ..
  · exact setSide_only ..
  · exact setSide_only ..

theorem serveNext_only (r : Requester) (s : State) : OnlyFetch s (serveNext r s) := by
  unfold serveNext
  split
  · exact .refl s
  · split
    · exact prepareBurst_only ..
    · split
      · exact prepareBurst_only ..
      · exact setSide_only ..
      · exact endWith_only ..

theorem takeRequest_only (r : Requester) (req : FetchReq) (stale : Bool) (s : State) :
    OnlyFetch s (takeRequest r req stale s) := by
  unfold takeRequest
  dsimp only
  split
  · exact (setSide_only ..).trans (endWith_only ..)
  · exact (setSide_only ..).trans (serveNext_only ..)

theorem endTransfer_only (r : Requester) (s : State) : OnlyFetch s (endTransfer r s) := by
  unfold endTransfer
  dsimp only
  split
  · exact (setSide_only ..).trans (takeRequest_only ..)
  · exact setSide_only ..

theorem requestArrives_only (r : Requester) (req : FetchReq) (s : State) : OnlyFetch s (requestArrives r req s) := by
  unfold requestArrives
  dsimp only
  split
  · exact takeRequest_only ..
  · exact setSide_only ..

theorem abandonTransfer_only (r : Requester) (s : State) : OnlyFetch s (abandonTransfer r s) := by
  unfold abandonTransfer
  dsimp only
  split
  · exact .refl s
  · split
    · exact .refl s
    · split
      · exact setSide_only ..
      · exact (setSide_only ..).trans (endWith_only ..)

theorem messageArrives_only (r : Requester) (message : BitVec 40) (s : State) :
    OnlyFetch s (messageArrives r message s) := by
  unfold messageArrives
  dsimp only
  split
  · exact .refl s
  · exact setSide_only ..
  · split
    · exact setSide_only ..
    · split
      · exact (setSide_only ..).trans (requestArrives_only ..)
      · exact (setSide_only ..).trans (abandonTransfer_only ..)

theorem discardSide_only (r : Requester) (s : State) : OnlyFetch s (discardSide r s) := by
  unfold discardSide
  dsimp only
  split
  · exact setSide_only ..
  · split
    · split
      · exact setSide_only ..
      · exact (setSide_only ..).trans (endWith_only ..)
    · exact setSide_only ..

theorem discardFetch_only (s : State) : OnlyFetch s (discardFetch s) :=
  (discardSide_only .r0 s).trans (discardSide_only ..)

theorem retestStall_only (s : State) : OnlyFetch s (retestStall s) := by
  unfold retestStall
  dsimp only
  split
  · split
    · exact .refl s
    · split
      · exact setSide_only ..
      · split
        · exact setSide_only ..
        · exact (setSide_only ..).trans (prepareBurst_only ..)
    · split
      · exact setSide_only ..
      · exact endWith_only ..
  · exact .refl s

theorem fetchData_only (r : Requester) (bytes : List Byte) (s : State) : OnlyFetch s (fetchData r bytes s) := by
  unfold fetchData
  dsimp only
  split
  · exact .refl s
  · split
    · exact postData_only ..
    · exact setSide_only ..

theorem fetchError_only (r : Requester) (s : State) : OnlyFetch s (fetchError r s) := by
  unfold fetchError
  split
  · exact .refl s
  · exact endWith_only ..

theorem fetchAsk_only (b : FetchRead) (s : State) : OnlyFetch s (fetchAsk b s) := by
  unfold fetchAsk
  dsimp only
  obtain ⟨f, a, h⟩ := setSide_only b.requester
    { sideOf s.fetch b.requester with
      transfer := (sideOf s.fetch b.requester).transfer.map fun t => { t with asked := t.asked + b.len } } s
  rw [h]
  exact ⟨_, _, rfl⟩

theorem fetchAskNext_only (s : State) : OnlyFetch s (fetchAskNext s) := by
  unfold fetchAskNext
  split
  · exact .refl s
  · split
    · exact fetchAsk_only ..
    · split
      · exact fetchAsk_only ..
      · exact .refl s

theorem takeBus_only (r : Requester) (s : State) : OnlyFetch s (takeBus r s) := by
  unfold takeBus
  dsimp only
  split
  · exact .refl s
  · exact (setSide_only ..).trans ⟨_, _, rfl⟩

theorem afterBurst_only (b : ReturnBurst) (s : State) : OnlyFetch s (afterBurst b s) := by
  unfold afterBurst
  dsimp only
  split
  · exact .refl s
  · split
    · split
      · exact setSide_only ..
      · exact serveNext_only ..
    · split
      · exact setSide_only ..
      · split
        · exact endWith_only ..
        · split
          · exact setSide_only ..
          · exact serveNext_only ..
    · split
      · exact setSide_only ..
      · split
        · exact (setSide_only ..).trans (serveNext_only ..)
        · exact endTransfer_only ..
    all_goals exact endTransfer_only ..

theorem completeBus_only (s : State) : OnlyFetch s (completeBus s) := by
  unfold completeBus
  split
  · exact .refl s
  · exact OnlyFetch.trans ⟨_, _, rfl⟩ (afterBurst_only ..)

/-! ## What settles -/

/-- At most the fetch port, the arbiter, the line buffer's asked counts, the job and the work of the compositor, the
test run's cursor and the free value counter differ. -/
def OnlyPort (s t : State) : Prop :=
  ∃ f a l j d r n, t = { s with
    fetch := f, arb := a, freeIndex := n
    ingest := { s.ingest with lines := l }
    comp := { s.comp with job := j, todo := d }
    selfTest := { s.selfTest with run := r } }

theorem OnlyPort.refl (s : State) : OnlyPort s s := ⟨_, _, _, _, _, _, _, rfl⟩

theorem OnlyPort.trans {s t u : State} : OnlyPort s t → OnlyPort t u → OnlyPort s u := by
  rintro ⟨_, _, _, _, _, _, _, rfl⟩ ⟨_, _, _, _, _, _, _, rfl⟩
  exact ⟨_, _, _, _, _, _, _, rfl⟩

theorem OnlyFetch.port {s t : State} : OnlyFetch s t → OnlyPort s t := by
  rintro ⟨_, _, rfl⟩; exact ⟨_, _, _, _, _, _, _, rfl⟩

theorem settleBus_only (b : Bool) (s : State) : OnlyPort s (settleBus b s) := by
  unfold settleBus
  split
  · exact .refl s
  · split
    · exact .refl s
    · exact (takeBus_only ..).port
    · exact (takeBus_only ..).port
    · split
      · exact (takeBus_only ..).port
      · refine OnlyPort.trans ?_ (takeBus_only ..).port
        exact ⟨_, _, _, _, _, _, _, rfl⟩

theorem ingestAsk_only (s : State) : OnlyPort s (ingestAsk s) := by
  unfold ingestAsk
  split
  · exact .refl s
  · split
    · exact .refl s
    · split
      · exact .refl s
      · exact ⟨_, _, _, _, _, _, _, rfl⟩

theorem engineAsk_only (s : State) : OnlyPort s (engineAsk s) := by
  unfold engineAsk
  split
  · exact .refl s
  · split
    · exact ⟨_, _, _, _, _, _, _, rfl⟩
    · exact .refl s

theorem selfAsk_only (s : State) : OnlyPort s (selfAsk s) := by
  unfold selfAsk
  split
  · exact .refl s
  · split
    · exact .refl s
    · split
      · exact .refl s
      · exact ⟨_, _, _, _, _, _, _, rfl⟩

theorem askAll_only (s : State) : OnlyPort s (askAll s) :=
  (((ingestAsk_only s).trans (engineAsk_only _)).trans (fetchAskNext_only _).port).trans (selfAsk_only _)

theorem engineWithdraw_only (s : State) : OnlyPort s (engineWithdraw s) := by
  unfold engineWithdraw
  split
  · split
    · exact .refl s
    · exact ⟨_, _, _, _, _, _, _, rfl⟩
  · exact .refl s

theorem grantClient_only (c : Client) (s : State) : OnlyPort s (grantClient c s) := by
  unfold grantClient
  split <;> split <;> exact ⟨_, _, _, _, _, _, _, rfl⟩

theorem grantWaiting_only (s : State) : OnlyPort s (grantWaiting s) := by
  unfold grantWaiting
  split
  · exact .refl s
  · split
    · exact grantClient_only ..
    · exact .refl s

theorem grantArrived_only (s : State) : OnlyPort s (grantArrived s) := by
  unfold grantArrived
  split
  · exact .refl s
  · split
    · exact .refl s
    · exact grantClient_only ..
    · split
      · refine OnlyPort.trans ?_ (grantClient_only ..)
        exact ⟨_, _, _, _, _, _, _, rfl⟩
      · exact .refl s

theorem prepareStrip_only (s : State) : OnlyPort s (prepareStrip s) := by
  unfold prepareStrip
  split
  · split
    · exact .refl s
    · exact ⟨_, _, _, _, _, _, _, rfl⟩
  · exact .refl s

theorem planReads_only (s : State) : OnlyPort s (planReads s) := ⟨_, _, _, _, _, _, _, rfl⟩

/-- What settles after a command touches only the ports' and the arbiter's own affairs. -/
theorem settle_only (b m : Bool) (s : State) : OnlyPort s (settle b m s) := by
  unfold settle
  dsimp only
  have h1 : OnlyPort s (engineWithdraw (planReads (prepareStrip s))) :=
    ((prepareStrip_only s).trans (planReads_only _)).trans (engineWithdraw_only _)
  have tail : ∀ x, OnlyPort x (askAll (grantArrived (askAll (settleBus b x)))) := fun x =>
    (((settleBus_only b x).trans (askAll_only _)).trans (grantArrived_only _)).trans (askAll_only _)
  cases m
  · exact h1.trans (tail _)
  · exact (h1.trans (grantWaiting_only _)).trans (tail _)

section SettleFields

variable (b m : Bool) (s : State)

@[simp] theorem settle_timeBase : (settle b m s).timeBase = s.timeBase := by
  obtain ⟨_, _, _, _, _, _, _, h⟩ := settle_only b m s; rw [h]
@[simp] theorem settle_inReset : (settle b m s).inReset = s.inReset := by
  obtain ⟨_, _, _, _, _, _, _, h⟩ := settle_only b m s; rw [h]
@[simp] theorem settle_config : (settle b m s).config = s.config := by
  obtain ⟨_, _, _, _, _, _, _, h⟩ := settle_only b m s; rw [h]
@[simp] theorem settle_sweepCfg : (settle b m s).sweepCfg = s.sweepCfg := by
  obtain ⟨_, _, _, _, _, _, _, h⟩ := settle_only b m s; rw [h]
@[simp] theorem settle_sweep : (settle b m s).sweep = s.sweep := by
  obtain ⟨_, _, _, _, _, _, _, h⟩ := settle_only b m s; rw [h]
@[simp] theorem settle_motion : (settle b m s).motion = s.motion := by
  obtain ⟨_, _, _, _, _, _, _, h⟩ := settle_only b m s; rw [h]
@[simp] theorem settle_place : (settle b m s).place = s.place := by
  obtain ⟨_, _, _, _, _, _, _, h⟩ := settle_only b m s; rw [h]
@[simp] theorem settle_reg : (settle b m s).reg = s.reg := by
  obtain ⟨_, _, _, _, _, _, _, h⟩ := settle_only b m s; rw [h]
@[simp] theorem settle_store : (settle b m s).store = s.store := by
  obtain ⟨_, _, _, _, _, _, _, h⟩ := settle_only b m s; rw [h]
@[simp] theorem settle_ctl : (settle b m s).ctl = s.ctl := by
  obtain ⟨_, _, _, _, _, _, _, h⟩ := settle_only b m s; rw [h]
@[simp] theorem settle_attn : (settle b m s).attn = s.attn := by
  obtain ⟨_, _, _, _, _, _, _, h⟩ := settle_only b m s; rw [h]
@[simp] theorem settle_pending : (settle b m s).pending = s.pending := by
  obtain ⟨_, _, _, _, _, _, _, h⟩ := settle_only b m s; rw [h]
@[simp] theorem settle_slots : (settle b m s).ingest.slots = s.ingest.slots := by
  obtain ⟨_, _, _, _, _, _, _, h⟩ := settle_only b m s; rw [h]
@[simp] theorem settle_queue : (settle b m s).ingest.queue = s.ingest.queue := by
  obtain ⟨_, _, _, _, _, _, _, h⟩ := settle_only b m s; rw [h]
@[simp] theorem settle_port : (settle b m s).ingest.port = s.ingest.port := by
  obtain ⟨_, _, _, _, _, _, _, h⟩ := settle_only b m s; rw [h]
@[simp] theorem settle_seqRef : (settle b m s).ingest.seqRef = s.ingest.seqRef := by
  obtain ⟨_, _, _, _, _, _, _, h⟩ := settle_only b m s; rw [h]
@[simp] theorem settle_openingAssigned : (settle b m s).ingest.openingAssigned = s.ingest.openingAssigned := by
  obtain ⟨_, _, _, _, _, _, _, h⟩ := settle_only b m s; rw [h]
@[simp] theorem settle_compState : (settle b m s).comp.state = s.comp.state := by
  obtain ⟨_, _, _, _, _, _, _, h⟩ := settle_only b m s; rw [h]
@[simp] theorem settle_front : (settle b m s).comp.front = s.comp.front := by
  obtain ⟨_, _, _, _, _, _, _, h⟩ := settle_only b m s; rw [h]
@[simp] theorem settle_settled : (settle b m s).comp.settled = s.comp.settled := by
  obtain ⟨_, _, _, _, _, _, _, h⟩ := settle_only b m s; rw [h]
@[simp] theorem settle_clean : (settle b m s).comp.clean = s.comp.clean := by
  obtain ⟨_, _, _, _, _, _, _, h⟩ := settle_only b m s; rw [h]
@[simp] theorem settle_strips : (settle b m s).comp.strips = s.comp.strips := by
  obtain ⟨_, _, _, _, _, _, _, h⟩ := settle_only b m s; rw [h]
@[simp] theorem settle_trimYaw : (settle b m s).comp.trimYaw = s.comp.trimYaw := by
  obtain ⟨_, _, _, _, _, _, _, h⟩ := settle_only b m s; rw [h]
@[simp] theorem settle_trimPitch : (settle b m s).comp.trimPitch = s.comp.trimPitch := by
  obtain ⟨_, _, _, _, _, _, _, h⟩ := settle_only b m s; rw [h]
@[simp] theorem settle_guide : (settle b m s).comp.guide = s.comp.guide := by
  obtain ⟨_, _, _, _, _, _, _, h⟩ := settle_only b m s; rw [h]
@[simp] theorem settle_closureError : (settle b m s).comp.closureError = s.comp.closureError := by
  obtain ⟨_, _, _, _, _, _, _, h⟩ := settle_only b m s; rw [h]
@[simp] theorem settle_closurePoor : (settle b m s).comp.closurePoor = s.comp.closurePoor := by
  obtain ⟨_, _, _, _, _, _, _, h⟩ := settle_only b m s; rw [h]
@[simp] theorem settle_pendingReanchor : (settle b m s).comp.pendingReanchor = s.comp.pendingReanchor := by
  obtain ⟨_, _, _, _, _, _, _, h⟩ := settle_only b m s; rw [h]
@[simp] theorem settle_waiting : (settle b m s).comp.waiting = s.comp.waiting := by
  obtain ⟨_, _, _, _, _, _, _, h⟩ := settle_only b m s; rw [h]
@[simp] theorem settle_halted : (settle b m s).comp.halted = s.comp.halted := by
  obtain ⟨_, _, _, _, _, _, _, h⟩ := settle_only b m s; rw [h]
@[simp] theorem settle_selfResult : (settle b m s).selfTest.result = s.selfTest.result := by
  obtain ⟨_, _, _, _, _, _, _, h⟩ := settle_only b m s; rw [h]

end SettleFields

/-! ## The sweep's and the engine's operations -/

/-- At most the blocks of the sweep and the attention unit differ: not the time base, the configuration, the canvas
store, the control link, self-test or the queue. -/
def OnlySweep (s t : State) : Prop :=
  ∃ sw mo ig pl rg cp ar fe at', t = { s with
    sweep := sw, motion := mo, ingest := ig, place := pl, reg := rg, comp := cp, arb := ar, fetch := fe, attn := at' }

theorem OnlySweep.refl (s : State) : OnlySweep s s := ⟨_, _, _, _, _, _, _, _, _, rfl⟩

theorem OnlySweep.trans {s t u : State} : OnlySweep s t → OnlySweep t u → OnlySweep s u := by
  rintro ⟨_, _, _, _, _, _, _, _, _, rfl⟩ ⟨_, _, _, _, _, _, _, _, _, rfl⟩
  exact ⟨_, _, _, _, _, _, _, _, _, rfl⟩

theorem OnlyFetch.sweep {s t : State} : OnlyFetch s t → OnlySweep s t := by
  rintro ⟨_, _, rfl⟩; exact ⟨_, _, _, _, _, _, _, _, _, rfl⟩

theorem raiseCause_only (c : Cause) (s : State) : OnlySweep s (raiseCause c s) := ⟨_, _, _, _, _, _, _, _, _, rfl⟩

theorem freeSlot_only (i : Nat) (fate : Fate) (s : State) : OnlySweep s (freeSlot i fate s) := by
  unfold freeSlot; split <;> exact ⟨_, _, _, _, _, _, _, _, _, rfl⟩

theorem discardSlots_only (s : State) : OnlySweep s (discardSlots s) := ⟨_, _, _, _, _, _, _, _, _, rfl⟩

theorem dropLines_only (i : Nat) (s : State) : OnlySweep s (dropLines i s) := ⟨_, _, _, _, _, _, _, _, _, rfl⟩

theorem engineHalt_only (s : State) : OnlySweep s (engineHalt s) := by
  unfold engineHalt; dsimp only; split <;> exact ⟨_, _, _, _, _, _, _, _, _, rfl⟩

theorem compositorStop_only (s : State) : OnlySweep s (compositorStop s) := ⟨_, _, _, _, _, _, _, _, _, rfl⟩

/-- The closing work takes over a preview update with its burst in progress and its reads alone. -/
theorem absorbUpdate_only (todo : List WriteUnit) (s : State) :
    ∃ burst left, absorbUpdate todo s = { s.arb with inProgress := burst, compReads := left } := by
  unfold absorbUpdate
  split <;> exact ⟨_, _, rfl⟩

theorem enterDone_only (s : State) : OnlySweep s (enterDone s) := by
  refine (engineHalt_only s).trans (OnlySweep.trans ?_ (retestStall_only _).sweep)
  exact ⟨_, _, _, _, _, _, _, _, _, rfl⟩

theorem beginStrip_only (job : StripJob) (s : State) : OnlySweep s (beginStrip job s) :=
  ⟨_, _, _, _, _, _, _, _, _, rfl⟩

theorem handStrip0_only (s : State) : OnlySweep s (handStrip0 s) := by
  unfold handStrip0
  split
  · split <;> exact ⟨_, _, _, _, _, _, _, _, _, rfl⟩
  · exact .refl s

theorem drainHandOver_only (i : Nat) (s : State) : OnlySweep s (drainHandOver i s) := by
  unfold drainHandOver
  dsimp only
  refine OnlySweep.trans ?_ (OnlySweep.trans (handStrip0_only _) ⟨_, _, _, _, _, _, _, _, _, rfl⟩)
  exact ⟨_, _, _, _, _, _, _, _, _, rfl⟩

theorem drainTest_only (s : State) : OnlySweep s (drainTest s) := by
  unfold drainTest
  split
  · split
    · exact enterDone_only s
    · exact drainHandOver_only ..
  · exact .refl s

theorem placementOffer_only (w : Working) (a o : Int) (s : State) : OnlySweep s (placementOffer w a o s) := by
  unfold placementOffer; split <;> exact ⟨_, _, _, _, _, _, _, _, _, rfl⟩

theorem recordResult_only (r : RegResult) (s : State) : OnlySweep s (recordResult r s) := by
  unfold recordResult; split <;> exact ⟨_, _, _, _, _, _, _, _, _, rfl⟩

theorem applyReanchor_only (r : Reanchor) (s : State) : OnlySweep s (applyReanchor r s) :=
  ⟨_, _, _, _, _, _, _, _, _, rfl⟩

theorem applyPending_only (s : State) : OnlySweep s (applyPending s) := by
  unfold applyPending; split <;> exact ⟨_, _, _, _, _, _, _, _, _, rfl⟩

theorem sendReanchor_only (r : Reanchor) (s : State) : OnlySweep s (sendReanchor r s) := by
  unfold sendReanchor; split <;> exact ⟨_, _, _, _, _, _, _, _, _, rfl⟩

theorem releaseFrame_only (i : Nat) (fate : Fate) (s : State) : OnlySweep s (releaseFrame i fate s) := by
  unfold releaseFrame
  dsimp only
  refine (freeSlot_only i fate s).trans (OnlySweep.trans ?_ (drainTest_only _))
  exact ⟨_, _, _, _, _, _, _, _, _, rfl⟩

theorem advanceTest_only (job : StripJob) (s : State) : OnlySweep s (advanceTest job s) := by
  unfold advanceTest
  dsimp only
  split
  · exact beginStrip_only ..
  · refine OnlySweep.trans ?_ ((applyPending_only _).trans (releaseFrame_only ..))
    exact ⟨_, _, _, _, _, _, _, _, _, rfl⟩

theorem handOver_only (job : StripJob) (s : State) : OnlySweep s (handOver job s) := by
  unfold handOver
  split
  · exact ⟨_, _, _, _, _, _, _, _, _, rfl⟩
  · exact advanceTest_only ..

theorem finishRegistration_only (r : RegResult) (w : Working) (s : State) :
    OnlySweep s (finishRegistration r w s) := by
  unfold finishRegistration
  dsimp only
  have h : OnlySweep s (recordResult r { s with
      place := { s.place with state := .passed, work := some (edgeStep s.sweepCfg r w) }
      reg := { s.reg with state := .idle } }) :=
    OnlySweep.trans ⟨_, _, _, _, _, _, _, _, _, rfl⟩ (recordResult_only ..)
  split
  · exact h.trans (releaseFrame_only ..)
  · exact h.trans (handOver_only ..)

theorem registerFrame_only (w : Working) (s : State) : OnlySweep s (registerFrame w s) := by
  unfold registerFrame
  split
  · exact finishRegistration_only ..
  · exact ⟨_, _, _, _, _, _, _, _, _, rfl⟩

theorem offerAndRegister_only (w : Working) (s : State) : OnlySweep s (offerAndRegister w s) :=
  (placementOffer_only ..).trans (registerFrame_only ..)

theorem columnStep_only (w : Working) (s : State) : OnlySweep s (columnStep w s) := offerAndRegister_only ..

theorem historyPlace_only (w : Working) (s : State) : OnlySweep s (historyPlace w s) := offerAndRegister_only ..

theorem holdOpening_only (w : Working) (s : State) : OnlySweep s (holdOpening w s) := by
  unfold holdOpening
  dsimp only
  refine (placementOffer_only w 0 0 s).trans (OnlySweep.trans ?_ (drainTest_only _))
  exact ⟨_, _, _, _, _, _, _, _, _, rfl⟩

theorem decideDirection_only (d : Int) (w : Working) (s : State) : OnlySweep s (decideDirection d w s) :=
  OnlySweep.trans ⟨_, _, _, _, _, _, _, _, _, rfl⟩ (handStrip0_only _)

theorem directionStep_only (w : Working) (s : State) : OnlySweep s (directionStep w s) := by
  unfold directionStep
  dsimp only
  split
  · exact (placementOffer_only ..).trans (releaseFrame_only ..)
  · split
    · exact (placementOffer_only ..).trans (releaseFrame_only ..)
    · exact decideDirection_only ..

/-- The state a step of placement leaves. -/
def Course.state : Course → State
  | .goOn _ s => s
  | .rest s => s

theorem afterReference_only (pose : PoseFound) (w : Working) (s : State) :
    OnlySweep s (afterReference pose w s).state := by
  unfold afterReference
  dsimp only
  split
  · exact ⟨_, _, _, _, _, _, _, _, _, rfl⟩
  · split
    · exact directionStep_only ..
    · exact .refl s

theorem afterBand_only (k : Nat) (pose : PoseFound) (w : Working) (s : State) :
    OnlySweep s (afterBand k pose w s).state := by
  unfold afterBand
  dsimp only
  split
  · exact .refl s
  · split
    · exact holdOpening_only ..
    · exact columnStep_only ..

theorem takeAnswer_only (answer : LookupAnswer) (w : Working) (s : State) :
    OnlySweep s (takeAnswer answer w s).state := by
  unfold takeAnswer
  split
  · exact ⟨_, _, _, _, _, _, _, _, _, rfl⟩
  · exact historyPlace_only ..
  · split
    · exact afterReference_only ..
    · exact afterBand_only ..
    · exact .refl s
    · exact .refl s

theorem placeStep_only (w : Working) (s : State) : OnlySweep s (placeStep w s).state := by
  unfold placeStep
  split
  · exact .refl s
  · exact .refl s
  · exact takeAnswer_only ..
  · exact takeAnswer_only ..

theorem placeRun_only : ∀ (n : Nat) (w : Working) (s : State), OnlySweep s (placeRun n w s)
  | 0, _, _ => ⟨_, _, _, _, _, _, _, _, _, rfl⟩
  | n + 1, w, s => by
    unfold placeRun
    have h := placeStep_only w { s with place := { s.place with state := .placing, work := some w } }
    have h0 : OnlySweep s { s with place := { s.place with state := .placing, work := some w } } :=
      ⟨_, _, _, _, _, _, _, _, _, rfl⟩
    split
    · rename_i heq; rw [heq] at h; exact (h0.trans h).trans (placeRun_only n _ _)
    · rename_i heq; rw [heq] at h; exact h0.trans h

theorem takeFrame_only (i : Nat) (s : State) : OnlySweep s (takeFrame i s) := by
  unfold takeFrame
  dsimp only
  split
  · exact OnlySweep.trans ⟨_, _, _, _, _, _, _, _, _, rfl⟩ (releaseFrame_only ..)
  · exact OnlySweep.trans ⟨_, _, _, _, _, _, _, _, _, rfl⟩ (placeRun_only ..)

theorem engineGo_only : ∀ (n : Nat) (s : State), OnlySweep s (engineGo n s)
  | 0, s => .refl s
  | n + 1, s => by
    unfold engineGo
    split
    · split
      · exact .refl s
      · exact (takeFrame_only _ s).trans (engineGo_only n _)
    · exact .refl s

theorem endSweep_only (reason : LastReason) (s : State) : OnlySweep s (endSweep reason s) :=
  OnlySweep.trans (OnlySweep.trans ⟨_, _, _, _, _, _, _, _, _, rfl⟩ (discardSlots_only _)) (enterDone_only _)

theorem takeEndRequest_only (reason : EndReason) (s : State) : OnlySweep s (takeEndRequest reason s) := by
  unfold takeEndRequest
  split
  · dsimp only
    split
    · exact OnlySweep.trans ⟨_, _, _, _, _, _, _, _, _, rfl⟩ (endSweep_only ..)
    · exact OnlySweep.trans ⟨_, _, _, _, _, _, _, _, _, rfl⟩ (endSweep_only ..)
    all_goals exact ⟨_, _, _, _, _, _, _, _, _, rfl⟩
  · exact .refl s

theorem resumePlacement_only (s : State) : OnlySweep s (resumePlacement s) := by
  unfold resumePlacement
  split
  · exact placeRun_only ..
  · exact .refl s

theorem entryAnnounced_only (s : State) : OnlySweep s (entryAnnounced s) := by
  unfold entryAnnounced
  split
  · split
    · exact placeRun_only ..
    · exact .refl s
  · exact .refl s

theorem lossReported_only (s : State) : OnlySweep s (lossReported s) :=
  OnlySweep.trans ⟨_, _, _, _, _, _, _, _, _, rfl⟩ (resumePlacement_only _)

theorem completeSearch_only (s : State) : OnlySweep s (completeSearch s) := by
  unfold completeSearch
  split
  · split
    · exact ((dropEngine_only ..).sweep.trans (finishRegistration_only ..)).trans (engineGo_only ..)
    · exact .refl s
  · exact .refl s

theorem commitEnd_only (job : StripJob) (s : State) : OnlySweep s (commitEnd job s) := by
  unfold commitEnd; split <;> exact ⟨_, _, _, _, _, _, _, _, _, rfl⟩

theorem commitCauses_only (job : StripJob) (s : State) : OnlySweep s (commitCauses job s) := by
  unfold commitCauses; dsimp only; split <;> exact ⟨_, _, _, _, _, _, _, _, _, rfl⟩

theorem commitDrain_only (job : StripJob) (h : Bool) (s : State) : OnlySweep s (commitDrain job h s) := by
  unfold commitDrain
  split
  · exact .refl s
  · exact drainTest_only s

theorem resumeDeciding_only (s : State) : OnlySweep s (resumeDeciding s) := by
  unfold resumeDeciding
  split
  · split
    · exact placeRun_only ..
    · exact .refl s
  · exact .refl s

theorem commitStrip_only (job : StripJob) (s : State) : OnlySweep s (commitStrip job s) := by
  unfold commitStrip
  dsimp only
  refine OnlySweep.trans ?_ (engineGo_only ..)
  refine OnlySweep.trans ?_ (resumeDeciding_only _)
  refine OnlySweep.trans ?_ (commitDrain_only ..)
  refine OnlySweep.trans ?_ (retestStall_only _).sweep
  refine OnlySweep.trans ?_ (commitEnd_only ..)
  refine OnlySweep.trans ?_ (commitCauses_only ..)
  refine OnlySweep.trans ?_ (OnlySweep.trans (freeSlot_only ..) ⟨_, _, _, _, _, _, _, _, _, rfl⟩)
  exact OnlySweep.trans ⟨_, _, _, _, _, _, _, _, _, rfl⟩ (applyPending_only _)

theorem completeHarvest_only (s : State) : OnlySweep s (completeHarvest s) := by
  unfold completeHarvest
  split
  · split
    · exact OnlySweep.trans ⟨_, _, _, _, _, _, _, _, _, rfl⟩ (commitStrip_only ..)
    · exact .refl s
  · exact .refl s

theorem completeWrites_only (s : State) : OnlySweep s (completeWrites s) := by
  unfold completeWrites
  split
  · split
    · exact ⟨_, _, _, _, _, _, _, _, _, rfl⟩
    · exact .refl s
  · exact .refl s

theorem completeUpdate_only (s : State) : OnlySweep s (completeUpdate s) := by
  unfold completeUpdate
  split
  · dsimp only
    split
    · exact OnlySweep.trans (OnlySweep.trans ⟨_, _, _, _, _, _, _, _, _, rfl⟩ (advanceTest_only ..)) (engineGo_only ..)
    · exact ⟨_, _, _, _, _, _, _, _, _, rfl⟩
  · exact .refl s

theorem completeClosing_only (s : State) : OnlySweep s (completeClosing s) := by
  unfold completeClosing
  split
  · exact OnlySweep.trans ⟨_, _, _, _, _, _, _, _, _, rfl⟩ (retestStall_only _).sweep
  · exact .refl s

end Sys2Proof.Machine
end

