-- ==== Sys2Proof/Laws/Settle.lean ====
section
/-! SUPPORT. What settles after a command, said once: `settlesTo` holds of `settle` and of each operation it is made
of. -/

namespace Sys2Proof.Machine

theorem onlyPort_iff (u t : State) :
    OnlyPort u t ↔ t = { u with
      fetch := t.fetch
      arb := t.arb
      freeIndex := t.freeIndex
      ingest := { u.ingest with lines := t.ingest.lines }
      comp := { u.comp with job := t.comp.job, todo := t.comp.todo }
      selfTest := { u.selfTest with run := t.selfTest.run } } :=
  ⟨by rintro ⟨_, _, _, _, _, _, _, rfl⟩; rfl, fun h => ⟨_, _, _, _, _, _, _, h⟩⟩

theorem restAs.refl (u : State) : restAs u u := ⟨rfl, rfl, rfl, .inl rfl⟩

theorem restAs.trans {u m t : State} : restAs u m → restAs m t → restAs u t := by
  rintro ⟨h1, h2, h3, h4⟩ ⟨k1, k2, k3, k4⟩
  have e : m.comp.state = u.comp.state := by rw [h1]
  refine ⟨(onlyPort_iff u t).mp (((onlyPort_iff u m).mpr h1).trans ((onlyPort_iff m t).mpr k1)), k2.trans h2,
    k3.trans h3, ?_⟩
  rw [e] at k4
  rcases k4 with k4 | k4
  · rw [k4]; exact h4
  · exact .inr k4

theorem sideAs.refl (p : PortSide) : sideAs p p := ⟨rfl, rfl, rfl, rfl, rfl⟩

theorem sideAs.trans {p q r : PortSide} : sideAs p q → sideAs q r → sideAs p r := by
  rintro ⟨a, b, c, d, e⟩ ⟨a', b', c', d', e'⟩
  exact ⟨a'.trans a, b'.trans b, c'.trans c, d'.trans d, e'.trans e⟩

theorem settlesTo.refl (u : State) : settlesTo u u := ⟨.refl u, .refl _, .refl _, fun _ => rfl, fun _ => rfl⟩

theorem settlesTo.trans {u m t : State} : settlesTo u m → settlesTo m t → settlesTo u t := by
  rintro ⟨h1, h2, h3, h4, h5⟩ ⟨k1, k2, k3, k4, k5⟩
  refine ⟨h1.trans k1, h2.trans k2, h3.trans k3, fun h => ?_, fun h => ?_⟩
  · exact (k4 (by rw [h4 h]; exact h)).trans (h4 h)
  · exact (k5 (by rw [h5 h]; exact h)).trans (h5 h)

theorem advanceTransfer_req (cfg : Configuration) (n : Nat) (t : Transfer) : (advanceTransfer cfg t n).req = t.req := by
  unfold advanceTransfer; split <;> rfl

/-- The progress a burst brings when the bus takes it keeps the request. -/
theorem takenProgress_req (cfg : Configuration) (b : ReturnBurst) (o : Option Transfer) :
    (match b.status with
      | .data | .dataLast => o.map fun t => advanceTransfer cfg t b.data.length
      | _ => o).map Transfer.req = o.map Transfer.req := by
  split
  · rw [Option.map_map]; congr 1; funext t; exact advanceTransfer_req ..
  · rw [Option.map_map]; congr 1; funext t; exact advanceTransfer_req ..
  · rfl

theorem takeBus_settles (r : Requester) (s : State) (h : s.fetch.bus = none) : settlesTo s (takeBus r s) := by
  unfold takeBus
  dsimp only
  split
  · exact .refl s
  · rename_i b hb
    have keep := takenProgress_req s.sweepCfg b (sideOf s.fetch r).transfer
    cases r
    · exact ⟨⟨rfl, rfl, rfl, .inl rfl⟩, ⟨keep, rfl, rfl, rfl, rfl⟩, .refl _, by simp [h], fun _ => rfl⟩
    · exact ⟨⟨rfl, rfl, rfl, .inl rfl⟩, .refl _, ⟨keep, rfl, rfl, rfl, rfl⟩, by simp [h], fun _ => rfl⟩

theorem settleBus_settles (b : Bool) (s : State) : settlesTo s (settleBus b s) := by
  unfold settleBus
  split
  · exact .refl s
  · rename_i hb
    have hb : s.fetch.bus = none := by simpa using hb
    split
    · exact .refl s
    · exact takeBus_settles _ _ hb
    · exact takeBus_settles _ _ hb
    · split
      · exact takeBus_settles _ _ hb
      · refine settlesTo.trans (m := { s with freeIndex := s.freeIndex + 1 }) ?_ (takeBus_settles _ _ hb)
        exact ⟨⟨rfl, rfl, rfl, .inl rfl⟩, .refl _, .refl _, fun _ => rfl, fun _ => rfl⟩

theorem asked_content (lines : List BufferedLine) (i n : Nat) :
    (lines.modify i fun l => { l with asked := l.asked + n }).map lineContent = lines.map lineContent := by
  apply List.ext_getElem?
  intro j
  simp only [List.getElem?_map, List.getElem?_modify]
  cases lines[j]? with
  | none => rfl
  | some l => by_cases h : i = j <;> simp [h, lineContent]

theorem ingestAsk_settles (s : State) : settlesTo s (ingestAsk s) := by
  unfold ingestAsk
  split
  · exact .refl s
  · split
    · exact .refl s
    · split
      · exact .refl s
      · exact ⟨⟨rfl, asked_content .., rfl, .inl rfl⟩, .refl _, .refl _, fun _ => rfl, fun _ => rfl⟩

theorem engineAsk_settles (s : State) : settlesTo s (engineAsk s) := by
  unfold engineAsk
  split
  · exact .refl s
  · split
    · exact ⟨⟨rfl, rfl, rfl, .inl rfl⟩, .refl _, .refl _, fun _ => rfl, fun _ => rfl⟩
    · exact .refl s

theorem fetchAsk_settles (b : FetchRead) (s : State) : settlesTo s (fetchAsk b s) := by
  unfold fetchAsk
  cases h : b.requester <;>
    refine ⟨⟨rfl, rfl, rfl, .inl rfl⟩, ⟨?_, rfl, rfl, rfl, rfl⟩, ⟨?_, rfl, rfl, rfl, rfl⟩, fun _ => rfl, fun _ => rfl⟩ <;>
    simp only [setSide, sideOf, Option.map_map] <;> rfl

theorem fetchAskNext_settles (s : State) : settlesTo s (fetchAskNext s) := by
  unfold fetchAskNext
  split
  · exact .refl s
  · split
    · exact fetchAsk_settles ..
    · split
      · exact fetchAsk_settles ..
      · exact .refl s

theorem selfAsk_settles (s : State) : settlesTo s (selfAsk s) := by
  unfold selfAsk
  split
  · exact .refl s
  · split
    · exact .refl s
    · split
      · exact .refl s
      · exact ⟨⟨rfl, rfl, rfl, .inl rfl⟩, .refl _, .refl _, fun _ => rfl, fun _ => rfl⟩

theorem askAll_settles (s : State) : settlesTo s (askAll s) :=
  (((ingestAsk_settles s).trans (engineAsk_settles _)).trans (fetchAskNext_settles _)).trans (selfAsk_settles _)

theorem engineWithdraw_settles (s : State) : settlesTo s (engineWithdraw s) := by
  unfold engineWithdraw
  split
  · split
    · exact .refl s
    · exact ⟨⟨rfl, rfl, rfl, .inl rfl⟩, .refl _, .refl _, fun _ => rfl, fun _ => rfl⟩
  · exact .refl s

theorem grantClient_settles (c : Client) (s : State) (h : s.arb.inProgress = none) : settlesTo s (grantClient c s) := by
  unfold grantClient
  split <;> split <;>
    exact ⟨⟨rfl, rfl, rfl, .inl rfl⟩, .refl _, .refl _, fun _ => rfl, by simp [h]⟩

theorem grantWaiting_settles (s : State) : settlesTo s (grantWaiting s) := by
  unfold grantWaiting
  split
  · exact .refl s
  · rename_i h
    split
    · exact grantClient_settles _ _ (by simpa using h)
    · exact .refl s

theorem grantArrived_settles (s : State) : settlesTo s (grantArrived s) := by
  unfold grantArrived
  split
  · exact .refl s
  · rename_i h
    have h : s.arb.inProgress = none := by simpa using h
    split
    · exact .refl s
    · exact grantClient_settles _ _ h
    · split
      · refine settlesTo.trans (m := { s with freeIndex := s.freeIndex + 2 }) ?_ (grantClient_settles _ _ h)
        exact ⟨⟨rfl, rfl, rfl, .inl rfl⟩, .refl _, .refl _, fun _ => rfl, fun _ => rfl⟩
      · exact .refl s

theorem prepareStrip_settles (s : State) : settlesTo s (prepareStrip s) := by
  unfold prepareStrip
  split
  · rename_i job hst hj
    split
    · exact .refl s
    · exact ⟨⟨rfl, rfl, by simp only [hj]; rfl, .inr hst⟩, .refl _, .refl _, fun _ => rfl, fun _ => rfl⟩
  · exact .refl s

theorem planReads_settles (s : State) : settlesTo s (planReads s) :=
  ⟨⟨rfl, rfl, rfl, .inl rfl⟩, .refl _, .refl _, fun _ => rfl, fun _ => rfl⟩

/-- What settles after a command leaves everything but the two ports' own affairs as the command left it. -/
theorem settle_settlesTo (b m : Bool) (s : State) : settlesTo s (settle b m s) := by
  unfold settle
  dsimp only
  have h1 : settlesTo s (engineWithdraw (planReads (prepareStrip s))) :=
    ((prepareStrip_settles s).trans (planReads_settles _)).trans (engineWithdraw_settles _)
  have tail : ∀ x, settlesTo x (askAll (grantArrived (askAll (settleBus b x)))) := fun x =>
    (((settleBus_settles b x).trans (askAll_settles _)).trans (grantArrived_settles _)).trans (askAll_settles _)
  cases m
  · exact h1.trans (tail _)
  · exact (h1.trans (grantWaiting_settles _)).trans (tail _)

/-! ## What settles leaves the compositor alone, but for a strip to prepare -/

theorem takeBus_comp (r : Requester) (s : State) : (takeBus r s).comp = s.comp := by
  obtain ⟨_, _, h⟩ := takeBus_only r s; rw [h]

theorem settleBus_comp (c : Bool) (s : State) : (settleBus c s).comp = s.comp := by
  unfold settleBus
  split
  · rfl
  · split
    · rfl
    · exact takeBus_comp ..
    · exact takeBus_comp ..
    · split
      · exact takeBus_comp ..
      · exact takeBus_comp ..

theorem askAll_comp (s : State) : (askAll s).comp = s.comp := by
  have h1 : (ingestAsk s).comp = s.comp := by
    unfold ingestAsk; split
    · rfl
    · split
      · rfl
      · split <;> rfl
  have h2 : ∀ x : State, (engineAsk x).comp = x.comp := by
    intro x; unfold engineAsk; split
    · rfl
    · split <;> rfl
  have h3 : ∀ x : State, (fetchAskNext x).comp = x.comp := by
    intro x; obtain ⟨_, _, h⟩ := fetchAskNext_only x; rw [h]
  have h4 : ∀ x : State, (selfAsk x).comp = x.comp := by
    intro x; unfold selfAsk; split
    · rfl
    · split
      · rfl
      · split <;> rfl
  unfold askAll; rw [h4, h3, h2, h1]

theorem grantClient_comp (c : Client) (s : State) : (grantClient c s).comp = s.comp := by
  unfold grantClient; split <;> split <;> rfl

theorem grantWaiting_comp (s : State) : (grantWaiting s).comp = s.comp := by
  unfold grantWaiting; split
  · rfl
  · split
    · exact grantClient_comp ..
    · rfl

theorem grantArrived_comp (s : State) : (grantArrived s).comp = s.comp := by
  unfold grantArrived; split
  · rfl
  · split
    · rfl
    · exact grantClient_comp ..
    · split
      · exact grantClient_comp ..
      · rfl

/-- What settles changes of the compositor only what the preparation of a strip changes. -/
theorem settle_comp (b m : Bool) (s : State) : (settle b m s).comp = (prepareStrip s).comp := by
  have h1 : (engineWithdraw (planReads (prepareStrip s))).comp = (prepareStrip s).comp := by
    unfold engineWithdraw; split
    · split <;> rfl
    · rfl
  unfold settle
  dsimp only
  rw [askAll_comp, grantArrived_comp, askAll_comp, settleBus_comp]
  cases m
  · exact h1
  · exact (grantWaiting_comp _).trans h1

/-- With no frame being composited the compositor is as the command left it. -/
theorem settle_comp_of_ne (b m : Bool) (s : State) (h : s.comp.state ≠ .compositing) : (settle b m s).comp = s.comp := by
  rw [settle_comp]
  unfold prepareStrip
  split
  · rename_i hc _; exact absurd hc h
  · rfl

/-- An empty line buffer stays empty. -/
theorem settle_ingest_of_nil (b m : Bool) (s : State) (h : s.ingest.lines = []) : (settle b m s).ingest = s.ingest := by
  have st := (settle_settlesTo b m s).1
  have e := st.2.1
  rw [h] at e
  rw [st.1]
  have : (settle b m s).ingest.lines = [] := by simpa using e
  simp only [this, ← h]

end Sys2Proof.Machine
end

