-- ==== Sys2Proof/Laws/State.lean ====
section
/-! SUPPORT. One lemma per field for each named update of the state, true by definition. -/

namespace Sys2Proof.Machine

variable (s : State)

/-! ### setPort -/

@[simp] theorem setPort_timeBase (port : PortFrame) : (setPort port s).timeBase = s.timeBase := rfl
@[simp] theorem setPort_inReset (port : PortFrame) : (setPort port s).inReset = s.inReset := rfl
@[simp] theorem setPort_config (port : PortFrame) : (setPort port s).config = s.config := rfl
@[simp] theorem setPort_sweepCfg (port : PortFrame) : (setPort port s).sweepCfg = s.sweepCfg := rfl
@[simp] theorem setPort_sweep (port : PortFrame) : (setPort port s).sweep = s.sweep := rfl
@[simp] theorem setPort_motion (port : PortFrame) : (setPort port s).motion = s.motion := rfl
@[simp] theorem setPort_ingest (port : PortFrame) : (setPort port s).ingest = { s.ingest with port := port } := rfl
@[simp] theorem setPort_place (port : PortFrame) : (setPort port s).place = s.place := rfl
@[simp] theorem setPort_reg (port : PortFrame) : (setPort port s).reg = s.reg := rfl
@[simp] theorem setPort_comp (port : PortFrame) : (setPort port s).comp = s.comp := rfl
@[simp] theorem setPort_store (port : PortFrame) : (setPort port s).store = s.store := rfl
@[simp] theorem setPort_arb (port : PortFrame) : (setPort port s).arb = s.arb := rfl
@[simp] theorem setPort_fetch (port : PortFrame) : (setPort port s).fetch = s.fetch := rfl
@[simp] theorem setPort_ctl (port : PortFrame) : (setPort port s).ctl = s.ctl := rfl
@[simp] theorem setPort_attn (port : PortFrame) : (setPort port s).attn = s.attn := rfl
@[simp] theorem setPort_selfTest (port : PortFrame) : (setPort port s).selfTest = s.selfTest := rfl
@[simp] theorem setPort_freeIndex (port : PortFrame) : (setPort port s).freeIndex = s.freeIndex := rfl
@[simp] theorem setPort_pending (port : PortFrame) : (setPort port s).pending = s.pending := rfl

/-! ### raiseCause -/

@[simp] theorem raiseCause_timeBase (c : Cause) : (raiseCause c s).timeBase = s.timeBase := rfl
@[simp] theorem raiseCause_inReset (c : Cause) : (raiseCause c s).inReset = s.inReset := rfl
@[simp] theorem raiseCause_config (c : Cause) : (raiseCause c s).config = s.config := rfl
@[simp] theorem raiseCause_sweepCfg (c : Cause) : (raiseCause c s).sweepCfg = s.sweepCfg := rfl
@[simp] theorem raiseCause_sweep (c : Cause) : (raiseCause c s).sweep = s.sweep := rfl
@[simp] theorem raiseCause_motion (c : Cause) : (raiseCause c s).motion = s.motion := rfl
@[simp] theorem raiseCause_ingest (c : Cause) : (raiseCause c s).ingest = s.ingest := rfl
@[simp] theorem raiseCause_place (c : Cause) : (raiseCause c s).place = s.place := rfl
@[simp] theorem raiseCause_reg (c : Cause) : (raiseCause c s).reg = s.reg := rfl
@[simp] theorem raiseCause_comp (c : Cause) : (raiseCause c s).comp = s.comp := rfl
@[simp] theorem raiseCause_store (c : Cause) : (raiseCause c s).store = s.store := rfl
@[simp] theorem raiseCause_arb (c : Cause) : (raiseCause c s).arb = s.arb := rfl
@[simp] theorem raiseCause_fetch (c : Cause) : (raiseCause c s).fetch = s.fetch := rfl
@[simp] theorem raiseCause_ctl (c : Cause) : (raiseCause c s).ctl = s.ctl := rfl
@[simp] theorem raiseCause_attn (c : Cause) :
    (raiseCause c s).attn = { s.attn with pendingSet := s.attn.pendingSet ||| causeMark (causeCode c) } := rfl
@[simp] theorem raiseCause_selfTest (c : Cause) : (raiseCause c s).selfTest = s.selfTest := rfl
@[simp] theorem raiseCause_freeIndex (c : Cause) : (raiseCause c s).freeIndex = s.freeIndex := rfl
@[simp] theorem raiseCause_pending (c : Cause) : (raiseCause c s).pending = s.pending := rfl

/-! ### beginDraining -/

@[simp] theorem beginDraining_timeBase (r : LastReason) : (beginDraining r s).timeBase = s.timeBase := rfl
@[simp] theorem beginDraining_inReset (r : LastReason) : (beginDraining r s).inReset = s.inReset := rfl
@[simp] theorem beginDraining_config (r : LastReason) : (beginDraining r s).config = s.config := rfl
@[simp] theorem beginDraining_sweepCfg (r : LastReason) : (beginDraining r s).sweepCfg = s.sweepCfg := rfl
@[simp] theorem beginDraining_sweep (r : LastReason) :
    (beginDraining r s).sweep = { s.sweep with state := .draining, lastReason := r, limitRunning := false } := rfl
@[simp] theorem beginDraining_motion (r : LastReason) : (beginDraining r s).motion = s.motion := rfl
@[simp] theorem beginDraining_ingest (r : LastReason) : (beginDraining r s).ingest = s.ingest := rfl
@[simp] theorem beginDraining_place (r : LastReason) : (beginDraining r s).place = s.place := rfl
@[simp] theorem beginDraining_reg (r : LastReason) : (beginDraining r s).reg = s.reg := rfl
@[simp] theorem beginDraining_comp (r : LastReason) : (beginDraining r s).comp = s.comp := rfl
@[simp] theorem beginDraining_store (r : LastReason) : (beginDraining r s).store = s.store := rfl
@[simp] theorem beginDraining_arb (r : LastReason) : (beginDraining r s).arb = s.arb := rfl
@[simp] theorem beginDraining_fetch (r : LastReason) : (beginDraining r s).fetch = s.fetch := rfl
@[simp] theorem beginDraining_ctl (r : LastReason) : (beginDraining r s).ctl = s.ctl := rfl
@[simp] theorem beginDraining_attn (r : LastReason) : (beginDraining r s).attn = s.attn := rfl
@[simp] theorem beginDraining_selfTest (r : LastReason) : (beginDraining r s).selfTest = s.selfTest := rfl
@[simp] theorem beginDraining_freeIndex (r : LastReason) : (beginDraining r s).freeIndex = s.freeIndex := rfl
@[simp] theorem beginDraining_pending (r : LastReason) : (beginDraining r s).pending = s.pending := rfl

/-! ### sendEndRequest -/

@[simp] theorem sendEndRequest_timeBase (r : EndReason) : (sendEndRequest r s).timeBase = s.timeBase := rfl
@[simp] theorem sendEndRequest_inReset (r : EndReason) : (sendEndRequest r s).inReset = s.inReset := rfl
@[simp] theorem sendEndRequest_config (r : EndReason) : (sendEndRequest r s).config = s.config := rfl
@[simp] theorem sendEndRequest_sweepCfg (r : EndReason) : (sendEndRequest r s).sweepCfg = s.sweepCfg := rfl
@[simp] theorem sendEndRequest_sweep (r : EndReason) :
    (sendEndRequest r s).sweep = { s.sweep with endRequests := s.sweep.endRequests ++ [r] } := rfl
@[simp] theorem sendEndRequest_motion (r : EndReason) : (sendEndRequest r s).motion = s.motion := rfl
@[simp] theorem sendEndRequest_ingest (r : EndReason) : (sendEndRequest r s).ingest = s.ingest := rfl
@[simp] theorem sendEndRequest_place (r : EndReason) : (sendEndRequest r s).place = s.place := rfl
@[simp] theorem sendEndRequest_reg (r : EndReason) : (sendEndRequest r s).reg = s.reg := rfl
@[simp] theorem sendEndRequest_comp (r : EndReason) : (sendEndRequest r s).comp = s.comp := rfl
@[simp] theorem sendEndRequest_store (r : EndReason) : (sendEndRequest r s).store = s.store := rfl
@[simp] theorem sendEndRequest_arb (r : EndReason) : (sendEndRequest r s).arb = s.arb := rfl
@[simp] theorem sendEndRequest_fetch (r : EndReason) : (sendEndRequest r s).fetch = s.fetch := rfl
@[simp] theorem sendEndRequest_ctl (r : EndReason) : (sendEndRequest r s).ctl = s.ctl := rfl
@[simp] theorem sendEndRequest_attn (r : EndReason) : (sendEndRequest r s).attn = s.attn := rfl
@[simp] theorem sendEndRequest_selfTest (r : EndReason) : (sendEndRequest r s).selfTest = s.selfTest := rfl
@[simp] theorem sendEndRequest_freeIndex (r : EndReason) : (sendEndRequest r s).freeIndex = s.freeIndex := rfl
@[simp] theorem sendEndRequest_pending (r : EndReason) : (sendEndRequest r s).pending = s.pending := rfl

/-! ### openSweep -/

@[simp] theorem openSweep_timeBase (t : Time) : (openSweep t s).timeBase = s.timeBase := rfl
@[simp] theorem openSweep_inReset (t : Time) : (openSweep t s).inReset = s.inReset := rfl
@[simp] theorem openSweep_config (t : Time) : (openSweep t s).config = s.config := rfl
@[simp] theorem openSweep_sweepCfg (t : Time) : (openSweep t s).sweepCfg = s.sweepCfg := rfl
@[simp] theorem openSweep_sweep (t : Time) :
    (openSweep t s).sweep =
      { s.sweep with state := .opened, openTime := some t, openPending := false, limitRunning := true } := rfl
@[simp] theorem openSweep_motion (t : Time) : (openSweep t s).motion = decideBias s.sweepCfg s.motion := rfl
@[simp] theorem openSweep_ingest (t : Time) : (openSweep t s).ingest = s.ingest := rfl
@[simp] theorem openSweep_place (t : Time) : (openSweep t s).place = s.place := rfl
@[simp] theorem openSweep_reg (t : Time) : (openSweep t s).reg = s.reg := rfl
@[simp] theorem openSweep_comp (t : Time) : (openSweep t s).comp = s.comp := rfl
@[simp] theorem openSweep_store (t : Time) : (openSweep t s).store = s.store := rfl
@[simp] theorem openSweep_arb (t : Time) : (openSweep t s).arb = s.arb := rfl
@[simp] theorem openSweep_fetch (t : Time) : (openSweep t s).fetch = s.fetch := rfl
@[simp] theorem openSweep_ctl (t : Time) : (openSweep t s).ctl = s.ctl := rfl
@[simp] theorem openSweep_attn (t : Time) : (openSweep t s).attn = s.attn := rfl
@[simp] theorem openSweep_selfTest (t : Time) : (openSweep t s).selfTest = s.selfTest := rfl
@[simp] theorem openSweep_freeIndex (t : Time) : (openSweep t s).freeIndex = s.freeIndex := rfl
@[simp] theorem openSweep_pending (t : Time) : (openSweep t s).pending = s.pending := rfl

/-! ### endTransaction -/

@[simp] theorem endTransaction_timeBase (poll : Bool) : (endTransaction poll s).timeBase = s.timeBase := rfl
@[simp] theorem endTransaction_inReset (poll : Bool) : (endTransaction poll s).inReset = s.inReset := rfl
@[simp] theorem endTransaction_config (poll : Bool) : (endTransaction poll s).config = s.config := rfl
@[simp] theorem endTransaction_sweepCfg (poll : Bool) : (endTransaction poll s).sweepCfg = s.sweepCfg := rfl
@[simp] theorem endTransaction_sweep (poll : Bool) : (endTransaction poll s).sweep = s.sweep := rfl
@[simp] theorem endTransaction_motion (poll : Bool) : (endTransaction poll s).motion = s.motion := rfl
@[simp] theorem endTransaction_ingest (poll : Bool) : (endTransaction poll s).ingest = s.ingest := rfl
@[simp] theorem endTransaction_place (poll : Bool) : (endTransaction poll s).place = s.place := rfl
@[simp] theorem endTransaction_reg (poll : Bool) : (endTransaction poll s).reg = s.reg := rfl
@[simp] theorem endTransaction_comp (poll : Bool) : (endTransaction poll s).comp = s.comp := rfl
@[simp] theorem endTransaction_store (poll : Bool) : (endTransaction poll s).store = s.store := rfl
@[simp] theorem endTransaction_arb (poll : Bool) : (endTransaction poll s).arb = s.arb := rfl
@[simp] theorem endTransaction_fetch (poll : Bool) : (endTransaction poll s).fetch = s.fetch := rfl
@[simp] theorem endTransaction_ctl (poll : Bool) :
    (endTransaction poll s).ctl = { s.ctl with latched := none, polled := poll } := rfl
@[simp] theorem endTransaction_attn (poll : Bool) : (endTransaction poll s).attn = s.attn := rfl
@[simp] theorem endTransaction_selfTest (poll : Bool) : (endTransaction poll s).selfTest = s.selfTest := rfl
@[simp] theorem endTransaction_freeIndex (poll : Bool) : (endTransaction poll s).freeIndex = s.freeIndex := rfl
@[simp] theorem endTransaction_pending (poll : Bool) : (endTransaction poll s).pending = s.pending := rfl

/-! ### takeSlot -/

@[simp] theorem takeSlot_timeBase (kind tag : Byte) : (takeSlot kind tag s).timeBase = s.timeBase := rfl
@[simp] theorem takeSlot_inReset (kind tag : Byte) : (takeSlot kind tag s).inReset = s.inReset := rfl
@[simp] theorem takeSlot_config (kind tag : Byte) : (takeSlot kind tag s).config = s.config := rfl
@[simp] theorem takeSlot_sweepCfg (kind tag : Byte) : (takeSlot kind tag s).sweepCfg = s.sweepCfg := rfl
@[simp] theorem takeSlot_sweep (kind tag : Byte) : (takeSlot kind tag s).sweep = s.sweep := rfl
@[simp] theorem takeSlot_motion (kind tag : Byte) : (takeSlot kind tag s).motion = s.motion := rfl
@[simp] theorem takeSlot_ingest (kind tag : Byte) : (takeSlot kind tag s).ingest = s.ingest := rfl
@[simp] theorem takeSlot_place (kind tag : Byte) : (takeSlot kind tag s).place = s.place := rfl
@[simp] theorem takeSlot_reg (kind tag : Byte) : (takeSlot kind tag s).reg = s.reg := rfl
@[simp] theorem takeSlot_comp (kind tag : Byte) : (takeSlot kind tag s).comp = s.comp := rfl
@[simp] theorem takeSlot_store (kind tag : Byte) : (takeSlot kind tag s).store = s.store := rfl
@[simp] theorem takeSlot_arb (kind tag : Byte) : (takeSlot kind tag s).arb = s.arb := rfl
@[simp] theorem takeSlot_fetch (kind tag : Byte) : (takeSlot kind tag s).fetch = s.fetch := rfl
@[simp] theorem takeSlot_ctl (kind tag : Byte) :
    (takeSlot kind tag s).ctl = ⟨none, some (kind, tag), none, s.ctl.cso, false⟩ := rfl
@[simp] theorem takeSlot_attn (kind tag : Byte) : (takeSlot kind tag s).attn = s.attn := rfl
@[simp] theorem takeSlot_selfTest (kind tag : Byte) : (takeSlot kind tag s).selfTest = s.selfTest := rfl
@[simp] theorem takeSlot_freeIndex (kind tag : Byte) :
    (takeSlot kind tag s).freeIndex = s.freeIndex := rfl
@[simp] theorem takeSlot_pending (kind tag : Byte) : (takeSlot kind tag s).pending = s.pending := rfl

/-! ### beginStrip -/

@[simp] theorem beginStrip_timeBase (job : StripJob) : (beginStrip job s).timeBase = s.timeBase := rfl
@[simp] theorem beginStrip_inReset (job : StripJob) : (beginStrip job s).inReset = s.inReset := rfl
@[simp] theorem beginStrip_config (job : StripJob) : (beginStrip job s).config = s.config := rfl
@[simp] theorem beginStrip_sweepCfg (job : StripJob) : (beginStrip job s).sweepCfg = s.sweepCfg := rfl
@[simp] theorem beginStrip_sweep (job : StripJob) : (beginStrip job s).sweep = s.sweep := rfl
@[simp] theorem beginStrip_motion (job : StripJob) : (beginStrip job s).motion = s.motion := rfl
@[simp] theorem beginStrip_ingest (job : StripJob) : (beginStrip job s).ingest = s.ingest := rfl
@[simp] theorem beginStrip_place (job : StripJob) : (beginStrip job s).place = s.place := rfl
@[simp] theorem beginStrip_reg (job : StripJob) : (beginStrip job s).reg = s.reg := rfl
@[simp] theorem beginStrip_comp (job : StripJob) :
    (beginStrip job s).comp =
      { s.comp with state := .compositing, job := some job, waiting := none, todo := [] } := rfl
@[simp] theorem beginStrip_store (job : StripJob) : (beginStrip job s).store = s.store := rfl
@[simp] theorem beginStrip_arb (job : StripJob) : (beginStrip job s).arb = s.arb := rfl
@[simp] theorem beginStrip_fetch (job : StripJob) : (beginStrip job s).fetch = s.fetch := rfl
@[simp] theorem beginStrip_ctl (job : StripJob) : (beginStrip job s).ctl = s.ctl := rfl
@[simp] theorem beginStrip_attn (job : StripJob) : (beginStrip job s).attn = s.attn := rfl
@[simp] theorem beginStrip_selfTest (job : StripJob) : (beginStrip job s).selfTest = s.selfTest := rfl
@[simp] theorem beginStrip_freeIndex (job : StripJob) : (beginStrip job s).freeIndex = s.freeIndex := rfl
@[simp] theorem beginStrip_pending (job : StripJob) : (beginStrip job s).pending = s.pending := rfl

/-! ### dropFetch -/

@[simp] theorem dropFetch_timeBase (r : Requester) : (dropFetch r s).timeBase = s.timeBase := rfl
@[simp] theorem dropFetch_inReset (r : Requester) : (dropFetch r s).inReset = s.inReset := rfl
@[simp] theorem dropFetch_config (r : Requester) : (dropFetch r s).config = s.config := rfl
@[simp] theorem dropFetch_sweepCfg (r : Requester) : (dropFetch r s).sweepCfg = s.sweepCfg := rfl
@[simp] theorem dropFetch_sweep (r : Requester) : (dropFetch r s).sweep = s.sweep := rfl
@[simp] theorem dropFetch_motion (r : Requester) : (dropFetch r s).motion = s.motion := rfl
@[simp] theorem dropFetch_ingest (r : Requester) : (dropFetch r s).ingest = s.ingest := rfl
@[simp] theorem dropFetch_place (r : Requester) : (dropFetch r s).place = s.place := rfl
@[simp] theorem dropFetch_reg (r : Requester) : (dropFetch r s).reg = s.reg := rfl
@[simp] theorem dropFetch_comp (r : Requester) : (dropFetch r s).comp = s.comp := rfl
@[simp] theorem dropFetch_store (r : Requester) : (dropFetch r s).store = s.store := rfl
@[simp] theorem dropFetch_fetch (r : Requester) : (dropFetch r s).fetch = s.fetch := rfl
@[simp] theorem dropFetch_ctl (r : Requester) : (dropFetch r s).ctl = s.ctl := rfl
@[simp] theorem dropFetch_attn (r : Requester) : (dropFetch r s).attn = s.attn := rfl
@[simp] theorem dropFetch_selfTest (r : Requester) : (dropFetch r s).selfTest = s.selfTest := rfl
@[simp] theorem dropFetch_freeIndex (r : Requester) : (dropFetch r s).freeIndex = s.freeIndex := rfl
@[simp] theorem dropFetch_pending (r : Requester) : (dropFetch r s).pending = s.pending := rfl

/-! ### dropEngine -/

@[simp] theorem dropEngine_timeBase (u : EngineUnit) : (dropEngine u s).timeBase = s.timeBase := rfl
@[simp] theorem dropEngine_inReset (u : EngineUnit) : (dropEngine u s).inReset = s.inReset := rfl
@[simp] theorem dropEngine_config (u : EngineUnit) : (dropEngine u s).config = s.config := rfl
@[simp] theorem dropEngine_sweepCfg (u : EngineUnit) : (dropEngine u s).sweepCfg = s.sweepCfg := rfl
@[simp] theorem dropEngine_sweep (u : EngineUnit) : (dropEngine u s).sweep = s.sweep := rfl
@[simp] theorem dropEngine_motion (u : EngineUnit) : (dropEngine u s).motion = s.motion := rfl
@[simp] theorem dropEngine_ingest (u : EngineUnit) : (dropEngine u s).ingest = s.ingest := rfl
@[simp] theorem dropEngine_place (u : EngineUnit) : (dropEngine u s).place = s.place := rfl
@[simp] theorem dropEngine_reg (u : EngineUnit) : (dropEngine u s).reg = s.reg := rfl
@[simp] theorem dropEngine_comp (u : EngineUnit) : (dropEngine u s).comp = s.comp := rfl
@[simp] theorem dropEngine_store (u : EngineUnit) : (dropEngine u s).store = s.store := rfl
@[simp] theorem dropEngine_fetch (u : EngineUnit) : (dropEngine u s).fetch = s.fetch := rfl
@[simp] theorem dropEngine_ctl (u : EngineUnit) : (dropEngine u s).ctl = s.ctl := rfl
@[simp] theorem dropEngine_attn (u : EngineUnit) : (dropEngine u s).attn = s.attn := rfl
@[simp] theorem dropEngine_selfTest (u : EngineUnit) : (dropEngine u s).selfTest = s.selfTest := rfl
@[simp] theorem dropEngine_freeIndex (u : EngineUnit) : (dropEngine u s).freeIndex = s.freeIndex := rfl
@[simp] theorem dropEngine_pending (u : EngineUnit) : (dropEngine u s).pending = s.pending := rfl

/-! ### countRead, and what is left to read -/

@[simp] theorem countRead_timeBase (u : EngineUnit) (ws : List Nat) : (countRead u ws s).timeBase = s.timeBase := rfl
@[simp] theorem countRead_inReset (u : EngineUnit) (ws : List Nat) : (countRead u ws s).inReset = s.inReset := rfl
@[simp] theorem countRead_config (u : EngineUnit) (ws : List Nat) : (countRead u ws s).config = s.config := rfl
@[simp] theorem countRead_sweepCfg (u : EngineUnit) (ws : List Nat) : (countRead u ws s).sweepCfg = s.sweepCfg := rfl
@[simp] theorem countRead_sweep (u : EngineUnit) (ws : List Nat) : (countRead u ws s).sweep = s.sweep := rfl
@[simp] theorem countRead_motion (u : EngineUnit) (ws : List Nat) : (countRead u ws s).motion = s.motion := rfl
@[simp] theorem countRead_ingest (u : EngineUnit) (ws : List Nat) : (countRead u ws s).ingest = s.ingest := rfl
@[simp] theorem countRead_place (u : EngineUnit) (ws : List Nat) : (countRead u ws s).place = s.place := rfl
@[simp] theorem countRead_reg (u : EngineUnit) (ws : List Nat) : (countRead u ws s).reg = s.reg := rfl
@[simp] theorem countRead_comp (u : EngineUnit) (ws : List Nat) : (countRead u ws s).comp = s.comp := rfl
@[simp] theorem countRead_store (u : EngineUnit) (ws : List Nat) : (countRead u ws s).store = s.store := rfl
@[simp] theorem countRead_fetch (u : EngineUnit) (ws : List Nat) : (countRead u ws s).fetch = s.fetch := rfl
@[simp] theorem countRead_ctl (u : EngineUnit) (ws : List Nat) : (countRead u ws s).ctl = s.ctl := rfl
@[simp] theorem countRead_attn (u : EngineUnit) (ws : List Nat) : (countRead u ws s).attn = s.attn := rfl
@[simp] theorem countRead_selfTest (u : EngineUnit) (ws : List Nat) : (countRead u ws s).selfTest = s.selfTest := rfl
@[simp] theorem countRead_freeIndex (u : EngineUnit) (ws : List Nat) : (countRead u ws s).freeIndex = s.freeIndex := rfl
@[simp] theorem countRead_pending (u : EngineUnit) (ws : List Nat) : (countRead u ws s).pending = s.pending := rfl

@[simp] theorem readsLeft_dropEngine (u : EngineUnit) : readsLeft (dropEngine u s) u = [] := by cases u <;> rfl

/-- A read takes its words from what its unit has left to read. -/
theorem mem_readsLeft_countRead (u : EngineUnit) (ws : List Nat) (w : Nat) :
    w ∈ readsLeft (countRead u ws s) u ↔ w ∈ readsLeft s u ∧ w ∉ ws := by
  cases u
  · cases h : s.arb.regReads <;> simp [readsLeft, countRead, setReads, engineReads, h]
  · cases h : s.arb.compReads <;> simp [readsLeft, countRead, setReads, engineReads, h]

/-! ### dropLines -/

@[simp] theorem dropLines_timeBase (i : Nat) : (dropLines i s).timeBase = s.timeBase := rfl
@[simp] theorem dropLines_inReset (i : Nat) : (dropLines i s).inReset = s.inReset := rfl
@[simp] theorem dropLines_config (i : Nat) : (dropLines i s).config = s.config := rfl
@[simp] theorem dropLines_sweepCfg (i : Nat) : (dropLines i s).sweepCfg = s.sweepCfg := rfl
@[simp] theorem dropLines_sweep (i : Nat) : (dropLines i s).sweep = s.sweep := rfl
@[simp] theorem dropLines_motion (i : Nat) : (dropLines i s).motion = s.motion := rfl
@[simp] theorem dropLines_ingest (i : Nat) :
    (dropLines i s).ingest = { s.ingest with lines := s.ingest.lines.filter fun l => decide (l.slot ≠ i) } := rfl
@[simp] theorem dropLines_place (i : Nat) : (dropLines i s).place = s.place := rfl
@[simp] theorem dropLines_reg (i : Nat) : (dropLines i s).reg = s.reg := rfl
@[simp] theorem dropLines_comp (i : Nat) : (dropLines i s).comp = s.comp := rfl
@[simp] theorem dropLines_store (i : Nat) : (dropLines i s).store = s.store := rfl
@[simp] theorem dropLines_fetch (i : Nat) : (dropLines i s).fetch = s.fetch := rfl
@[simp] theorem dropLines_ctl (i : Nat) : (dropLines i s).ctl = s.ctl := rfl
@[simp] theorem dropLines_attn (i : Nat) : (dropLines i s).attn = s.attn := rfl
@[simp] theorem dropLines_selfTest (i : Nat) : (dropLines i s).selfTest = s.selfTest := rfl
@[simp] theorem dropLines_freeIndex (i : Nat) : (dropLines i s).freeIndex = s.freeIndex := rfl
@[simp] theorem dropLines_pending (i : Nat) : (dropLines i s).pending = s.pending := rfl

/-! ### compositorStop -/

@[simp] theorem compositorStop_timeBase : (compositorStop s).timeBase = s.timeBase := rfl
@[simp] theorem compositorStop_inReset : (compositorStop s).inReset = s.inReset := rfl
@[simp] theorem compositorStop_config : (compositorStop s).config = s.config := rfl
@[simp] theorem compositorStop_sweepCfg : (compositorStop s).sweepCfg = s.sweepCfg := rfl
@[simp] theorem compositorStop_sweep : (compositorStop s).sweep = s.sweep := rfl
@[simp] theorem compositorStop_motion : (compositorStop s).motion = s.motion := rfl
@[simp] theorem compositorStop_ingest : (compositorStop s).ingest = s.ingest := rfl
@[simp] theorem compositorStop_place : (compositorStop s).place = s.place := rfl
@[simp] theorem compositorStop_reg : (compositorStop s).reg = s.reg := rfl
@[simp] theorem compositorStop_comp :
    (compositorStop s).comp = { s.comp with
      state := .ready, job := none, waiting := none, pendingReanchor := none, todo := [], halted := false } := rfl
@[simp] theorem compositorStop_store : (compositorStop s).store = s.store := rfl
@[simp] theorem compositorStop_fetch : (compositorStop s).fetch = s.fetch := rfl
@[simp] theorem compositorStop_ctl : (compositorStop s).ctl = s.ctl := rfl
@[simp] theorem compositorStop_attn : (compositorStop s).attn = s.attn := rfl
@[simp] theorem compositorStop_selfTest : (compositorStop s).selfTest = s.selfTest := rfl
@[simp] theorem compositorStop_freeIndex : (compositorStop s).freeIndex = s.freeIndex := rfl
@[simp] theorem compositorStop_pending : (compositorStop s).pending = s.pending := rfl

/-! ### checkWords -/

@[simp] theorem checkWords_timeBase (words : List Nat) (e : MemErrors) :
    (checkWords words e s).timeBase = s.timeBase := rfl
@[simp] theorem checkWords_inReset (words : List Nat) (e : MemErrors) :
    (checkWords words e s).inReset = s.inReset := rfl
@[simp] theorem checkWords_config (words : List Nat) (e : MemErrors) : (checkWords words e s).config = s.config := rfl
@[simp] theorem checkWords_sweepCfg (words : List Nat) (e : MemErrors) :
    (checkWords words e s).sweepCfg = s.sweepCfg := rfl
@[simp] theorem checkWords_sweep (words : List Nat) (e : MemErrors) : (checkWords words e s).sweep = s.sweep := rfl
@[simp] theorem checkWords_motion (words : List Nat) (e : MemErrors) : (checkWords words e s).motion = s.motion := rfl
@[simp] theorem checkWords_ingest (words : List Nat) (e : MemErrors) : (checkWords words e s).ingest = s.ingest := rfl
@[simp] theorem checkWords_place (words : List Nat) (e : MemErrors) : (checkWords words e s).place = s.place := rfl
@[simp] theorem checkWords_reg (words : List Nat) (e : MemErrors) : (checkWords words e s).reg = s.reg := rfl
@[simp] theorem checkWords_comp (words : List Nat) (e : MemErrors) : (checkWords words e s).comp = s.comp := rfl
@[simp] theorem checkWords_arb (words : List Nat) (e : MemErrors) : (checkWords words e s).arb = s.arb := rfl
@[simp] theorem checkWords_fetch (words : List Nat) (e : MemErrors) : (checkWords words e s).fetch = s.fetch := rfl
@[simp] theorem checkWords_ctl (words : List Nat) (e : MemErrors) : (checkWords words e s).ctl = s.ctl := rfl
@[simp] theorem checkWords_attn (words : List Nat) (e : MemErrors) : (checkWords words e s).attn = s.attn := rfl
@[simp] theorem checkWords_selfTest (words : List Nat) (e : MemErrors) :
    (checkWords words e s).selfTest = s.selfTest := rfl
@[simp] theorem checkWords_freeIndex (words : List Nat) (e : MemErrors) :
    (checkWords words e s).freeIndex = s.freeIndex := rfl
@[simp] theorem checkWords_pending (words : List Nat) (e : MemErrors) :
    (checkWords words e s).pending = s.pending := rfl

/-! ### storeUnits -/

@[simp] theorem storeUnits_timeBase (units : List WriteUnit) : (storeUnits units s).timeBase = s.timeBase := rfl
@[simp] theorem storeUnits_inReset (units : List WriteUnit) : (storeUnits units s).inReset = s.inReset := rfl
@[simp] theorem storeUnits_config (units : List WriteUnit) : (storeUnits units s).config = s.config := rfl
@[simp] theorem storeUnits_sweepCfg (units : List WriteUnit) : (storeUnits units s).sweepCfg = s.sweepCfg := rfl
@[simp] theorem storeUnits_sweep (units : List WriteUnit) : (storeUnits units s).sweep = s.sweep := rfl
@[simp] theorem storeUnits_motion (units : List WriteUnit) : (storeUnits units s).motion = s.motion := rfl
@[simp] theorem storeUnits_ingest (units : List WriteUnit) : (storeUnits units s).ingest = s.ingest := rfl
@[simp] theorem storeUnits_place (units : List WriteUnit) : (storeUnits units s).place = s.place := rfl
@[simp] theorem storeUnits_reg (units : List WriteUnit) : (storeUnits units s).reg = s.reg := rfl
@[simp] theorem storeUnits_comp (units : List WriteUnit) : (storeUnits units s).comp = s.comp := rfl
@[simp] theorem storeUnits_arb (units : List WriteUnit) : (storeUnits units s).arb = s.arb := rfl
@[simp] theorem storeUnits_fetch (units : List WriteUnit) : (storeUnits units s).fetch = s.fetch := rfl
@[simp] theorem storeUnits_ctl (units : List WriteUnit) : (storeUnits units s).ctl = s.ctl := rfl
@[simp] theorem storeUnits_attn (units : List WriteUnit) : (storeUnits units s).attn = s.attn := rfl
@[simp] theorem storeUnits_selfTest (units : List WriteUnit) : (storeUnits units s).selfTest = s.selfTest := rfl
@[simp] theorem storeUnits_freeIndex (units : List WriteUnit) : (storeUnits units s).freeIndex = s.freeIndex := rfl
@[simp] theorem storeUnits_pending (units : List WriteUnit) : (storeUnits units s).pending = s.pending := rfl

/-! ### freeLines -/

@[simp] theorem freeLines_timeBase : (freeLines s).timeBase = s.timeBase := rfl
@[simp] theorem freeLines_inReset : (freeLines s).inReset = s.inReset := rfl
@[simp] theorem freeLines_config : (freeLines s).config = s.config := rfl
@[simp] theorem freeLines_sweepCfg : (freeLines s).sweepCfg = s.sweepCfg := rfl
@[simp] theorem freeLines_sweep : (freeLines s).sweep = s.sweep := rfl
@[simp] theorem freeLines_motion : (freeLines s).motion = s.motion := rfl
@[simp] theorem freeLines_ingest : (freeLines s).ingest = { s.ingest with lines := [] } := rfl
@[simp] theorem freeLines_place : (freeLines s).place = s.place := rfl
@[simp] theorem freeLines_reg : (freeLines s).reg = s.reg := rfl
@[simp] theorem freeLines_comp : (freeLines s).comp = s.comp := rfl
@[simp] theorem freeLines_store : (freeLines s).store = s.store := rfl
@[simp] theorem freeLines_fetch : (freeLines s).fetch = s.fetch := rfl
@[simp] theorem freeLines_ctl : (freeLines s).ctl = s.ctl := rfl
@[simp] theorem freeLines_attn : (freeLines s).attn = s.attn := rfl
@[simp] theorem freeLines_selfTest : (freeLines s).selfTest = s.selfTest := rfl
@[simp] theorem freeLines_freeIndex : (freeLines s).freeIndex = s.freeIndex := rfl
@[simp] theorem freeLines_pending : (freeLines s).pending = s.pending := rfl

/-! ### testTraces -/

@[simp] theorem testTraces_timeBase (o : Nat) : (testTraces o s).timeBase = s.timeBase := rfl
@[simp] theorem testTraces_inReset (o : Nat) : (testTraces o s).inReset = s.inReset := rfl
@[simp] theorem testTraces_config (o : Nat) : (testTraces o s).config = s.config := rfl
@[simp] theorem testTraces_sweepCfg (o : Nat) : (testTraces o s).sweepCfg = s.sweepCfg := rfl
@[simp] theorem testTraces_sweep (o : Nat) : (testTraces o s).sweep = s.sweep := rfl
@[simp] theorem testTraces_ingest (o : Nat) : (testTraces o s).ingest = s.ingest := rfl
@[simp] theorem testTraces_place (o : Nat) : (testTraces o s).place = s.place := rfl
@[simp] theorem testTraces_comp (o : Nat) : (testTraces o s).comp = s.comp := rfl
@[simp] theorem testTraces_store (o : Nat) :
    (testTraces o s).store = if testRan 3 o then clearAllFlags (setAllFlags s.store) else s.store := rfl
@[simp] theorem testTraces_arb (o : Nat) : (testTraces o s).arb = s.arb := rfl
@[simp] theorem testTraces_fetch (o : Nat) : (testTraces o s).fetch = s.fetch := rfl
@[simp] theorem testTraces_ctl (o : Nat) : (testTraces o s).ctl = s.ctl := rfl
@[simp] theorem testTraces_attn (o : Nat) : (testTraces o s).attn = s.attn := rfl
@[simp] theorem testTraces_selfTest (o : Nat) : (testTraces o s).selfTest = s.selfTest := rfl
@[simp] theorem testTraces_freeIndex (o : Nat) : (testTraces o s).freeIndex = s.freeIndex := rfl
@[simp] theorem testTraces_pending (o : Nat) : (testTraces o s).pending = s.pending := rfl

/-! ### bufferLine -/

@[simp] theorem bufferLine_timeBase (i line : Nat) (words : List Half) :
    (bufferLine i line words s).timeBase = s.timeBase := rfl
@[simp] theorem bufferLine_inReset (i line : Nat) (words : List Half) :
    (bufferLine i line words s).inReset = s.inReset := rfl
@[simp] theorem bufferLine_config (i line : Nat) (words : List Half) :
    (bufferLine i line words s).config = s.config := rfl
@[simp] theorem bufferLine_sweepCfg (i line : Nat) (words : List Half) :
    (bufferLine i line words s).sweepCfg = s.sweepCfg := rfl
@[simp] theorem bufferLine_sweep (i line : Nat) (words : List Half) :
    (bufferLine i line words s).sweep = s.sweep := rfl
@[simp] theorem bufferLine_motion (i line : Nat) (words : List Half) :
    (bufferLine i line words s).motion = s.motion := rfl
@[simp] theorem bufferLine_ingest (i line : Nat) (words : List Half) :
    (bufferLine i line words s).ingest = { s.ingest with lines := s.ingest.lines ++ [⟨i, line, words, 0⟩] } := rfl
@[simp] theorem bufferLine_place (i line : Nat) (words : List Half) :
    (bufferLine i line words s).place = s.place := rfl
@[simp] theorem bufferLine_reg (i line : Nat) (words : List Half) : (bufferLine i line words s).reg = s.reg := rfl
@[simp] theorem bufferLine_comp (i line : Nat) (words : List Half) : (bufferLine i line words s).comp = s.comp := rfl
@[simp] theorem bufferLine_store (i line : Nat) (words : List Half) :
    (bufferLine i line words s).store = s.store := rfl
@[simp] theorem bufferLine_arb (i line : Nat) (words : List Half) : (bufferLine i line words s).arb = s.arb := rfl
@[simp] theorem bufferLine_fetch (i line : Nat) (words : List Half) :
    (bufferLine i line words s).fetch = s.fetch := rfl
@[simp] theorem bufferLine_ctl (i line : Nat) (words : List Half) : (bufferLine i line words s).ctl = s.ctl := rfl
@[simp] theorem bufferLine_attn (i line : Nat) (words : List Half) : (bufferLine i line words s).attn = s.attn := rfl
@[simp] theorem bufferLine_selfTest (i line : Nat) (words : List Half) :
    (bufferLine i line words s).selfTest = s.selfTest := rfl
@[simp] theorem bufferLine_freeIndex (i line : Nat) (words : List Half) :
    (bufferLine i line words s).freeIndex = s.freeIndex := rfl
@[simp] theorem bufferLine_pending (i line : Nat) (words : List Half) :
    (bufferLine i line words s).pending = s.pending := rfl

/-! ### countReceived -/

@[simp] theorem countReceived_timeBase : (countReceived s).timeBase = s.timeBase := rfl
@[simp] theorem countReceived_inReset : (countReceived s).inReset = s.inReset := rfl
@[simp] theorem countReceived_config : (countReceived s).config = s.config := rfl
@[simp] theorem countReceived_sweepCfg : (countReceived s).sweepCfg = s.sweepCfg := rfl
@[simp] theorem countReceived_motion : (countReceived s).motion = s.motion := rfl
@[simp] theorem countReceived_ingest : (countReceived s).ingest = s.ingest := rfl
@[simp] theorem countReceived_place : (countReceived s).place = s.place := rfl
@[simp] theorem countReceived_reg : (countReceived s).reg = s.reg := rfl
@[simp] theorem countReceived_comp : (countReceived s).comp = s.comp := rfl
@[simp] theorem countReceived_store : (countReceived s).store = s.store := rfl
@[simp] theorem countReceived_arb : (countReceived s).arb = s.arb := rfl
@[simp] theorem countReceived_fetch : (countReceived s).fetch = s.fetch := rfl
@[simp] theorem countReceived_ctl : (countReceived s).ctl = s.ctl := rfl
@[simp] theorem countReceived_attn : (countReceived s).attn = s.attn := rfl
@[simp] theorem countReceived_selfTest : (countReceived s).selfTest = s.selfTest := rfl
@[simp] theorem countReceived_freeIndex : (countReceived s).freeIndex = s.freeIndex := rfl
@[simp] theorem countReceived_pending : (countReceived s).pending = s.pending := rfl

/-! ### applyReanchor -/

@[simp] theorem applyReanchor_timeBase (r : Reanchor) : (applyReanchor r s).timeBase = s.timeBase := rfl
@[simp] theorem applyReanchor_inReset (r : Reanchor) : (applyReanchor r s).inReset = s.inReset := rfl
@[simp] theorem applyReanchor_config (r : Reanchor) : (applyReanchor r s).config = s.config := rfl
@[simp] theorem applyReanchor_sweepCfg (r : Reanchor) : (applyReanchor r s).sweepCfg = s.sweepCfg := rfl
@[simp] theorem applyReanchor_sweep (r : Reanchor) : (applyReanchor r s).sweep = s.sweep := rfl
@[simp] theorem applyReanchor_motion (r : Reanchor) : (applyReanchor r s).motion = s.motion := rfl
@[simp] theorem applyReanchor_ingest (r : Reanchor) : (applyReanchor r s).ingest = s.ingest := rfl
@[simp] theorem applyReanchor_place (r : Reanchor) : (applyReanchor r s).place = s.place := rfl
@[simp] theorem applyReanchor_reg (r : Reanchor) : (applyReanchor r s).reg = s.reg := rfl
@[simp] theorem applyReanchor_store (r : Reanchor) : (applyReanchor r s).store = s.store := rfl
@[simp] theorem applyReanchor_arb (r : Reanchor) : (applyReanchor r s).arb = s.arb := rfl
@[simp] theorem applyReanchor_fetch (r : Reanchor) : (applyReanchor r s).fetch = s.fetch := rfl
@[simp] theorem applyReanchor_ctl (r : Reanchor) : (applyReanchor r s).ctl = s.ctl := rfl
@[simp] theorem applyReanchor_attn (r : Reanchor) : (applyReanchor r s).attn = s.attn := rfl
@[simp] theorem applyReanchor_selfTest (r : Reanchor) : (applyReanchor r s).selfTest = s.selfTest := rfl
@[simp] theorem applyReanchor_freeIndex (r : Reanchor) : (applyReanchor r s).freeIndex = s.freeIndex := rfl
@[simp] theorem applyReanchor_pending (r : Reanchor) : (applyReanchor r s).pending = s.pending := rfl

/-! ### startTests -/

@[simp] theorem startTests_timeBase : (startTests s).timeBase = s.timeBase := rfl
@[simp] theorem startTests_inReset : (startTests s).inReset = s.inReset := rfl
@[simp] theorem startTests_config : (startTests s).config = s.config := rfl
@[simp] theorem startTests_sweepCfg : (startTests s).sweepCfg = s.sweepCfg := rfl
@[simp] theorem startTests_sweep : (startTests s).sweep = s.sweep := rfl
@[simp] theorem startTests_motion : (startTests s).motion = s.motion := rfl
@[simp] theorem startTests_ingest : (startTests s).ingest = s.ingest := rfl
@[simp] theorem startTests_place : (startTests s).place = s.place := rfl
@[simp] theorem startTests_reg : (startTests s).reg = s.reg := rfl
@[simp] theorem startTests_comp : (startTests s).comp = s.comp := rfl
@[simp] theorem startTests_store : (startTests s).store = s.store := rfl
@[simp] theorem startTests_arb : (startTests s).arb = s.arb := rfl
@[simp] theorem startTests_fetch : (startTests s).fetch = s.fetch := rfl
@[simp] theorem startTests_ctl : (startTests s).ctl = s.ctl := rfl
@[simp] theorem startTests_attn : (startTests s).attn = s.attn := rfl
@[simp] theorem startTests_selfTest : (startTests s).selfTest = ⟨.running, some ⟨1, 0, 0, none⟩⟩ := rfl
@[simp] theorem startTests_freeIndex : (startTests s).freeIndex = s.freeIndex := rfl
@[simp] theorem startTests_pending : (startTests s).pending = s.pending := rfl

/-! ### checkWords, rewriteWords and storeBytes, by field of the canvas store -/

variable (words : List Nat) (e : MemErrors) (st : CanvasStore)

@[simp] theorem checkWords_mem : (checkWords words e s).store.mem = s.store.mem := rfl
@[simp] theorem checkWords_coverage : (checkWords words e s).store.coverage = s.store.coverage := rfl
@[simp] theorem checkWords_computed : (checkWords words e s).store.computed = s.store.computed := rfl
@[simp] theorem checkWords_fill : (checkWords words e s).store.fill = s.store.fill := rfl
@[simp] theorem rewriteWords_mem : (rewriteWords words st).mem = st.mem := rfl
@[simp] theorem rewriteWords_coverage : (rewriteWords words st).coverage = st.coverage := rfl
@[simp] theorem rewriteWords_computed : (rewriteWords words st).computed = st.computed := rfl
@[simp] theorem rewriteWords_fill : (rewriteWords words st).fill = st.fill := rfl
@[simp] theorem rewriteWords_corrected : (rewriteWords words st).corrected = st.corrected := rfl
@[simp] theorem storeBytes_mem (addr : Nat) (bytes : List Byte) :
    (storeBytes addr bytes st).mem = memWriteBytes st.mem addr bytes := rfl
@[simp] theorem storeBytes_coverage (addr : Nat) (bytes : List Byte) :
    (storeBytes addr bytes st).coverage = st.coverage := rfl
@[simp] theorem storeBytes_computed (addr : Nat) (bytes : List Byte) :
    (storeBytes addr bytes st).computed = st.computed := rfl
@[simp] theorem storeBytes_fill (addr : Nat) (bytes : List Byte) : (storeBytes addr bytes st).fill = st.fill := rfl
@[simp] theorem storeBytes_corrected (addr : Nat) (bytes : List Byte) :
    (storeBytes addr bytes st).corrected = st.corrected := rfl
@[simp] theorem storeUnits_mem (units : List WriteUnit) :
    (storeUnits units s).store.mem = units.foldl storeUnit s.store.mem := rfl
@[simp] theorem storeUnits_coverage (units : List WriteUnit) :
    (storeUnits units s).store.coverage = s.store.coverage := rfl
@[simp] theorem storeUnits_computed (units : List WriteUnit) :
    (storeUnits units s).store.computed = s.store.computed := rfl

end Sys2Proof.Machine
end

