-- ==== Sys2Proof/Laws/Fetch.lean ====
section
/-! SUPPORT. The fetch port's operations side by side: what each leaves at a requester's side, and where a posted burst
is once everything has settled. -/

namespace Sys2Proof.Machine

/-! ## Sides -/

@[simp] theorem sideOf_setSide (q r : Requester) (p : PortSide) (s : State) :
    sideOf (setSide r p s).fetch q = if q = r then p else sideOf s.fetch q := by
  cases q <;> cases r <;> rfl

@[simp] theorem setSide_bus (r : Requester) (p : PortSide) (s : State) : (setSide r p s).fetch.bus = s.fetch.bus := by
  cases r <;> rfl

@[simp] theorem setSide_arb (r : Requester) (p : PortSide) (s : State) : (setSide r p s).arb = s.arb := by
  cases r <;> rfl

@[simp] theorem setSide_busTurn (r : Requester) (p : PortSide) (s : State) :
    (setSide r p s).fetch.busTurn = s.fetch.busTurn := by
  cases r <;> rfl

@[simp] theorem setSide_sweep (r : Requester) (p : PortSide) (s : State) : (setSide r p s).sweep = s.sweep := by
  cases r <;> rfl

@[simp] theorem setSide_sweepCfg (r : Requester) (p : PortSide) (s : State) : (setSide r p s).sweepCfg = s.sweepCfg := by
  cases r <;> rfl

@[simp] theorem setSide_comp (r : Requester) (p : PortSide) (s : State) : (setSide r p s).comp = s.comp := by
  cases r <;> rfl

@[simp] theorem setSide_store (r : Requester) (p : PortSide) (s : State) : (setSide r p s).store = s.store := by
  cases r <;> rfl

@[simp] theorem setSide_timeBase (r : Requester) (p : PortSide) (s : State) : (setSide r p s).timeBase = s.timeBase := by
  cases r <;> rfl

@[simp] theorem setSide_config (r : Requester) (p : PortSide) (s : State) : (setSide r p s).config = s.config := by
  cases r <;> rfl

/-- A requester's side once its transfer is to end with a header (R151, R152, R154, R160, R163). -/
def endedSide (f : FetchPort) (r : Requester) (status : BurstStatus) (item : Nat) : PortSide :=
  { sideOf f r with
    transfer := (sideOf f r).transfer.map fun t => { t with inHand := [], asked := 0, rangeAfter := none }
    posted := some ⟨r, status, item, []⟩
    waitStart := none
    phase := postedPhase f r }

@[simp] theorem sideOf_endWith (q r : Requester) (status : BurstStatus) (item : Nat) (s : State) :
    sideOf (endWith r status item s).fetch q = if q = r then endedSide s.fetch r status item else sideOf s.fetch q := by
  unfold endWith
  rw [sideOf_setSide]
  rfl

@[simp] theorem endWith_bus (r : Requester) (status : BurstStatus) (item : Nat) (s : State) :
    (endWith r status item s).fetch.bus = s.fetch.bus := by
  unfold endWith
  rw [setSide_bus]
  rfl

/-! ## What settles leaves a posted burst posted or puts it on the bus -/

/-- The bursts are as before: what is posted and what is on the bus. -/
def postsAs (u t : State) : Prop := t.fetch.bus = u.fetch.bus ∧ ∀ r, (sideOf t.fetch r).posted = (sideOf u.fetch r).posted

theorem postsAs.refl (u : State) : postsAs u u := ⟨rfl, fun _ => rfl⟩

theorem postsAs.trans {u m t : State} : postsAs u m → postsAs m t → postsAs u t := by
  rintro ⟨a, b⟩ ⟨c, d⟩; exact ⟨c.trans a, fun r => (d r).trans (b r)⟩

theorem postsAs.of_fetch {u t : State} (h : t.fetch = u.fetch) : postsAs u t := by
  unfold postsAs; rw [h]; exact ⟨rfl, fun _ => rfl⟩

theorem ingestAsk_fetch (s : State) : (ingestAsk s).fetch = s.fetch := by
  unfold ingestAsk; split
  · rfl
  · split
    · rfl
    · split <;> rfl

theorem engineAsk_fetch (s : State) : (engineAsk s).fetch = s.fetch := by
  unfold engineAsk; split
  · rfl
  · split <;> rfl

theorem selfAsk_fetch (s : State) : (selfAsk s).fetch = s.fetch := by
  unfold selfAsk; split
  · rfl
  · split
    · rfl
    · split <;> rfl

theorem fetchAsk_posts (b : FetchRead) (s : State) : postsAs s (fetchAsk b s) := by
  unfold fetchAsk
  refine ⟨?_, fun r => ?_⟩
  · cases b.requester <;> rfl
  · cases b.requester <;> cases r <;> rfl

theorem fetchAskNext_posts (s : State) : postsAs s (fetchAskNext s) := by
  unfold fetchAskNext
  split
  · exact .refl s
  · split
    · exact fetchAsk_posts ..
    · split
      · exact fetchAsk_posts ..
      · exact .refl s

theorem askAll_posts (s : State) : postsAs s (askAll s) := by
  unfold askAll
  have h1 := postsAs.of_fetch (ingestAsk_fetch s)
  have h2 := postsAs.of_fetch (engineAsk_fetch (ingestAsk s))
  exact ((h1.trans h2).trans (fetchAskNext_posts _)).trans (.of_fetch (selfAsk_fetch _))

theorem grantClient_fetch (c : Client) (s : State) : (grantClient c s).fetch = s.fetch := by
  unfold grantClient; split <;> split <;> rfl

theorem grantWaiting_fetch (s : State) : (grantWaiting s).fetch = s.fetch := by
  unfold grantWaiting; split
  · rfl
  · split
    · exact grantClient_fetch ..
    · rfl

theorem grantArrived_fetch (s : State) : (grantArrived s).fetch = s.fetch := by
  unfold grantArrived; split
  · rfl
  · split
    · rfl
    · exact grantClient_fetch ..
    · split
      · exact grantClient_fetch ..
      · rfl

theorem prepareStrip_fetch (s : State) : (prepareStrip s).fetch = s.fetch := by
  unfold prepareStrip; split
  · split <;> rfl
  · rfl

theorem engineWithdraw_fetch (s : State) : (engineWithdraw s).fetch = s.fetch := by
  unfold engineWithdraw; split
  · split <;> rfl
  · rfl

/-- The bus that takes a posted burst carries it. -/
theorem takeBus_burst {r : Requester} {s : State} {b : ReturnBurst} (h : (sideOf s.fetch r).posted = some b)
    (hr : b.requester = r) : burstOf (takeBus r s).fetch r = some b := by
  cases r <;> rw [takeBus] <;> rw [h] <;> simp [burstOf, onBus, setSide, sideOf, hr]

/-- The bus that takes the other requester's burst leaves this one's posted. -/
theorem takeBus_other {r q : Requester} (s : State) (hq : q ≠ r) :
    (sideOf (takeBus r s).fetch q).posted = (sideOf s.fetch q).posted := by
  unfold takeBus
  dsimp only
  split
  · rfl
  · cases r <;> cases q <;> simp_all [setSide, sideOf]

theorem burstOf_posted {f : FetchPort} {r : Requester} {b : ReturnBurst} (h : (sideOf f r).posted = some b) :
    burstOf f r = some b := by
  unfold burstOf; rw [h]

theorem takeBus_keeps {r q : Requester} {s : State} {b : ReturnBurst} (h : (sideOf s.fetch r).posted = some b)
    (hr : b.requester = r) : burstOf (takeBus q s).fetch r = some b := by
  by_cases hq : r = q
  · subst hq; exact takeBus_burst h hr
  · exact burstOf_posted ((takeBus_other s hq).trans h)

/-- A posted burst is still the requester's burst once the bus has settled. -/
theorem settleBus_burst {r : Requester} {s : State} {b : ReturnBurst} (c : Bool)
    (h : (sideOf s.fetch r).posted = some b) (hr : b.requester = r) : burstOf (settleBus c s).fetch r = some b := by
  unfold settleBus
  split
  · exact burstOf_posted h
  · split
    · exact burstOf_posted h
    · exact takeBus_keeps h hr
    · exact takeBus_keeps h hr
    · split
      · exact takeBus_keeps h hr
      · exact takeBus_keeps (s := { s with freeIndex := s.freeIndex + 1 }) h hr

theorem postsAs.burst {u t : State} (h : postsAs u t) (r : Requester) : burstOf t.fetch r = burstOf u.fetch r := by
  unfold burstOf onBus; rw [h.1, h.2 r]

/-- A posted burst is still the requester's burst once everything has settled. -/
theorem settle_burst {r : Requester} {s : State} {b : ReturnBurst} (c m : Bool)
    (h : (sideOf s.fetch r).posted = some b) (hr : b.requester = r) : burstOf (settle c m s).fetch r = some b := by
  unfold settle
  dsimp only
  have h1 : (engineWithdraw (planReads (prepareStrip s))).fetch = s.fetch := (engineWithdraw_fetch _).trans (prepareStrip_fetch s)
  have tail : ∀ x : State, x.fetch = s.fetch →
      burstOf (askAll (grantArrived (askAll (settleBus c x)))).fetch r = some b := by
    intro x hx
    rw [(askAll_posts _).burst, grantArrived_fetch, (askAll_posts _).burst]
    exact settleBus_burst c (by rw [hx]; exact h) hr
  cases m
  · exact tail _ h1
  · exact tail _ ((grantWaiting_fetch _).trans h1)

/-! ## The canvas discard (R163) -/

/-- A held request once the canvas is discarded: stale if it is for the canvas. -/
def staleHeld (held : Option (FetchReq × Bool)) : Option (FetchReq × Bool) :=
  held.map fun h => (h.1, h.2 || sweepKind h.1.kind)

/-- What the canvas discard leaves at a requester's side. -/
theorem sideOf_discardSide (q r : Requester) (s : State) :
    sideOf (discardSide r s).fetch q =
      if q = r then
        match (sideOf s.fetch r).transfer with
        | none => { sideOf s.fetch r with held := staleHeld (sideOf s.fetch r).held }
        | some t =>
          if sweepKind t.req.kind = true ∧ endingOnBus s.fetch r (t.req.again && (sideOf s.fetch r).held.isNone) = false
          then
            endedSide (setSide r { sideOf s.fetch r with held := staleHeld (sideOf s.fetch r).held } s).fetch r
              .errorNoSweep (nextItem t)
          else { sideOf s.fetch r with held := staleHeld (sideOf s.fetch r).held }
      else sideOf s.fetch q := by
  unfold discardSide staleHeld
  dsimp only
  rcases h : (sideOf s.fetch r).transfer with _ | t <;> simp only [sideOf_setSide]
  by_cases h1 : sweepKind t.req.kind = true
  · by_cases h2 : endingOnBus s.fetch r (t.req.again && (sideOf s.fetch r).held.isNone) = true
    · simp [h1, h2]
    · simp [h1, h2]
      split <;> simp_all
  · simp [h1]

@[simp] theorem discardSide_bus (r : Requester) (s : State) : (discardSide r s).fetch.bus = s.fetch.bus := by
  unfold discardSide
  dsimp only
  split
  · simp
  · split
    · split <;> simp
    · simp

/-! ## A request taken (R150, R151, R154) -/

/-- What settles keeps of a requester's side. -/
theorem settlesTo.side {u t : State} (h : settlesTo u t) (r : Requester) : sideAs (sideOf u.fetch r) (sideOf t.fetch r) := by
  cases r
  · exact h.2.1
  · exact h.2.2.1

/-- What the fetch port's operations alone change is within what `restAs` leaves open. -/
theorem OnlyFetch.rest {s u : State} (h : OnlyFetch s u) : restAs s u := by
  obtain ⟨f, a, rfl⟩ := h; exact ⟨rfl, rfl, rfl, .inl rfl⟩

/-- Serving goes on with the same request on the same line. -/
theorem serveNext_side (r : Requester) (s : State) :
    (sideOf (serveNext r s).fetch r).line = (sideOf s.fetch r).line ∧
      (sideOf (serveNext r s).fetch r).transfer.map Transfer.req = (sideOf s.fetch r).transfer.map Transfer.req := by
  unfold serveNext
  split
  · simp
  · rename_i t ht
    split
    · unfold prepareBurst; split <;> simp [postData, ht]
    · split
      · unfold prepareBurst; split <;> simp [postData, ht]
      · simp [startStall]
      · simp [endedSide, ht]

theorem takeRequest_line (r : Requester) (q : FetchReq) (stale : Bool) (s : State) :
    (sideOf (takeRequest r q stale s).fetch r).line = (sideOf s.fetch r).line := by
  unfold takeRequest
  dsimp only
  split
  · simp [endedSide]
  · rw [(serveNext_side ..).1]; simp

theorem takeRequest_req (r : Requester) (q : FetchReq) (stale : Bool) (s : State) :
    (sideOf (takeRequest r q stale s).fetch r).transfer.map Transfer.req = some q := by
  unfold takeRequest
  dsimp only
  split
  · simp [endedSide]
  · rw [(serveNext_side ..).2]; simp

/-! ## A phase is kept where no burst is posted -/

theorem takeBus_phase (r q : Requester) (s : State) (h : (sideOf s.fetch r).posted = none) :
    (sideOf (takeBus q s).fetch r).phase = (sideOf s.fetch r).phase := by
  unfold takeBus
  dsimp only
  split
  · rfl
  · cases q <;> cases r <;> simp_all [setSide, sideOf]

theorem fetchAsk_phase (b : FetchRead) (r : Requester) (s : State) :
    (sideOf (fetchAsk b s).fetch r).phase = (sideOf s.fetch r).phase := by
  unfold fetchAsk; cases b.requester <;> cases r <;> rfl

theorem askAll_phase (r : Requester) (s : State) : (sideOf (askAll s).fetch r).phase = (sideOf s.fetch r).phase := by
  have ask : ∀ x : State, (sideOf (fetchAskNext x).fetch r).phase = (sideOf x.fetch r).phase := by
    intro x
    unfold fetchAskNext
    split
    · rfl
    · split
      · exact fetchAsk_phase ..
      · split
        · exact fetchAsk_phase ..
        · rfl
  unfold askAll; rw [selfAsk_fetch, ask, engineAsk_fetch, ingestAsk_fetch]

theorem settleBus_phase (c : Bool) (r : Requester) (s : State) (h : (sideOf s.fetch r).posted = none) :
    (sideOf (settleBus c s).fetch r).phase = (sideOf s.fetch r).phase := by
  unfold settleBus
  split
  · rfl
  · split
    · rfl
    · exact takeBus_phase _ _ _ h
    · exact takeBus_phase _ _ _ h
    · split
      · exact takeBus_phase _ _ _ h
      · exact takeBus_phase r _ { s with freeIndex := s.freeIndex + 1 } h

theorem settle_phase (r : Requester) (s : State) (h : (sideOf s.fetch r).posted = none) :
    (sideOf (settle false false s).fetch r).phase = (sideOf s.fetch r).phase := by
  have h1 : (engineWithdraw (planReads (prepareStrip s))).fetch = s.fetch := (engineWithdraw_fetch _).trans (prepareStrip_fetch s)
  simp only [settle]
  rw [askAll_phase, grantArrived_fetch, askAll_phase, settleBus_phase]
  · simp [h1]
  · simp [h1, h]

/-- The test of a stall again: it goes on exactly when the item is still not ready (R159). -/
theorem retestStall_waitStart {s : State} {x : Transfer} {start : Time} (ht : s.fetch.p0.transfer = some x)
    (hw : s.fetch.p0.waitStart = some start) :
    (retestStall s).fetch.p0.waitStart = if testItem s .r0 x = .stall then some start else none := by
  cases h : testItem s .r0 x
  · simp only [retestStall, ht, hw, h]
    split
    · simp [setSide]
    · split
      · simp [setSide]
      · unfold prepareBurst
        split <;> simp [postData, setSide, sideOf]
  · simp [retestStall, ht, hw, h]
  · simp only [retestStall, ht, hw, h]
    split <;> simp [endWith, setSide]

/-- Without a stall of requester 0 there is nothing to test again. -/
theorem retestStall_none {s : State} (h : s.fetch.p0.waitStart = none ∨ s.fetch.p0.transfer = none) :
    retestStall s = s := by
  unfold retestStall
  rcases h with h | h <;> simp [h]

end Sys2Proof.Machine
end

