-- ==== Sys2Proof/Laws/Discard.lean ====
section
/-! SUPPORT. The canvas discard (R163) once everything has settled, and the length of a strip record. -/

namespace Sys2Proof.Machine

/-! ## The length of a strip record (R124, 10.5) -/

theorem natBytes_length (n v : Nat) : (natBytes n v).length = n := by simp [natBytes]

theorem stripBytes_length (r : StripRecord) : (stripBytes r).length = 64 := by
  have eight (n : Nat) (f : Nat → List Byte) (h : ∀ k, (f k).length = n) :
      ((List.range 8).flatMap f).length = 8 * n := by
    simp only [List.length_flatMap, h, List.map_const', List.sum_replicate, List.length_range, smul_eq_mul]
  have shifts := eight 1 (fun k => signedField 1 (r.shifts.getD k 0)) fun _ => natBytes_length ..
  have seams := eight 2 (fun k => unsignedField 2 ((r.seams.getD k none).getD 0)) fun _ => natBytes_length ..
  unfold stripBytes
  simp only [List.length_append, shifts, seams, natBytes_length]
  simp only [timeField, optSigned, signedField, natBytes_length, List.length_replicate, List.length_singleton]

/-! ## A requester that asks the memory for nothing -/

/-- The requester has no memory request waiting and prepares no burst. -/
def quiet (r : Requester) (s : State) : Prop :=
  (∀ b, s.arb.fetchWait = some b → b.requester ≠ r) ∧
    ((sideOf s.fetch r).posted.isSome ∨ (sideOf s.fetch r).phase ≠ .preparing)

theorem quiet.of_same {r : Requester} {s t : State} (h : quiet r s) (hw : t.arb.fetchWait = s.arb.fetchWait)
    (hf : t.fetch = s.fetch) : quiet r t := by
  unfold quiet; rw [hw, hf]; exact h

theorem quiet.wants {r : Requester} {s : State} (h : quiet r s) : fetchWants s r = none := by
  unfold fetchWants
  dsimp only
  rcases h.2 with h | h
  · cases (sideOf s.fetch r).transfer <;> simp_all [Option.isSome_iff_ne_none]
  · cases (sideOf s.fetch r).transfer <;> simp_all

theorem fetchWants_requester {r : Requester} {s : State} {b : FetchRead} (h : fetchWants s r = some b) :
    b.requester = r := by
  unfold fetchWants at h
  dsimp only at h
  split at h
  · cases h
  · split at h <;> cases h; rfl

theorem fetchAsk_quiet {r : Requester} {s : State} {b : FetchRead} (h : quiet r s) (hb : b.requester ≠ r) :
    quiet r (fetchAsk b s) := by
  refine ⟨fun c hc => ?_, ?_⟩
  · have : c = b := by cases e : b.requester <;> simp_all [fetchAsk]
    exact this ▸ hb
  · rw [fetchAsk_phase, (fetchAsk_posts b s).2 r]; exact h.2

theorem fetchAskNext_quiet {r : Requester} {s : State} (h : quiet r s) : quiet r (fetchAskNext s) := by
  have ask (q : Requester) (b : FetchRead) (hb : fetchWants s q = some b) : quiet r (fetchAsk b s) :=
    fetchAsk_quiet h fun e => by
      rw [fetchWants_requester hb] at e; rw [e, h.wants] at hb; cases hb
  unfold fetchAskNext
  split
  · exact h
  · split
    · exact ask _ _ ‹_›
    · split
      · exact ask _ _ ‹_›
      · exact h

theorem ingestAsk_fetchWait (s : State) : (ingestAsk s).arb.fetchWait = s.arb.fetchWait := by
  unfold ingestAsk; repeat' split
  all_goals rfl

theorem engineAsk_fetchWait (s : State) : (engineAsk s).arb.fetchWait = s.arb.fetchWait := by
  unfold engineAsk; repeat' split
  all_goals rfl

theorem selfAsk_fetchWait (s : State) : (selfAsk s).arb.fetchWait = s.arb.fetchWait := by
  unfold selfAsk; repeat' split
  all_goals rfl

theorem askAll_quiet {r : Requester} {s : State} (h : quiet r s) : quiet r (askAll s) :=
  (fetchAskNext_quiet
    ((h.of_same (ingestAsk_fetchWait s) (ingestAsk_fetch s)).of_same (engineAsk_fetchWait _) (engineAsk_fetch _))).of_same
      (selfAsk_fetchWait _) (selfAsk_fetch _)

theorem grantClient_quiet {r : Requester} {s : State} (c : Client) (h : quiet r s) : quiet r (grantClient c s) := by
  refine ⟨fun b hb => h.1 b ?_, by rw [grantClient_fetch]; exact h.2⟩
  cases c <;> unfold grantClient at hb <;> dsimp only at hb <;> split at hb <;> simp_all

theorem grantArrived_quiet {r : Requester} {s : State} (h : quiet r s) : quiet r (grantArrived s) := by
  unfold grantArrived
  split
  · exact h
  · split
    · exact h
    · exact grantClient_quiet _ h
    · split
      · exact grantClient_quiet _ (h.of_same (t := { s with freeIndex := s.freeIndex + 2 }) rfl rfl)
      · exact h

theorem takeBus_quiet {r : Requester} {s : State} (q : Requester) (h : quiet r s) : quiet r (takeBus q s) := by
  unfold takeBus
  dsimp only
  split
  · exact h
  · refine ⟨fun b hb => h.1 b (by simpa using hb), ?_⟩
    by_cases e : r = q
    · subst e; cases r <;> exact .inr (by simp [setSide, sideOf])
    · have := h.2
      cases r <;> cases q <;> simp_all [setSide, sideOf]

theorem settleBus_quiet {r : Requester} {s : State} (c : Bool) (h : quiet r s) : quiet r (settleBus c s) := by
  unfold settleBus
  split
  · exact h
  · split
    · exact h
    · exact takeBus_quiet _ h
    · exact takeBus_quiet _ h
    · split
      · exact takeBus_quiet _ h
      · exact takeBus_quiet _ (h.of_same (t := { s with freeIndex := s.freeIndex + 1 }) rfl rfl)

theorem prepareStrip_fetchWait (s : State) : (prepareStrip s).arb.fetchWait = s.arb.fetchWait := by
  unfold prepareStrip; repeat' split
  all_goals rfl

theorem engineWithdraw_fetchWait (s : State) : (engineWithdraw s).arb.fetchWait = s.arb.fetchWait := by
  unfold engineWithdraw; repeat' split
  all_goals rfl

/-- A requester that asks the memory for nothing asks for nothing when everything has settled. -/
theorem settle_quiet {r : Requester} {s : State} (h : quiet r s) : quiet r (settle false false s) :=
  askAll_quiet (grantArrived_quiet (askAll_quiet (settleBus_quiet false
    (h.of_same ((engineWithdraw_fetchWait _).trans (prepareStrip_fetchWait s))
      ((engineWithdraw_fetch _).trans (prepareStrip_fetch s))))))

/-! ## The discard (R163) -/

/-- What the discard leaves at a side depends on that side and the bus alone. -/
theorem discardSide_congr {r : Requester} {s t : State} (h : sideOf t.fetch r = sideOf s.fetch r)
    (hb : t.fetch.bus = s.fetch.bus) : sideOf (discardSide r t).fetch r = sideOf (discardSide r s).fetch r := by
  simp only [sideOf_discardSide, if_true, h, endingOnBus, endedSide, postedPhase, onBus, setSide_bus, sideOf_setSide, hb]

/-- The discard at both sides leaves at each what it leaves at that side alone. -/
theorem sideOf_discardFetch (r : Requester) (s : State) :
    sideOf (discardFetch s).fetch r = sideOf (discardSide r s).fetch r := by
  unfold discardFetch
  cases r
  · rw [sideOf_discardSide]; rfl
  · refine discardSide_congr ?_ (discardSide_bus ..)
    rw [sideOf_discardSide]; rfl

/-- A canvas transfer that ends by the discard has its memory requests withdrawn. -/
theorem discardSide_arb_ended {r : Requester} {s : State} {x : Transfer} (h : (sideOf s.fetch r).transfer = some x)
    (hk : sweepKind x.req.kind = true)
    (he : endingOnBus s.fetch r (x.req.again && (sideOf s.fetch r).held.isNone) = false) :
    (discardSide r s).arb = (dropFetch r s).arb := by
  simp [discardSide, h, hk, he, endWith, dropFetch]

/-- The discard leaves the arbiter alone or withdraws the requester's memory requests. -/
theorem discardSide_arb (r : Requester) (s : State) :
    (discardSide r s).arb = s.arb ∨ (discardSide r s).arb = (dropFetch r s).arb := by
  unfold discardSide
  dsimp only
  repeat' split
  all_goals simp [endWith, dropFetch]

/-- A requester's memory requests are withdrawn: none waits, and its burst in progress is dropped (R146). -/
def withdrawn (r : Requester) (s : State) (a : Arbiter) : Prop :=
  (∀ b, a.fetchWait = some b → b.requester ≠ r) ∧
    ∀ b data live, s.arb.inProgress = some (.fetch b data live) → b.requester = r →
      a.inProgress = some (.fetch b data false)

theorem dropFetch_withdrawn (r : Requester) (s : State) : withdrawn r s (dropFetch r s).arb := by
  refine ⟨fun b hb => ?_, fun b data live h e => by simp [dropFetch, h, e]⟩
  simp only [dropFetch] at hb
  split at hb
  · split at hb <;> simp_all
  · cases hb

theorem withdrawn.drop {r q : Requester} {s u : State} (h : withdrawn r s u.arb) : withdrawn r s (dropFetch q u).arb := by
  refine ⟨fun b hb => h.1 b ?_, fun b data live hp e => by simp [dropFetch, h.2 b data live hp e]⟩
  simp only [dropFetch] at hb
  split at hb
  · split at hb <;> simp_all
  · cases hb

theorem withdrawn.from {r q : Requester} {s : State} {a : Arbiter} (h : withdrawn r (dropFetch q s) a) :
    withdrawn r s a := by
  refine ⟨h.1, fun b data live hp e => ?_⟩
  exact h.2 b data (live && decide (b.requester ≠ q)) (by simp [dropFetch, hp]) e

/-- A canvas transfer that ends by the discard has no memory request left after the discard at both sides. -/
theorem discardFetch_withdrawn {r : Requester} {s : State} {x : Transfer} (h : (sideOf s.fetch r).transfer = some x)
    (hk : sweepKind x.req.kind = true)
    (he : endingOnBus s.fetch r (x.req.again && (sideOf s.fetch r).held.isNone) = false) :
    withdrawn r s (discardFetch s).arb := by
  unfold discardFetch
  cases r
  · have h0 : withdrawn .r0 s (discardSide .r0 s).arb := by
      rw [discardSide_arb_ended h hk he]; exact dropFetch_withdrawn ..
    rcases discardSide_arb .r1 (discardSide .r0 s) with e | e <;> rw [e]
    · exact h0
    · exact h0.drop
  · have side : sideOf (discardSide .r0 s).fetch .r1 = sideOf s.fetch .r1 := by rw [sideOf_discardSide]; rfl
    have h1 := discardSide_arb_ended (s := discardSide .r0 s) (r := .r1) (x := x) (by rw [side]; exact h) hk (by
      rw [side]; simpa only [endingOnBus, discardSide_bus] using he)
    rw [h1]
    have h2 := dropFetch_withdrawn .r1 (discardSide .r0 s)
    rcases discardSide_arb .r0 s with e | e
    · exact ⟨h2.1, fun b data live hp => h2.2 b data live (by rw [e]; exact hp)⟩
    · refine withdrawn.from (q := .r0) ⟨h2.1, fun b data live hp => h2.2 b data live (by rw [e]; exact hp)⟩

theorem settleBus_posts (c : Bool) {s : State} {r : Requester} (h : s.fetch.bus.isSome ∨ (sideOf s.fetch r).posted = none) :
    (sideOf (settleBus c s).fetch r).posted = (sideOf s.fetch r).posted := by
  have take (q : Requester) (v : State) (hv : v.fetch = s.fetch) (hp : (sideOf s.fetch r).posted = none) :
      (sideOf (takeBus q v).fetch r).posted = (sideOf s.fetch r).posted := by
    by_cases e : r = q
    · subst e; rw [takeBus, hv, hp]; exact (congrArg (fun f => (sideOf f r).posted) hv).trans hp
    · rw [takeBus_other v e, hv]
  unfold settleBus
  split
  · rfl
  · have hp : (sideOf s.fetch r).posted = none := h.resolve_left ‹_›
    split
    · rfl
    · exact take _ _ rfl hp
    · exact take _ _ rfl hp
    · split
      · exact take _ _ rfl hp
      · exact take _ { s with freeIndex := s.freeIndex + 1 } rfl hp

/-- With a burst on the bus, or nothing posted, what settles leaves what is posted as it is. -/
theorem settle_posts {s : State} {r : Requester} (h : s.fetch.bus.isSome ∨ (sideOf s.fetch r).posted = none) :
    (sideOf (settle false false s).fetch r).posted = (sideOf s.fetch r).posted := by
  have h1 : (engineWithdraw (planReads (prepareStrip s))).fetch = s.fetch :=
    (engineWithdraw_fetch _).trans (prepareStrip_fetch s)
  have step : (sideOf (settleBus false (engineWithdraw (planReads (prepareStrip s)))).fetch r).posted =
      (sideOf s.fetch r).posted := by
    rw [settleBus_posts false (by rw [h1]; exact h), h1]
  change (sideOf (askAll (grantArrived (askAll (settleBus false _)))).fetch r).posted = _
  rw [(askAll_posts _).2, grantArrived_fetch, (askAll_posts _).2]
  exact step

/-- What a canvas discard leaves once everything has settled (R163). -/
theorem settle_discardFetch (s : State) : canvasDiscarded s (settle false false (discardFetch s)) := by
  have hs := settle_settlesTo false false (discardFetch s)
  have bus : (discardFetch s).fetch.bus = s.fetch.bus := by simp [discardFetch]
  refine ⟨fun h => (hs.2.2.2.1 (by rw [bus]; exact h)).trans bus, fun r => ?_⟩
  obtain ⟨req, held, wait, -, line⟩ := hs.side r
  have posts := settle_posts (s := discardFetch s) (r := r)
  have burst (b : ReturnBurst) := settle_burst (r := r) (s := discardFetch s) (b := b) false false
  rw [bus] at posts
  rw [sideOf_discardFetch, sideOf_discardSide, if_pos rfl] at req held wait line posts burst
  unfold discardedAt
  rw [req, held, wait, line]
  cases hx : (sideOf s.fetch r).transfer with
  | none => exact ⟨rfl, rfl, fun _ h => by cases h⟩
  | some x =>
    rw [hx] at posts burst
    dsimp only at posts burst ⊢
    by_cases c : sweepKind x.req.kind = true ∧
        endingOnBus s.fetch r (x.req.again && (sideOf s.fetch r).held.isNone) = false
    · rw [if_pos c] at posts burst ⊢
      have w := discardFetch_withdrawn hx c.1 c.2
      have q : quiet r (discardFetch s) := ⟨w.1, .inl (by
        rw [sideOf_discardFetch, sideOf_discardSide, if_pos rfl, hx]; dsimp only; rw [if_pos c]; rfl)⟩
      refine ⟨by simp [endedSide, staleHeld], by simp [endedSide], ?_⟩
      rintro y ⟨⟩
      refine ⟨by simp [endedSide, hx], fun _ _ => ⟨burst _ rfl rfl, rfl, (settle_quiet q).1, ?_⟩, ?_, ?_⟩
      · intro b data live hp e
        have := w.2 b data live hp e
        exact (hs.2.2.2.2 (by rw [this]; rfl)).trans this
      · intro _ h; rw [c.2] at h; cases h
      · intro h; rw [c.1] at h; cases h
    · rw [if_neg c] at posts burst ⊢
      refine ⟨by simp [staleHeld], rfl, ?_⟩
      rintro y ⟨⟩
      refine ⟨by simp [hx], fun h1 h2 => absurd ⟨h1, h2⟩ c, fun _ h => posts (.inl ?_), fun _ => ⟨rfl, fun h => ?_, fun b hb e => ?_⟩⟩
      · unfold endingOnBus at h; cases hb : s.fetch.bus <;> simp_all
      · exact (posts (.inr h)).trans h
      · exact burst b hb e

end Sys2Proof.Machine
end

