-- ==== Sys2Proof/Laws/Pool.lean ====
section
/-! SUPPORT. The slot pool and the accounting law, operation by operation: what each does to the number of occupied
slots, to the sum of the fates and to the slots in a state. -/

namespace Sys2Proof.Machine

/-! ## Occupied slots -/

theorem occupiedSlots_nil : occupiedSlots [] = 0 := rfl

theorem occupiedSlots_cons (slot : Slot) (slots : List Slot) :
    occupiedSlots (slot :: slots) = (if slot.state = .free then 0 else 1) + occupiedSlots slots := by
  unfold occupiedSlots occupied
  by_cases h : slot.state = .free <;> simp [h, Nat.add_comm]

/-- Every slot FREE: none is occupied. -/
theorem occupiedSlots_discarded (slots : List Slot) :
    occupiedSlots (slots.map fun slot => { slot with state := .free }) = 0 := by
  induction slots with
  | nil => rfl
  | cons a as ih => rw [List.map_cons, occupiedSlots_cons, ih]; simp

/-- Freeing an occupied slot leaves one fewer. -/
theorem occupiedSlots_freed : ∀ (slots : List Slot) (i : Nat), slotState slots i ≠ .free →
    occupiedSlots (slots.modify i fun slot => { slot with state := .free }) + 1 = occupiedSlots slots
  | [], i, h => by simp [slotState] at h
  | a :: as, 0, h => by
    have h : a.state ≠ .free := by simpa [slotState] using h
    simp [occupiedSlots_cons, h, Nat.add_comm]
  | a :: as, i + 1, h => by
    have := occupiedSlots_freed as i (by simpa [slotState] using h)
    simp only [List.modify_succ_cons, occupiedSlots_cons]
    omega

/-- Filling a FREE slot leaves one more. -/
theorem occupiedSlots_filled (new : Slot) (hn : new.state ≠ .free) : ∀ (slots : List Slot) (i : Nat), i < slots.length →
    slotState slots i = .free → occupiedSlots (slots.modify i fun _ => new) = occupiedSlots slots + 1
  | [], i, h, _ => by simp at h
  | a :: as, 0, _, h => by
    have h : a.state = .free := by simpa [slotState] using h
    simp [occupiedSlots_cons, h, hn, Nat.add_comm]
  | a :: as, i + 1, hl, h => by
    have := occupiedSlots_filled new hn as i (by simpa using hl) (by simpa [slotState] using h)
    simp only [List.modify_succ_cons, occupiedSlots_cons]
    omega

/-- A change of slots that keeps each one's being FREE keeps their number. -/
theorem occupiedSlots_modify (f : Slot → Slot) (hf : ∀ slot, (f slot).state = .free ↔ slot.state = .free) :
    ∀ (slots : List Slot) (i : Nat), occupiedSlots (slots.modify i f) = occupiedSlots slots
  | [], i => by cases i <;> rfl
  | a :: as, 0 => by
    simp only [List.modify_zero_cons, occupiedSlots_cons]
    by_cases h : a.state = .free
    · rw [if_pos h, if_pos ((hf a).mpr h)]
    · rw [if_neg h, if_neg fun k => h ((hf a).mp k)]
  | a :: as, i + 1 => by
    simp only [List.modify_succ_cons, occupiedSlots_cons, occupiedSlots_modify f hf as i]

/-- An occupied slot that passes to another occupied state stays counted (R54). -/
theorem occupiedSlots_moveSlot (slots : List Slot) (i : Nat) (st : SlotState) (h : st ≠ .free) :
    occupiedSlots (moveSlot slots i st) = occupiedSlots slots := by
  refine occupiedSlots_modify _ (fun slot => ?_) slots i
  by_cases ho : slot.state = .free <;> simp [occupied, ho, h]

theorem occupiedSlots_countLine (l : BufferedLine) (slots : List Slot) :
    occupiedSlots (countLine l slots) = occupiedSlots slots := by
  refine occupiedSlots_modify _ (fun slot => ?_) slots l.slot
  split <;> rfl

/-! ## The sum of the fates -/

/-- A fate counted below the end of its range adds one to the sum. -/
theorem countedFrames_countFate (fate : Fate) (c : Counters) (h : countedFrames c < 4294967295) :
    countedFrames (countFate fate c) = countedFrames c + 1 := by
  unfold countedFrames at *
  cases fate <;> simp only [countFate, holdCount] <;> omega

@[simp] theorem countFate_received (fate : Fate) (c : Counters) : (countFate fate c).received = c.received := by
  cases fate <;> rfl

/-- Both sides of the accounting law (R21). -/
def accounts (s : State) : Nat × Nat :=
  (s.sweep.counters.received, countedFrames s.sweep.counters + occupiedSlots s.ingest.slots)

theorem accounted_iff (s : State) : accounted s ↔ (accounts s).1 = (accounts s).2 := Iff.rfl

/-- A slot made FREE moves its frame from the slots to its fate (R54, R62). -/
theorem accounts_freeSlot (i : Nat) (fate : Fate) (s : State)
    (h : slotState s.ingest.slots i ≠ .free → countedFrames s.sweep.counters < 4294967295) :
    accounts (freeSlot i fate s) = accounts s := by
  unfold freeSlot
  split
  · rfl
  · rename_i ho
    have a := occupiedSlots_freed s.ingest.slots i ho
    have b := countedFrames_countFate fate s.sweep.counters (h ho)
    unfold accounts
    simp only [countFate_received, Prod.mk.injEq, true_and]
    omega

/-- A discard moves every frame in a slot to discarded (R14, R17). -/
theorem accounts_discardSlots (s : State)
    (h : countedFrames s.sweep.counters + occupiedSlots s.ingest.slots ≤ 4294967295) :
    accounts (discardSlots s) = accounts s := by
  have a := occupiedSlots_discarded s.ingest.slots
  unfold accounts discardSlots dropAllLines freeLines
  simp only [a, Prod.mk.injEq, true_and, Nat.add_zero]
  unfold countedFrames holdCount at *
  dsimp only
  omega

/-! ## Slots in a state -/

theorem slotsIn_cons (slot : Slot) (slots : List Slot) (st : SlotState) :
    slotsIn (slot :: slots) st = (if slot.state = st then 1 else 0) + slotsIn slots st := by
  unfold slotsIn
  by_cases h : slot.state = st <;> simp [h, Nat.add_comm]

/-- A slot that does not enter a state adds none to it. -/
theorem slotsIn_modify_le (st : SlotState) (f : Slot → Slot) (hf : ∀ slot, (f slot).state = st → slot.state = st) :
    ∀ (slots : List Slot) (i : Nat), slotsIn (slots.modify i f) st ≤ slotsIn slots st
  | [], i => by cases i <;> simp
  | a :: as, 0 => by
    simp only [List.modify_zero_cons, slotsIn_cons]
    by_cases h : (f a).state = st
    · rw [if_pos h, if_pos (hf a h)]
    · rw [if_neg h]; omega
  | a :: as, i + 1 => by
    have := slotsIn_modify_le st f hf as i
    simp only [List.modify_succ_cons, slotsIn_cons]
    omega

/-- One slot changed adds at most one to a state. -/
theorem slotsIn_modify_succ (st : SlotState) (f : Slot → Slot) :
    ∀ (slots : List Slot) (i : Nat), slotsIn (slots.modify i f) st ≤ slotsIn slots st + 1
  | [], i => by cases i <;> simp
  | a :: as, 0 => by
    simp only [List.modify_zero_cons, slotsIn_cons]
    split <;> omega
  | a :: as, i + 1 => by
    have := slotsIn_modify_succ st f as i
    simp only [List.modify_succ_cons, slotsIn_cons]
    omega

/-- No slot is in a state: none is counted in it. -/
theorem slotsIn_anySlot (slots : List Slot) (st : SlotState) (h : anySlot slots st = false) : slotsIn slots st = 0 := by
  unfold slotsIn anySlot at *
  simpa using h

theorem slotState_modify (f : Slot → Slot) (slots : List Slot) (i j : Nat) :
    slotState (slots.modify i f) j =
      if i = j then
        match slots[j]? with
        | some slot => (f slot).state
        | none => .free
      else slotState slots j := by
  unfold slotState
  rw [List.getElem?_modify]
  by_cases h : i = j
  · subst h; cases slots[i]? <;> simp
  · cases slots[j]? <;> simp [h]

theorem slotState_modify_ne (f : Slot → Slot) (slots : List Slot) {i j : Nat} (h : i ≠ j) :
    slotState (slots.modify i f) j = slotState slots j := by
  rw [slotState_modify, if_neg h]

theorem slotState_discarded (slots : List Slot) (j : Nat) :
    slotState (slots.map fun slot => { slot with state := .free }) j = .free := by
  unfold slotState
  rw [List.getElem?_map]
  cases slots[j]? <;> rfl

/-! ## The drain-completion test outside DRAINING -/

/-- Nothing drains outside DRAINING (R15). -/
theorem drainTest_of_ne (s : State) (h : s.sweep.state ≠ .draining) : drainTest s = s := by
  unfold drainTest drained
  simp [h]

/-- The engine takes nothing from an empty queue (R66). -/
theorem engineGo_of_nil (n : Nat) (s : State) (h : s.ingest.queue = []) : engineGo n s = s := by
  cases n with
  | zero => rfl
  | succ n => unfold engineGo; rw [h]; split <;> rfl

/-- The engine takes nothing while it has a frame (R66). -/
theorem engineGo_of_engaged (n : Nat) (s : State) (h : anySlot s.ingest.slots .engaged = true) : engineGo n s = s := by
  cases n with
  | zero => rfl
  | succ n => unfold engineGo canTake; rw [h]; simp

end Sys2Proof.Machine
end

