-- ==== Sys2Proof/Laws/Drain.lean ====
section
/-! SUPPORT. The entry to DONE said once, and what the drain-completion test brings at once. -/

namespace Sys2Proof.Machine

/-! ## Slots all in other states, or all but one FREE -/

theorem anySlot_of_all {slots : List Slot} {st : SlotState} (h : ∀ slot ∈ slots, slot.state ≠ st) : anySlot slots st = false := by
  unfold anySlot; simpa using h

theorem slotState_mem {slots : List Slot} {i : Nat} (h : i < slots.length) : slotState slots i = (slots[i]).state := by
  unfold slotState; rw [List.getElem?_eq_getElem h]

theorem all_of_slotState {slots : List Slot} {P : SlotState → Prop} (h : ∀ j, P (slotState slots j)) : ∀ slot ∈ slots, P slot.state := by
  intro slot hm
  obtain ⟨j, hj, rfl⟩ := List.getElem_of_mem hm
  have := h j; rwa [slotState_mem hj] at this

theorem firstSlot_of_all {slots : List Slot} {st : SlotState} (h : ∀ slot ∈ slots, slot.state ≠ st) : firstSlot slots st = none := by
  unfold firstSlot; rw [List.findIdx?_eq_none_iff]; intro x hx; simpa using h x hx

theorem firstSlot_of_only {slots : List Slot} {i : Nat} (hl : i < slots.length)
    (h : ∀ j, slotState slots j = if j = i then .held else .free) : firstSlot slots .held = some i := by
  unfold firstSlot
  rw [List.findIdx?_eq_some_iff_getElem]
  refine ⟨hl, ?_, ?_⟩
  · have := h i; rw [slotState_mem hl] at this; simpa using this
  · intro j hj
    have := h j; rw [slotState_mem (by omega)] at this
    rw [if_neg (by omega)] at this
    simp [this]

/-! ## The entry to DONE and the drain-completion test -/

/-- What the entry to DONE leaves (R16, R45, R65, R85, R123, R129): outside the fetch port and the arbiter every field is given. -/
theorem enterDone_eq (s : State) : ∃ f a, enterDone s = { s with
    sweep := { s.sweep with state := .done, limitRunning := false }
    motion := stopMotion s.motion
    ingest := { s.ingest with lines := [] }
    place := { s.place with state := .ready, work := none, saved := none }
    reg := { s.reg with state := .idle, openingHarvest := false }
    comp := { s.comp with
      state := .closing, settled := s.comp.front, job := none, waiting := none, pendingReanchor := none, halted := false
      todo := previewUnits s.sweepCfg s.store (closingColumns s.sweepCfg s.store) }
    fetch := f, arb := a } := by
  unfold enterDone
  obtain ⟨f, a, h⟩ := retestStall_only _
  refine ⟨f, a, ?_⟩
  rw [h]
  unfold freeLines engineHalt
  by_cases hc : inCompositing s.comp = true <;> simp [hc, dropEngine]

/-- The drain-completion test in DRAINING brings what R15 says at once: DONE with nothing left, or the hand-over of the
HELD slot. -/
theorem drainsAtOnce_of_settlesTo {u t : State} (hd : u.sweep.state = .draining) (ht : settlesTo (drainTest u) t) :
    drainsAtOnce u t := by
  constructor
  · intro hq hf
    have e : drainTest u = enterDone u := by
      unfold drainTest drained
      rw [anySlot_of_all (fun s hs => by rw [hf s hs]; decide), anySlot_of_all (fun s hs => by rw [hf s hs]; decide),
        firstSlot_of_all (fun s hs => by rw [hf s hs]; decide)]
      simp [hd, hq]
    rw [e] at ht
    obtain ⟨⟨h1, h2, h3, h4⟩, -⟩ := ht
    obtain ⟨f, a, h⟩ := enterDone_eq u
    rw [h] at h1 h2
    have hl : t.ingest.lines = [] := by simpa using h2
    rw [hl] at h1
    rw [h1]
    simp [stopMotion]
  · intro i saved hq hj hi hs hc
    have e : drainTest u = drainHandOver i u := by
      unfold drainTest drained
      rw [anySlot_of_all (all_of_slotState (P := (· ≠ .filling)) fun j => by rw [hj]; split <;> decide),
        anySlot_of_all (all_of_slotState (P := (· ≠ .engaged)) fun j => by rw [hj]; split <;> decide), firstSlot_of_only hi hj]
      simp [hd, hq]
    rw [e] at ht
    obtain ⟨⟨h1, h2, h3, h4⟩, -⟩ := ht
    unfold drainHandOver handStrip0 at h1 h3
    simp only [firstSlot_of_only hi hj, hs, hc, if_neg (by decide : ¬(CompState.ready = .updating)), beginStrip] at h1 h3
    have hst : slotState t.ingest.slots i = .engaged := by
      rw [h1]; dsimp only
      unfold moveSlot; rw [slotState_modify, if_pos rfl]
      have := hj i; rw [if_pos rfl] at this; unfold slotState at this
      cases h : u.ingest.slots[i]? with
      | none => rw [h] at this; cases this
      | some sl => rw [h] at this; simp at this; simp [occupied, this]
    refine ⟨hst, by rw [h1], by rw [h1], ?_, by rw [h1], by rw [h1], by rw [h1], by rw [h1], by rw [h1]⟩
    cases hjob : t.comp.job with
    | none => rw [hjob] at h3; cases h3
    | some j =>
      rw [hjob] at h3
      simp only [Option.map_some, Option.some.injEq, jobPlacement, strip0Job] at h3 ⊢
      injection h3 with a b c d e f
      simp [a, b, e, f]
end Sys2Proof.Machine
end

