-- ==== Sys2Proof/Laws/SelfTests.lean ====
section
/-! SUPPORT. What tests 3 to 6 of self-test find: a sound unit passes, a faulty one fails, so the verdict is the number
of the test whose unit is faulty. -/

namespace Sys2Proof.Machine

/-- Compared with what its own rules give, a unit differs exactly when it is faulty. -/
@[simp] theorem testDiffers_self {α : Type} [DecidableEq α] (faulty : Bool) (right : α) :
    testDiffers faulty right right = faulty := by
  cases faulty <;> simp [testDiffers, unitGives]

theorem all_flags_set (n : Nat) : ((List.range n).all fun i => flagSet (List.range n) i == true) = true := by
  simp [flagSet]

theorem all_flags_clear (n : Nat) : ((List.range n).all fun i => flagSet [] i == false) = true := by
  simp [flagSet]

@[simp] theorem flagsRead_setAllFlags (store : CanvasStore) : flagsRead true (setAllFlags store) = true := by
  simp only [flagsRead, setAllFlags, all_flags_set, Bool.and_true]

@[simp] theorem flagsRead_clearAllFlags (store : CanvasStore) : flagsRead false (clearAllFlags store) = true := by
  simp only [flagsRead, clearAllFlags, all_flags_clear, Bool.and_true]

@[simp] theorem flagTestFails_eq (faulty : Bool) (store : CanvasStore) : flagTestFails faulty store = faulty := by
  simp only [flagTestFails, flagsRead_setAllFlags, flagsRead_clearAllFlags, testDiffers_self]

/-- A test of 3 to 6 fails exactly when its unit is faulty. -/
theorem unitTestFails_eq (faulty : Bool) (store : CanvasStore) (n : Nat) (h : 3 ≤ n ∧ n ≤ 6) :
    unitTestFails faulty store n = faulty := by
  obtain rfl | rfl | rfl | rfl : n = 3 ∨ n = 4 ∨ n = 5 ∨ n = 6 := by omega
  all_goals simp only [unitTestFails, flagTestFails_eq, testDiffers_self]

/-- The verdict of tests 3 to 6: the test whose unit is faulty, or 0. -/
theorem unitVerdict_eq (fault : Nat) (store : CanvasStore) :
    unitVerdict fault store = if 3 ≤ fault ∧ fault ≤ 6 then fault else 0 := by
  have h3 := unitTestFails_eq (decide (fault = 3)) store 3 (by decide)
  have h4 := unitTestFails_eq (decide (fault = 4)) store 4 (by decide)
  have h5 := unitTestFails_eq (decide (fault = 5)) store 5 (by decide)
  have h6 := unitTestFails_eq (decide (fault = 6)) store 6 (by decide)
  simp only [unitVerdict, List.find?_cons, List.find?_nil, h3, h4, h5, h6]
  by_cases e3 : fault = 3
  · simp [e3]
  by_cases e4 : fault = 4
  · simp [e4]
  by_cases e5 : fault = 5
  · simp [e5]
  by_cases e6 : fault = 6
  · simp [e6]
  simp only [e3, e4, e5, e6, decide_false]
  rw [if_neg (by omega)]

end Sys2Proof.Machine
end

