-- ==== Sys2Proof/Laws/Strips.lean ====
section
/-! SUPPORT. What a strip's candidates, its pixels and the choice of a patch are, said once each. -/

namespace Sys2Proof.Machine

/-- The seam candidates of a band are the multiples of 4 between the two ends (R111). -/
theorem mem_seamCandidates (cfg : Configuration) (front edge c : Int) :
    c ∈ seamCandidates cfg front edge ↔
      c % 4 = 0 ∧ edge + (cfg.blend / 2 : Nat) ≤ c ∧ front - cfg.seamReach ≤ c ∧ c ≤ front - (cfg.blend / 2 : Nat) := by
  unfold seamCandidates seamLow seamHigh upToFour
  dsimp only
  set low := max (edge + (cfg.blend / 2 : Nat)) (front - cfg.seamReach) with hlow
  split
  · simp only [List.mem_map, List.mem_range]
    constructor
    · rintro ⟨i, hi, rfl⟩; omega
    · rintro ⟨h1, h2, h3, h4⟩
      exact ⟨((c - (low + -low % 4)) / 4).toNat, by omega, by omega⟩
  · simp only [List.not_mem_nil, false_iff]
    omega

/-- They rise strictly (R111). -/
theorem seamCandidates_pairwise (cfg : Configuration) (front edge : Int) :
    (seamCandidates cfg front edge).Pairwise (· < ·) := by
  unfold seamCandidates
  dsimp only
  split
  · rw [List.pairwise_map]
    exact List.pairwise_lt_range.imp (by intros; omega)
  · exact .nil

/-- A row of band k is in band k (R69). -/
theorem bandOfRow_of_row (cfg : Configuration) {k row : Nat} (h : k * bandRows cfg ≤ row)
    (h' : row < (k + 1) * bandRows cfg) : bandOfRow cfg row = k :=
  Nat.div_eq_of_lt_le (by linarith) (by linarith)

/-- The eight bands (R69). -/
theorem mem_bands (k : Nat) : k ∈ bands ↔ k < 8 := by
  simp only [bands, List.mem_cons, List.not_mem_nil, or_false]; omega

/-- What a strip has to write (R115): every row of every column from a band's first written column up to the new front. -/
theorem mem_stripUnits (cfg : Configuration) (store : CanvasStore) (dir : Direction) (front clean : Int) (job : StripJob)
    (seams : List (Option Int)) (u : WriteUnit) :
    u ∈ stripUnits cfg store dir front clean job seams ↔
      ∃ (k row : Nat) (x : Int), k < 8 ∧ writeStart cfg front job seams k ≤ x ∧ x < job.newFront ∧
        k * bandRows cfg ≤ row ∧ row < (k + 1) * bandRows cfg ∧
        u = ⟨cellAddress cfg (storedColumn cfg x) row, (stripPixel cfg store dir clean job seams k x row).1,
          (stripPixel cfg store dir clean job seams k x row).2, .cell k (storedColumn cfg x)⟩ := by
  unfold stripUnits
  simp only [List.mem_flatMap, List.mem_map, writtenColumns, rowsOfBand, List.mem_range, mem_bands]
  constructor
  · rintro ⟨k, hk, x, ⟨i, hi, rfl⟩, row, ⟨r, hr, rfl⟩, rfl⟩
    exact ⟨k, k * bandRows cfg + r, _, hk, by omega, by omega, by omega, by rw [Nat.add_mul]; omega, rfl⟩
  · rintro ⟨k, row, x, hk, h1, h2, h3, h4, rfl⟩
    rw [Nat.add_mul] at h4
    exact ⟨k, hk, x, ⟨(x - writeStart cfg front job seams k).toNat, by omega, by omega⟩, row,
      ⟨row - k * bandRows cfg, by omega, by omega⟩, rfl⟩

/-- The choice among a band's candidates in rising order of their columns (R89): the highest energy, of equal ones the
higher column; none of none. -/
theorem foldl_betterCandidate (l : List (Patch × Nat)) (b : Option (Patch × Nat)) (h : l.Pairwise fun a c => a.1.x < c.1.x)
    (hb : ∀ p, b = some p → ∀ q ∈ l, p.1.x < q.1.x) :
    (l.foldl betterCandidate b = none ↔ b = none ∧ l = []) ∧
    ∀ p, l.foldl betterCandidate b = some p ↔ (p ∈ l ∨ b = some p) ∧ ∀ q, (q ∈ l ∨ b = some q) →
      q.2 < p.2 ∨ (q.2 = p.2 ∧ q.1.x ≤ p.1.x) := by
  induction l generalizing b with
  | nil => cases b <;> simp +contextual
  | cons a l ih =>
    rw [List.pairwise_cons] at h
    obtain ⟨best, hbest⟩ : ∃ best, betterCandidate b a = some best := by
      unfold betterCandidate; split
      · exact ⟨_, rfl⟩
      · split <;> exact ⟨_, rfl⟩
    rw [List.foldl_cons, hbest]
    have := ih (some best) h.2
    unfold betterCandidate at hbest
    cases b <;> grind

end Sys2Proof.Machine
end

