-- ==== Sys2Proof/Tests/Slice0.lean ====
section
/-! SUPPORT. Tests on fixed values. Expected results come from the spec's rules, tables and worked examples, named with
each test. The last part gives, for every statement with hypotheses, states and operands that meet them. -/

namespace Sys2Proof

open Machine

/-! ## The checks of WellFormed -/

theorem test_selftest_outcome_seven_refused : wellFormed (.selftestComplete 7) = false := by decide
theorem test_selftest_outcome_six_accepted : wellFormed (.selftestComplete 6) = true := by decide
theorem test_known_kind_is_not_unknown : wellFormed (.unknownCommand 5 0 []) = false := by decide
theorem test_kind_twelve_is_unknown : wellFormed (.unknownCommand 12 0 []) = true := by decide
theorem test_seventeen_header_words_refused : wellFormed (.headerArrival (List.replicate 17 0)) = false := by decide
theorem test_read_of_65_bytes_refused : wellFormed (.memoryBurstComplete (.read 0 65) ⟨[], [], []⟩) = false := by decide
theorem test_read_of_no_bytes_refused : wellFormed (.memoryBurstComplete (.read 0 0) ⟨[], [], []⟩) = false := by decide
theorem test_odd_write_refused : wellFormed (.memoryBurstComplete (.write 1 2) ⟨[], [], []⟩) = false := by decide
theorem test_half_pixel_write_refused : wellFormed (.memoryBurstComplete (.write 0 3) ⟨[], [], []⟩) = false := by decide
theorem test_burst_beyond_dram_refused :
    wellFormed (.memoryBurstComplete (.read 67108801 64) ⟨[], [], []⟩) = false := by decide
theorem test_burst_to_the_end_of_dram_accepted :
    wellFormed (.memoryBurstComplete (.write 67108800 64) ⟨[], [], []⟩) = true := by decide
theorem test_ten_error_words_refused :
    wellFormed (.memoryBurstComplete (.read 0 64) ⟨List.range 10, [], []⟩) = false := by decide
theorem test_request_without_start_bit_refused : wellFormed (.fetchRequest .r0 0x4000000000) = false := by decide
theorem test_request_with_active_0_refused : wellFormed (.fetchRequest .r0 0x8000000000) = false := by decide
theorem test_abandon_with_active_1_refused : wellFormed (.fetchAbandon .r1 0xc000000000) = false := by decide
theorem test_abandon_without_start_bit_refused : wellFormed (.fetchAbandon .r1 0) = false := by decide
theorem test_no_word_spells_a_command : decodeTableWord 16 0 = none := by decide

/-! ## States for the tests -/

/-- Reset, in a sweep state. -/
def inState (x : SweepState) : State := { State.reset with sweep := { SweepControl.reset with state := x } }

/-- A command transaction under way that will be taken. -/
def linked (s : State) : State := { s with ctl := { s.ctl with latched := some .noReply } }

/-- The result and detail of the reply in the reply slot. -/
def answerOf (s : State) : Option (CommandResult × Nat) := s.ctl.reply.map fun r => (r.result, r.detail)

/-- A part of the next state. -/
def after {α : Type} (o : Answer) (f : State → α) : Option α :=
  match o with
  | .next t => some (f t)
  | .fault _ | .refused _ => none

/-- A slot in a state. -/
def slotIn (x : SlotState) : Slot := ⟨x, ⟨7, 1000, 400, 160, false, false, 0⟩⟩

/-- The pool with its slots in these states. -/
def pool (xs : List SlotState) (s : State) : State := { s with ingest := { s.ingest with slots := xs.map slotIn } }

/-- A small frame for tests: 16 columns by 8 rows, and a canvas of one group. -/
def smallCfg : Configuration := { Configuration.default with frameWidth := 16, frameHeight := 8, margin := 0, canvasWidth := 16 }

/-- The same, in a state's sweep. -/
def small (s : State) : State := { s with sweepCfg := smallCfg }

/-- The words of a header record: number, size, marks in bits 2:0 of word 4 (10.2). -/
def headerWords (seq width height marks : Half) : List Half :=
  [seq, width, height, 0, marks, 160, 0, 0, 0, 0, 0, 0, 0, 0, 0, 0]

/-- A frame whose header is awaited. -/
def headerAwaited (s : State) : State := { s with ingest := { s.ingest with port := .header 500 } }

/-- The payload of CONFIGURE that carries the defaults of R170, written out from the table of 10.4. -/
def defaultPayload : List Byte :=
  [0x05, 0x00, 0x03, 0xc0, 32, 0x07, 0x08, 0, 0x20, 0x00, 0x01, 0xf4, 16, 0x05, 0xdb, 2,
   0, 0, 0, 0, 0, 16, 0, 0, 0, 0, 0, 0, 0, 64, 4, 16,
   3, 0x0c, 0x00, 0x01, 0x00, 0, 0x08, 0x00, 0, 128, 16, 0, 64, 0, 16, 8,
   0x55, 0xd4, 0xa8, 0x00, 0x00, 0x49, 0x3e, 0x00, 0, 128, 128, 0, 0, 0, 0, 0]

/-! ## Worked examples of the spec -/

/-- 1.7.5. -/
theorem test_even_floor : evenFloor 127 = 126 ∧ evenFloor 102 = 102 := by decide
/-- 1.7.2: floor of a negative quotient. -/
theorem test_floor : (-22581 : Int) / 1800 = -13 := by decide
/-- 1.7.2: times wrap. -/
theorem test_time_difference_wraps : ticksSince 5 0xfffffffb = 10 ∧ ticksSince 0xfffffffb 5 = -10 := by decide
/-- 2.5.1: sums −1,320 and 2,944 over 256 values. -/
theorem test_bias_means :
    (2 * (-1320) + 256 : Int) / (2 * 256) = -5 ∧ (2 * 2944 + 256 : Int) / (2 * 256) = 12 := by decide
/-- R32: the mean of 0 and 1 rounds up, that of −1 and 0 to 0. -/
theorem test_window_mean : windowMean [0, 1] = 1 ∧ windowMean [-1, 0] = 0 ∧ windowMean [-1, -2] = -1 := by decide
/-- 2.6: FSR 500, Δt 24,000, r' = −1000 from q = 0. -/
theorem test_integrator_step :
    integrateAxis ⟨0, 0⟩ (stepNumerator 500 (-1000) 24000) = ⟨-879, 3840000⟩ := by decide
/-- 2.4: pitch Z−, bias −40, code −32768. -/
theorem test_rate_clamp : integratorRate (rawRate (-32768) true) (-40) = 32767 ∧ codeSaturates (-32768) = true := by
  decide
/-- 2.5.1: code 1000 on Z+ with bias −5. -/
theorem test_rate_less_bias : integratorRate (rawRate 1000 false) (-5) = 1005 := by decide
/-- 4.11.3: θ(t_ref) lies 8,000 of 24,000 ticks between two entries. -/
theorem test_interpolation :
    interpolate ⟨0, 195045, 0, 0, 0, false, false⟩ ⟨24000, 197925, 0, 0, 0, false, false⟩ 8000 195045 197925 = 196005 := by
  decide
/-- 4.11.3: Δ = 53, x_c = 757, and the predicted edges. -/
theorem test_column_step :
    directionDelta Configuration.default 196005 0 100000 = 53 ∧
    predictedCentre Configuration.default .plus 196005 0 100000 = 757 ∧
    bandEdges Configuration.default 757 [-13, -9, -6, -2, 1, 5, 8, 12] = [104, 108, 110, 114, 118, 122, 124, 128] := by
  decide
/-- 4.11.3: the edges after the correction (2, 0). -/
theorem test_edge_step :
    bandEdges Configuration.default 755 [-13, -9, -6, -2, 1, 5, 8, 12] = [102, 106, 108, 112, 116, 120, 122, 126] := by
  decide
/-- 4.11.3: the band shifts, from the differences of the saved poses. -/
theorem test_band_shifts :
    bandShifts Configuration.default .plus 0 [-22581, -16129, -9677, -3226, 3226, 9677, 16129, 22581] =
      [-13, -9, -6, -2, 1, 5, 8, 12] := by decide
/-- A strip record with a centre and a reference time. -/
def recordAt (x : Int) (t : Time) : StripRecord :=
  ⟨0, 0, t, x, 0, [], 0, 0, [], none, 0, 0, none, ⟨FrameFlags.clear, false, false, false, false, false⟩⟩
/-- 4.11.4: the history column and the re-anchor, in both directions. -/
theorem test_history_and_reanchor :
    historyColumn [recordAt 850 0, recordAt 898 800000] 1200000 = 922 ∧
    reanchorTrim Configuration.default .plus [recordAt 850 0, recordAt 898 800000] 100000 ⟨1050000, 537442⟩ = -61242 ∧
    reanchorTrim Configuration.default .minus [recordAt 850 0, recordAt 898 800000] 100000 ⟨1050000, 537442⟩ =
      -813642 := by decide
/-- 5.4: ties of the best position. -/
theorem test_best_offset_ties :
    bestOffset [((2, 0), 9), ((-2, 0), 9)] = some ((-2, 0), 9) ∧ bestOffset [((1, 1), 9), ((2, 0), 9)] = some ((2, 0), 9) := by
  decide
/-- R99, R100: three confident patches, one of them no inlier; M_min 3 fails, M_min 2 gives the medians. -/
theorem test_consensus :
    consensus 3 [(2, 0), (2, 1), (9, 0)] = ⟨none, 3, 2⟩ ∧ consensus 2 [(2, 0), (2, 1), (9, 0)] = ⟨some (2, 0), 3, 2⟩ ∧
    consensus 3 [(2, 0), (3, 0)] = ⟨none, 2, 0⟩ := by decide
/-- The ring of 6.10. -/
def ringCfg : Configuration := { Configuration.default with mode := .ring }
/-- 6.10: the three advance tests. -/
theorem test_advance_tests :
    classifyStrip ringCfg 76 11626 = (.normal, 11580) ∧ stripAdvances ringCfg 11540 false .normal 11580 = true ∧
    classifyStrip ringCfg 76 11650 = (.normal, 11580) ∧ stripAdvances ringCfg 11580 false .normal 11580 = false ∧
    classifyStrip ringCfg 76 11686 = (.closing, 11596) ∧ settledAfter ringCfg 11444 11596 = 11460 := by decide
/-- The costs of 6.11: bands 0 to 5, the no-blend band 6, band 7. -/
def workedCosts : List (List (Int × Nat)) :=
  [[(3980, 900), (3984, 620), (3988, 700), (3992, 1100)], [(3980, 800), (3984, 750), (3988, 400), (3992, 950)],
   [(3980, 500), (3984, 880), (3988, 860), (3992, 300)], [(3980, 720), (3984, 640), (3988, 900), (3992, 410)],
   [(3980, 610), (3984, 590), (3988, 600), (3992, 820)], [(3980, 700), (3984, 700), (3988, 650), (3992, 900)],
   [], [(3980, 430), (3984, 380), (3988, 380), (3992, 500)]]
/-- 6.11: the seams of bands 0 to 7. -/
theorem test_seam_choice :
    solveSeams 4 workedCosts =
      [some 3984, some 3988, some 3992, some 3992, some 3988, some 3988, none, some 3984] := by decide
/-- 6.11: the candidates at F = 4,000, B = 16, Z = 20, and the no-blend band with a_6 = 3,986. -/
theorem test_seam_candidates :
    seamCandidates { Configuration.default with seamReach := 20 } 4000 3900 = [3980, 3984, 3988, 3992] ∧
    seamCandidates { Configuration.default with seamReach := 20 } 4000 3986 = [] := by decide
/-- 6.12: the blend of old luma 100 and new luma 180, and the V sample at z = 4. -/
theorem test_blend :
    [0, 5, 7, 8, 15].map (fun z => blendValue 16 z 100 180) = [103, 128, 138, 143, 178] ∧
    blendValue 16 4 120 136 = 125 := by decide
/-- The ring of 7.10. -/
def ring1266 : Configuration := { Configuration.default with mode := .ring, columnAngle := 1266 }
/-- 7.10: its geometry, and the place of sweep column 16,390 at canvas row 500. -/
theorem test_ring_geometry :
    ringWidth ring1266 = 16380 ∧ groupCount ring1266 = 1024 ∧ itemSize ring1266 .canvas = 28672 ∧
    previewWidth ring1266 = 2048 ∧ storedColumn ring1266 16390 = 10 ∧ bandOfRow ring1266 500 = 4 ∧
    cellAddress ring1266 10 500 = canvasArea + 16020 := by decide
/-- 10.4: the defaults of R170 are read from their places. -/
theorem test_default_payload : (parseConfiguration defaultPayload).values = Configuration.default := by decide
/-- 10.4: the record is 64 bytes and every refuse field of it is in range. -/
theorem test_default_payload_passes : firstRefused (parseConfiguration defaultPayload) = none := by decide
/-- R185: the header of a WAITING burst of requester 1 for item 258. -/
theorem test_burst_header : burstHeader ⟨.r1, .waiting, 258, []⟩ = [1, 2, 1, 2, 0, 0, 0, 0] := by decide
/-- 10.4: a reply of one payload byte, answered STATE. -/
theorem test_reply_bytes : replyBytes ⟨9, 4, .state, 0, [7]⟩ = [9, 4, 2, 0, 0, 1, 7] := by decide
/-- 10.5: of a strip record the presence marks, the flags in bytes 2 and 3, the sequence number, the centre and the seams. -/
theorem test_strip_bytes :
    let p := stripBytes ⟨2, 0x0102, 0x03040506, -2, 3, [-64], 16, 32, [some 700, none], some (-1, 2), 8, 7, none,
      ⟨{ FrameFlags.clear with gap := true }, true, false, true, false, true⟩⟩
    p.take 18 = [2, 1, 0x05, 0x09, 1, 2, 3, 4, 5, 6, 255, 255, 255, 254, 0, 3, 192, 0] ∧
    (p.drop 24).take 14 = [0, 0, 0, 16, 0, 0, 0, 32, 1, 0, 2, 188, 0, 0] ∧ (p.drop 50).take 6 = [255, 2, 8, 7, 0, 0] := by
  decide
/-- R182: two bytes in a word, the earlier in bits 15:8. -/
theorem test_words_of : wordsOf [0x12, 0x34, 0x56, 0x78] = [0x1234, 0x5678] := by decide
/-- R47, 10.2: a header record. -/
theorem test_parse_header :
    parseHeader (headerWords 7 1280 960 5) = some ⟨7, 1280, 960, 0, 160, true, false, true⟩ := by decide
/-- R148, R184: requests of CANVAS, of PREVIEW with repeat, and of CANVAS with a repeat bit that is not honoured. -/
theorem test_parse_request :
    parseRequest 0xc001020003 = ⟨.canvas, 258, 3, false⟩ ∧ parseRequest 0xcc00000001 = ⟨.preview, 0, 1, true⟩ ∧
    parseRequest 0xc400000001 = ⟨.canvas, 0, 1, false⟩ ∧ requestActive 0xc001020003 = true ∧
    requestActive 0x8001020003 = false := by decide
/-- R142, R143: the grants of 7.11 that choose between the engine and the fetch port under ROTATE. -/
theorem test_rotate_takes_turns :
    engineOrFetch .rotate .engine = .fetch ∧ engineOrFetch .rotate .fetch = .engine ∧ engineOrFetch .fixed .fetch = .fetch := by
  decide

/-! ## One command each -/

/-- R177: power-on in the middle of a sweep. -/
theorem test_power_on : after (exec .powerOn (inState .opened)) (fun t => (t.sweep.state, t.timeBase)) = some (.init, 0) := by
  decide
theorem test_resetn_holds : after (exec .resetnAssert (inState .done)) (fun t => (t.sweep.state, t.inReset)) = some (.init, true) := by
  decide
/-- R177: with RESETn low, power-on leaves every block held, and its rise begins start-up. -/
theorem test_power_on_with_resetn_low :
    after (exec .powerOn { inState .done with inReset := true }) (fun t => (t.sweep.state, t.inReset)) = some (.init, true) := by
  decide
theorem test_resetn_release :
    after (exec .resetnRelease { State.reset with inReset := true, timeBase := 9 }) (fun t => (t.inReset, t.timeBase)) =
      some (false, 0) := by decide
/-- R177: the TEST strap low, then high. -/
theorem test_dram_initialised :
    after (exec (.dramInitialised false) State.reset) (fun t => t.sweep.state) = some .idle ∧
    after (exec (.dramInitialised true) State.reset) (fun t => (t.sweep.state, t.selfTest.result)) = some (.test, .running) := by
  decide
/-- R44: the clock line is low while the link is idle. -/
theorem test_msck_idle_low : msckPin State.reset = some false ∧ mcsnPin State.reset = true := by decide
/-- R178: INIT ends with the reply of a RESET. -/
theorem test_reset_is_answered_at_the_end_of_init :
    after (exec (.dramInitialised false) (resetState 9 State.reset)) (fun t => t.ctl.reply) =
      some (some ⟨9, 11, .done, 0, []⟩) := by decide
/-- A run of the tests with both memory tests behind it. -/
def testsRun : State := { inState .test with selfTest := ⟨.running, some ⟨3, 0, 0, none⟩⟩ }
/-- R179, R180: the flags, the vectors and the memory tests behind are all right. -/
theorem test_selftest_passes :
    after (exec (.selftestComplete 0) testsRun) (fun t => (t.sweep.state, t.selfTest.result, t.attn.pendingSet)) =
      some (.idle, .passed, 0) := by
  have h : outcomeAllowed testsRun ⟨3, 0, 0, none⟩ 0 = true := by
    simp only [outcomeAllowed, unitVerdict_eq]
    decide
  have e : exec (.selftestComplete 0) testsRun = .next (settle false false (endTests 0 testsRun)) := by
    change Host.Outcome.next (if outcomeAllowed testsRun ⟨3, 0, 0, none⟩ 0 then _ else _) = _
    rw [if_pos h]
  rw [e]
  decide
/-- R180: test 4 with a rate code of −1000 over 24,000 ticks at FSR 500, twice (2.6), and beyond the GAP clamp; a flag
that is left over after the clearing is seen. -/
theorem test_unit_tests :
    integratorRun (vectorConfig ⟨500, 16, 1499, []⟩) vectorStart [(-1000, 0, 24000), (-1000, 0, 24000)] =
      [(⟨-879, 3840000⟩, ⟨0, 0⟩), (⟨-1758, 7680000⟩, ⟨0, 0⟩)] ∧
    integratorRun (vectorConfig ⟨500, 16, 1499, []⟩) vectorStart [(0, 1, 192001)] =
      integratorRun (vectorConfig ⟨500, 16, 1499, []⟩) vectorStart [(0, 1, 192000)] ∧
    blendResult 16 (100, 180, 5) = [128, 123, 153, 158] ∧ previewAverage 32 (List.replicate 31 4 ++ [20]) = 5 := by decide
/-- R179, R180: test 3 fails. -/
theorem test_selftest_fails :
    after (exec (.selftestComplete 3) testsRun) (fun t => (t.sweep.state, t.selfTest.result, t.attn.pendingSet)) =
      some (.idle, .failed 3, 1) := by decide
/-- R170: the defaults are answered DONE in IDLE. -/
theorem test_configure_defaults :
    after (exec (.configure 1 defaultPayload) (linked (inState .idle))) (fun t => (answerOf t, t.config)) =
      some (some (.done, 0), Configuration.default) := by decide
/-- R171: motion wait limit 17 is clamped to 16, one field changed. -/
theorem test_configure_clamps :
    after (exec (.configure 1 (defaultPayload.set 30 17)) (linked (inState .idle)))
      (fun t => (answerOf t, t.config.motionWait)) = some (some (.clamped, 1), 16) := by decide
/-- R170 field 3: H_f 360 with m 120 leaves fewer than 128 rows. -/
theorem test_configure_range :
    after (exec (.configure 1 (((defaultPayload.set 2 1).set 3 0x68).set 4 120)) (linked (inState .idle)))
      (fun t => (answerOf t, t.config.margin)) = some (some (.range, 3), 32) := by decide
theorem test_arm : after (exec (.arm 1 []) (linked (inState .idle))) (fun t => (t.sweep.state, t.motion.link, answerOf t)) =
    some (.armed, .sampling, some (.done, 0)) := by decide
theorem test_arm_in_open_is_answered_state :
    after (exec (.arm 1 []) (linked (inState .opened))) (fun t => (t.sweep.state, answerOf t)) =
      some (.opened, some (.state, 0)) := by decide
theorem test_start : after (exec (.start 1 []) (linked (inState .armed))) (fun t => t.sweep.openPending) = some true := by decide
theorem test_start_length :
    after (exec (.start 1 [0]) (linked (inState .armed))) (fun t => (t.sweep.openPending, answerOf t)) =
      some (false, some (.length, 0)) := by decide
/-- R15: STOP in OPEN with no frame in the part ends the sweep at once. -/
theorem test_stop_with_nothing_to_drain :
    after (exec (.stop 1 []) (linked (small (inState .opened)))) (fun t => (t.sweep.state, t.sweep.lastReason)) =
      some (.done, .stopped) := by decide
theorem test_stop_in_armed :
    after (exec (.stop 1 []) (linked (inState .armed))) (fun t => (t.sweep.state, t.sweep.lastReason)) =
      some (.idle, .unset) := by decide
/-- R17: ABORT in OPEN counts the occupied slots as discarded. -/
theorem test_abort_discards :
    after (exec (.abort 1 []) (linked (pool [.free, .queued, .engaged, .free, .held, .free] (inState .opened))))
      (fun t => (t.sweep.state, t.sweep.lastReason, t.sweep.counters.discarded)) = some (.idle, .aborted, 3) := by decide
theorem test_query : after (exec (.query 1 []) (linked (inState .done))) (fun t => t.ctl.reply.map fun r => r.payload.take 2) =
    some (some [6, 0]) := by decide
/-- R174: SWEEP_END and DROP pending, SWEEP_END has the lower code; ATN is high. -/
theorem test_read_attention :
    after (exec (.readAttention 1 []) (linked { State.reset with attn := ⟨0b0001010, 0b0111111⟩ }))
      (fun t => (t.ctl.reply.map fun r => r.payload, atnPin t)) = some (some [2], true) := by decide
/-- R173: STRIP pending alone, disabled after power-on: ATN stays low. -/
theorem test_strip_is_disabled : atnPin { State.reset with attn := { Attention.reset with pendingSet := 0b1000000 } } = false := by
  decide
theorem test_ack_clears :
    after (exec (.ackAttention 1 [4]) (linked { State.reset with attn := ⟨0b0001010, 0b0111111⟩ }))
      (fun t => t.attn.pendingSet) = some 0b0000010 := by decide
/-- R175: MOTION_LOST while the link is LOST. -/
theorem test_ack_still_active :
    after (exec (.ackAttention 1 [3]) (linked { State.reset with
        attn := ⟨0b0000100, 0b0111111⟩, motion := { Motion.reset with link := .lost } }))
      (fun t => (t.attn.pendingSet, answerOf t)) = some (0b0000100, some (.stillActive, 0)) := by decide
theorem test_set_attention :
    after (exec (.setAttention 1 [0xc1]) (linked (inState .idle))) (fun t => t.attn.enableSet) = some 0b1000001 := by decide
/-- R65: SELFTEST and ARM free the line buffer, and the burst it waited for is withdrawn. -/
theorem test_line_buffer_is_freed :
    ∀ c ∈ [Instr.selftest 6 [], .arm 6 []],
      after (exec c (linked { inState .done with
          ingest := { Ingest.reset with lines := [⟨0, 0, [1], 2⟩] }
          arb := { Arbiter.reset with ingestWait := some ⟨0, 0, [0, 1], true⟩, inProgress := some (.engine .compositor false [] []) } }))
        (fun t => (t.ingest.lines, t.arb.ingestWait)) = some ([], none) := by decide
theorem test_selftest :
    after (exec (.selftest 6 []) (linked (inState .idle))) (fun t => (t.sweep.state, linkStatus t.ctl)) =
      some (.test, .executing) := by decide
theorem test_reset :
    after (exec (.reset 6 []) (linked (inState .opened))) (fun t => (t.sweep.state, t.ctl.command, linkStatus t.ctl)) =
      some (.init, some (11, 6), .executing) := by decide
theorem test_unknown_command :
    after (exec (.unknownCommand 12 6 [1]) (linked (inState .idle))) answerOf = some (some (.unknown, 0)) := by decide
theorem test_command_discarded :
    after (exec .commandDiscarded { State.reset with ctl := { ControlLink.reset with
        latched := some .executing, command := some (10, 3) } })
      (fun t => (t.ctl.latched, t.ctl.command, t.ctl.cso, csoByte t 1)) = some (none, some (10, 3), [], 0) := by decide
/-- R183: a command of kind 4 with tag 9, one ended before its tag, one sent in EXECUTING, a reply and a poll. -/
theorem test_transaction_row :
    transactionRow .noReply [1, 4, 9] = .stop 9 [] ∧ transactionRow .replyReady [1, 4] = .stop 0 [] ∧
    transactionRow .noReply [1, 12, 9, 5] = .unknownCommand 12 9 [5] ∧
    transactionRow .executing [1, 4, 9] = .commandDiscarded ∧ transactionRow .replyReady [2, 0, 0] = .replyTransaction 2 ∧
    transactionRow .replyReady [3, 0, 0] = .replyTransaction 0 := by decide
/-- R183: a command ended after its kind, and one of two payload bytes, show nothing but 0 after the status byte. -/
theorem test_command_shows_zeros :
    ∀ c ∈ [transactionRow .replyReady [1, 3], .ackAttention 1 [4, 4]],
      after (exec c { inState .armed with ctl := { ControlLink.reset with cso := [1], latched := some .replyReady } })
        (fun t => (t.ctl.cso, csoByte t 0, csoByte t 1, csoByte t 4)) = some ([1], 1, 0, 0) := by decide
/-- R168, R183: six header bytes of the reply, its payload byte, then 0. -/
theorem test_reply_transaction :
    after (exec (.replyTransaction 8) { State.reset with ctl := ⟨some .replyReady, none, some ⟨9, 7, .done, 0, [2]⟩, [1], false⟩ })
      (fun t => (t.ctl.cso, csoByte t 8, t.ctl.reply)) = some ([1, 9, 7, 0, 0, 0, 1, 2], 0, none) := by decide
theorem test_transaction_start :
    after (exec .transactionStart { State.reset with ctl := { ControlLink.reset with command := some (11, 1) } })
      (fun t => t.ctl.cso) = some [2] := by decide
/-- OPEN with the limit running from time 100. -/
def limited : State := { inState .opened with
  sweep := { SweepControl.reset with state := .opened, openTime := some 100, limitRunning := true } }
/-- R11: the limit is 1,440,000,000 ticks after the open time. -/
theorem test_time_limit :
    after (exec .sweepTimeLimit (pool [.queued] { limited with ingest := { Ingest.reset with queue := [0] } }))
      (fun t => (t.sweep.state, t.sweep.lastReason, t.timeBase)) = some (.draining, .timeLimit, 1440000100) := by decide
/-- R12: an end request with reason EXTENT in DRAINING keeps the drain's reason. -/
theorem test_end_request_in_draining :
    after (exec (.endRequest .extent) (small { inState .draining with
        sweep := { SweepControl.reset with state := .draining, lastReason := .stopped, endRequests := [.extent] } }))
      (fun t => (t.sweep.state, t.sweep.lastReason)) = some (.done, .stopped) := by decide
theorem test_frame_start_in_init_is_ignored :
    after (exec .frameStart State.reset) (fun t => t.ingest.port) = some .ignored := by decide
/-- R46: the arrival time is the time base at the rise of FV. -/
theorem test_frame_start :
    after (exec .frameStart { inState .armed with timeBase := 77 }) (fun t => t.ingest.port) = some (.header 77) := by decide
/-- R50: numbers 65,534 and then 1 leave a gap of 2. -/
theorem test_header_gap_wraps :
    after (exec (.headerArrival (headerWords 1 1280 960 0)) (headerAwaited { inState .opened with
        ingest := { Ingest.reset with seqRef := some 0xfffe } }))
      (fun t => (t.sweep.counters.skipped, t.sweep.counters.received)) = some (2, 1) := by decide
/-- R52: no slot is FREE. -/
theorem test_header_dropped :
    after (exec (.headerArrival (headerWords 1 1280 960 0)) (headerAwaited (pool [.queued] (inState .opened))))
      (fun t => (t.sweep.counters.dropped, t.attn.pendingSet, t.ingest.port)) = some (1, 8, .ignored) := by decide
/-- R5, R10: START and STOP marks together open the sweep and begin its drain. -/
theorem test_header_opens_and_stops :
    after (exec (.headerArrival (headerWords 1 1280 960 3)) (headerAwaited (inState .armed)))
      (fun t => (t.sweep.state, t.sweep.lastReason, t.sweep.openTime)) = some (.draining, .stopped, some 500) := by decide
/-- A FILLING frame in slot 0, at pixel line `line`. -/
def fillingAt (line : Nat) (high : Bool) (x : SweepState) : State :=
  small { inState x with ingest := { Ingest.reset with port := .filling 0 line high, slots := [slotIn .filling, slotIn .engaged] } }
/-- R59: a third line overruns the line buffer. -/
theorem test_line_buffer_overrun :
    after (exec .pixelLineStart { fillingAt 2 false .opened with ingest := { (fillingAt 2 false .opened).ingest with
        lines := [⟨0, 0, [], 0⟩, ⟨0, 1, [], 0⟩] } })
      (fun t => (t.sweep.counters.truncated, t.ingest.lines, slotState t.ingest.slots 0)) = some (1, [], .free) := by decide
theorem test_line_too_long :
    after (exec .lineTooLong (fillingAt 2 true .opened)) (fun t => (t.sweep.counters.truncated, t.ingest.port)) =
      some (1, .ignored) := by decide
/-- R57: the last line completes the frame, and the engaged engine leaves it QUEUED with the opening mark. -/
theorem test_last_line :
    after (exec (.pixelLineClose (List.replicate 16 0)) (fillingAt 7 true .opened))
      (fun t => (slotState t.ingest.slots 0, (slotInfo t.ingest.slots 0).opening, t.ingest.queue)) =
      some (.queued, true, [0]) := by decide
theorem test_short_line :
    after (exec (.pixelLineClose (List.replicate 15 0)) (fillingAt 3 true .opened))
      (fun t => (slotState t.ingest.slots 0, t.sweep.counters.truncated)) = some (.free, 1) := by decide
theorem test_frame_end_truncates :
    after (exec .frameEnd (fillingAt 3 false .opened)) (fun t => (t.ingest.port, t.attn.pendingSet)) = some (.low, 8) := by
  decide
/-- The sample clock running since time 1,000, T = 24,000. -/
def sampling (tx : SampleTransaction) : State := { inState .armed with
  timeBase := 1000
  motion := { Motion.reset with clockRunning := true, armTime := 1000, link := .sampling, tx := tx } }
/-- R23, R24: strobe 1 at t_arm + T. -/
theorem test_strobe :
    after (exec .sampleStrobe (sampling .absent)) (fun t => (t.timeBase, t.motion.tx, mstbPin t)) =
      some (25000, .window 25000 25000, true) := by decide
theorem test_mdrdy : after (exec .mdrdySeen (sampling (.window 900 850))) (fun t => (t.motion.tx, mcsnPin t)) =
    some (.reading 850 1000, false) := by decide
/-- R33: the first good sample is not integrated; its Z code 5 is the yaw rate. R25: the read takes 200 ticks. -/
theorem test_good_sample :
    after (exec (.goodSample 0x000000000005) (sampling (.reading 850 1000)))
      (fun t => (t.motion.ring, t.timeBase, t.motion.yawWindow)) =
      some ([⟨850, 0, 0, 5, 0, false, false⟩], 1200, [5]) := by decide
/-- R26: the window is floor(T/2) = 12,000 ticks. -/
theorem test_sample_missed :
    after (exec .sampleMissed (sampling (.window 900 850))) (fun t => (t.timeBase, t.sweep.counters.samplesMissed)) =
      some (12900, 1) := by decide
/-- R41: the eighth miss in a row. -/
theorem test_loss :
    after (exec .sampleMissed { sampling (.window 900 850) with motion := { (sampling (.window 900 850)).motion with missCount := 7 } })
      (fun t => (t.motion.link, t.attn.pendingSet, t.place.motionLost)) = some (.lost, 4, true) := by decide
theorem test_wait_expiry_without_a_wait :
    after (exec .motionWaitExpiry State.reset) (fun t => decide (t.place = State.reset.place)) = some true := by decide
theorem test_search_complete_without_a_search :
    after (exec .searchComplete State.reset) (fun t => decide (t.reg = State.reset.reg)) = some true := by decide
/-- A strip job of slot 0 with nothing left to write. -/
def jobDone : StripJob :=
  ⟨false, 0, 7, 900, 700, 0, List.replicate 8 0, List.replicate 8 60, ⟨none, 0, 0, none⟩, FrameFlags.clear, .normal, 80, true,
    List.replicate 8 none, false, false⟩
/-- R119: the harvest is asked for. -/
theorem test_writes_complete :
    after (exec .stripWritesComplete { inState .opened with
        comp := { Compositor.initial smallCfg with state := .compositing, job := some jobDone } })
      (fun t => (t.comp.state, t.reg.state)) = some (.harvesting, .harvesting) := by decide
theorem test_update_complete :
    after (exec .previewUpdateComplete { inState .opened with comp := { Compositor.initial smallCfg with state := .updating } })
      (fun t => t.comp.state) = some .ready := by decide
theorem test_closing_complete :
    after (exec .closingWorkComplete { inState .done with comp := { Compositor.initial smallCfg with state := .closing } })
      (fun t => (t.comp.state, t.attn.pendingSet)) = some (.ready, 2) := by decide
/-- An ingest burst of two pixels in progress. -/
def ingestBurst : State := { inState .opened with arb := { Arbiter.reset with inProgress := some (.ingest ⟨0, 64, [1, 2, 3, 4], false⟩ true) } }
theorem test_ingest_burst :
    after (exec (.memoryBurstComplete (.read 0 64) ⟨[], [], []⟩) ingestBurst) (fun t => t.store.mem) =
      some [(64, 1), (65, 2), (66, 3), (67, 4)] := by decide
/-- An engine burst in progress. -/
def engineBurst (u : EngineUnit) (s : State) : State :=
  { s with arb := { s.arb with inProgress := some (.engine u true [] (engineAreas s u)) } }
/-- A strip of slot 0 being composited, its seams chosen, with these pixels left to write. -/
def writing (todo : List WriteUnit) : State := { inState .opened with
  comp := { Compositor.initial smallCfg with state := .compositing, job := some jobDone, todo := todo } }
/-- R144, R145: a word with both errors is uncorrectable and not counted as corrected. -/
theorem test_uncorrectable_engine_read :
    after (exec (.memoryBurstComplete (.read 0 64) ⟨[0, 7], [7], []⟩) (engineBurst .compositor (writing [])))
      (fun t => (t.attn.pendingSet, t.sweep.endRequests, t.store.corrected, t.store.singleFlaws, t.store.multiFlaws)) =
      some (1, [.fault], 1, [0], [7]) := by decide
/-- R144: a word corrected before is corrected and counted again. -/
theorem test_corrected_again :
    after (exec (.memoryBurstComplete (.read 0 64) ⟨[], [], []⟩) (engineBurst .compositor
        { writing [] with store := { CanvasStore.reset with corrected := 1, singleFlaws := [5] } }))
      (fun t => t.store.corrected) = some 2 := by decide
/-- R131, R142: a compositor reads neither the preview nor bytes between the areas. -/
theorem test_engine_reads_its_areas_only :
    after (exec (.memoryBurstComplete (.read 15000000 64) ⟨[], [0, 1875000], []⟩) (engineBurst .compositor (writing [])))
      (fun t => (t.attn.pendingSet, t.arb.inProgress.isSome)) = some (0, true) ∧
    after (exec (.memoryBurstComplete (.read 50331648 64) ⟨[], [6291456], []⟩) (engineBurst .compositor (writing [])))
      (fun t => (t.attn.pendingSet, t.arb.inProgress.isSome)) = some (0, true) := by decide
theorem test_burst_beyond_dram_faults :
    (match exec (.memoryBurstComplete (.read 67108864 1) ⟨[], [], []⟩) (engineBurst .compositor (inState .opened)) with
      | .fault .outsideDram => true
      | .next _ | .refused _ => false) = true := by decide
/-- A message of requester 0 shifting in. -/
def shifting (s : State) : State := { s with fetch := { s.fetch with p0 := { s.fetch.p0 with line := .shifting } } }
/-- R151: a canvas request in IDLE. -/
theorem test_request_without_a_canvas :
    after (exec (.fetchRequest .r0 0xc001020003) (shifting (inState .idle))) (fun t => t.fetch.bus) =
      some (some ⟨.r0, .errorNoSweep, 258, []⟩) := by decide
/-- R159: strip 0 of a sweep with no strip yet. -/
theorem test_request_stalls :
    after (exec (.fetchRequest .r0 0xd000000001) (shifting (inState .opened))) (fun t => (t.fetch.bus, t.fetch.p0.waitStart)) =
      some (some ⟨.r0, .waiting, 0, []⟩, some 0) := by decide
theorem test_abandon_without_a_transfer :
    after (exec (.fetchAbandon .r0 0x8000000000) (shifting (inState .opened))) (fun t => (t.fetch.bus, t.fetch.p0.line)) =
      some (none, .idle) := by decide
/-- R162: an ERROR header ends its transfer. -/
theorem test_return_burst_complete :
    after (exec .returnBurstComplete { inState .idle with fetch := { FetchPort.reset with
        p0 := { PortSide.reset with transfer := some ⟨⟨.canvas, 0, 1, false⟩, 0, 0, [], 0, false, none, 0⟩ }
        bus := some ⟨.r0, .errorNoSweep, 0, []⟩ } }) (fun t => (t.fetch.bus, t.fetch.p0.transfer)) = some (none, none) := by
  decide
/-- A stall of requester 0 on strip 4 from time 50, limit 100. -/
def stalled : State := { inState .opened with fetch := { FetchPort.reset with p0 := { PortSide.reset with
  transfer := some ⟨⟨.strips, 4, 1, false⟩, 4, 0, [], 0, false, none, 0⟩, phase := .stalled, waitStart := some 50, stallLimit := 100 } } }
/-- R160. -/
theorem test_fetch_wait_expiry :
    after (exec .fetchWaitExpiry stalled) (fun t => (t.fetch.bus, t.timeBase, t.attn.pendingSet)) =
      some (some ⟨.r0, .errorNotSettled, 4, []⟩, 150, 32) := by decide
theorem test_message_start_in_init :
    after (exec (.requestMessageStart .r1) State.reset) (fun t => t.fetch.p1.line) = some .ignored ∧
    after (exec (.requestMessageStart .r1) (inState .idle)) (fun t => t.fetch.p1.line) = some .shifting := by decide
/-- An empty queue: the time base counts. -/
theorem test_idle_step : after (step State.reset) (fun t => t.timeBase) = some 1 := by decide

/-! ## Every statement with hypotheses has states and operands that meet them -/

theorem witness_StepRunsFrontCommand : State.reset.pending = [] := by decide
theorem witness_PowerOnResetnAndReset : commandTaken (linked State.reset) = true := by decide
theorem witness_InitEndsAtDramReport : State.reset.sweep.state = .init ∧ State.reset.inReset = false := by decide
/-- A run that stands at test `n`, with a failed test or none. -/
def runAt (n : Nat) (failed : Option Nat) : SelfRun := ⟨n, 0, 0, failed⟩
/-- A burst of the preview part of test 2 in progress. -/
def selfBurst (pass : Nat) : State := { testsRun with arb := { Arbiter.reset with inProgress := some (.selfTest ⟨2, pass, 31457280⟩ true) } }
/-- R180: a word of a read back that comes back different, and one that is uncorrectable, fail the test. -/
theorem test_read_back_fails :
    readBackFails ⟨2, 3, 31457280⟩ ⟨[], [], [6291463]⟩ State.reset.store = true ∧
    readBackFails ⟨2, 3, 31457280⟩ ⟨[], [6291456], []⟩ State.reset.store = true := by
  have h1 : (touchedWords (testAddress ⟨2, 3, 31457280⟩) 64).any [6291463].contains = true := by decide
  have h2 : (badWords (touchedWords (testAddress ⟨2, 3, 31457280⟩) 64) ⟨[], [6291456], []⟩ State.reset.store).isEmpty =
    false := by decide
  exact ⟨by simp only [readBackFails, h1, Bool.or_true, Bool.true_or], by simp only [readBackFails, h2, Bool.not_false, Bool.or_true]⟩
theorem witness_SelfTestEnds :
    testsRun.sweep.state = .test ∧ testsRun.selfTest.run = some (runAt 3 none) ∧ selfOutstanding testsRun.arb = false ∧
    (runAt 3 none).failed = none ∧ 3 ≤ (runAt 3 none).test ∧ (runAt 2 (some 2)).failed = some 2 ∧
    ¬((runAt 1 none).failed = some 1 ∨ ((runAt 1 none).failed = none ∧ 3 ≤ (runAt 1 none).test)) ∧
    (memWf (selfBurst 0).store.mem = true ∧ (selfBurst 0).arb.inProgress = some (.selfTest ⟨2, 0, 31457280⟩ true) ∧
      testAddress ⟨2, 0, 31457280⟩ = 50331648 ∧ 0 % 2 = 0) ∧
    ((selfBurst 3).arb.inProgress = some (.selfTest ⟨2, 3, 31457280⟩ true) ∧ 3 % 2 = 1 ∧
      ∃ w ∈ touchedWords 50331648 64, w ∈ (⟨[], [], [6291463]⟩ : MemErrors).differs) := by
  decide
theorem witness_RefusedAndDiscardedCommands :
    commandTaken (linked (inState .idle)) = true ∧
    (commandForm (.configure 1 (List.replicate 63 0))).map (fun f => decide (f.payload.length = f.length)) = some false ∧
    (commandForm (.arm 1 [0])).map (fun f => decide (f.payload.length = f.length)) = some false ∧
    (commandForm (.start 1 [])).map (fun f => (decide (f.payload.length = f.length), f.takenIn .idle)) = some (true, false) ∧
    (commandForm (.setAttention 1 [0])).map (fun f => (decide (f.payload.length = f.length), f.takenIn .init)) =
      some (true, false) ∧
    ((0 : Byte) = 0 ∨ 12 ≤ (0 : Byte).toNat) ∧ ((12 : Byte) = 0 ∨ 12 ≤ (12 : Byte).toNat) ∧
    ({ State.reset with ctl := { ControlLink.reset with latched := some .executing } }.ctl.latched = some .executing ∧
      (commandForm (.query 1 [])).isSome = true) ∧
    LinkStatus.noReply ≠ .executing ∧ (0 : Byte) ≠ 1 ∧ (0 : Byte) ≠ 2 ∧ [(1 : Byte)].length ≤ 1 := by decide
theorem witness_ConfigureIsWholeOrNothing :
    commandTaken (linked (inState .idle)) = true ∧ commandTaken (linked (inState .done)) = true ∧
    defaultPayload.length = 64 ∧ (∀ check ∈ refuseChecks (parseConfiguration defaultPayload), check.2 = true) ∧
    refuseChecks (parseConfiguration (defaultPayload.set 22 2)) =
      (refuseChecks (parseConfiguration defaultPayload)).take 12 ++ (15, false) :: [] ∧
    (∀ check ∈ (refuseChecks (parseConfiguration defaultPayload)).take 12, check.2 = true) ∧
    refuseChecks (parseConfiguration (defaultPayload.set 1 1)) =
      [] ++ (1, false) :: (refuseChecks (parseConfiguration (defaultPayload.set 1 1))).drop 1 ∧
    Configuration.default.blend ∈ [8, 16, 32, 64] ∧ (15, true) ∈ refuseChecks (parseConfiguration defaultPayload) := by decide
/-- R171: the ends of clamp fields, and Z, J and A_min brought to their multiples. -/
theorem test_clamp_ends :
    clampConfiguration { Configuration.default with
      seamReach := 0, jumpLimit := 63, minAdvance := 300, sweepTimeLimit := 0, motionWait := 17, minPatches := 0
      sadLimit := 255, textureThreshold := 131072 } =
      { Configuration.default with
        seamReach := 16, jumpLimit := 60, minAdvance := 256, sweepTimeLimit := 24000000, motionWait := 16, minPatches := 1
        sadLimit := 256, textureThreshold := 131071 } ∧
    clampConfiguration { Configuration.default with seamReach := 255, minAdvance := 3 } =
      { Configuration.default with seamReach := 252, minAdvance := 2 } ∧
    (parseConfiguration ((defaultPayload.set 15 0x31).set 17 0x80)).values =
      { Configuration.default with axisMap := ⟨.y, false, .z, true⟩, biasYaw := -32768 } ∧
    (2 % 4 ≤ 2 ∧ 2 / 8 % 4 ≤ 2 ∧ 2 % 4 ≠ 2 / 8 % 4) := by decide
/-- R170's example: H_f = 480 with m = 128 passes field 3, and H_f = 360 with m = 120 is refused there. -/
theorem test_margin_against_the_height :
    (3, true) ∈ refuseChecks (parseConfiguration (((defaultPayload.set 2 1).set 3 0xe0).set 4 128)) ∧
    (3, false) ∈ refuseChecks (parseConfiguration (((defaultPayload.set 2 1).set 3 0x68).set 4 120)) := by decide
/-- A transfer of a kind, at item 3 of items 2 to 5, at the first burst of the item. -/
def transferOf (kind : FetchKind) : Transfer := ⟨⟨kind, 2, 4, false⟩, 3, 0, [], 0, true, none, 0⟩
/-- Requester 0 with a transfer. -/
def side0 (t : Transfer) (s : State) : State := { s with fetch := { s.fetch with p0 := { s.fetch.p0 with transfer := some t } } }
/-- A repeating preview transfer whose pass has been sent. -/
def previewAgain : Transfer := ⟨⟨.preview, 0, 1, true⟩, 1, 0, [], 0, false, none, 0⟩
/-- Its DATA_LAST on the bus, with a strip request held behind it. -/
def lastOnBus (s : State) : State := { s with fetch := { s.fetch with
  p0 := { PortSide.reset with transfer := some previewAgain, held := some (⟨.strips, 0, 1, false⟩, false), phase := .sending }
  bus := some ⟨.r0, .dataLast, 0, []⟩ } }
/-- A guide record transfer of requester 0 with its burst posted. -/
def guidePosted (s : State) : State := { s with fetch := { s.fetch with p0 := { PortSide.reset with
  transfer := some ⟨⟨.guide, 0, 0, false⟩, 0, 0, [], 0, true, none, 0⟩, posted := some ⟨.r0, .dataLast, 0, []⟩, phase := .posted } } }
/-- A memory burst of its canvas transfer in progress, and another asked for. -/
def onMemory (s : State) : State := { s with arb := { s.arb with
  inProgress := some (.fetch ⟨.r0, .canvas, 3, 0, 64, 86016⟩ [] true), fetchWait := some ⟨.r0, .canvas, 3, 64, 64, 86080⟩ } }
/-- What a canvas discard meets at requester 0, by state: a canvas transfer, with a memory burst of it in progress, one
whose ending burst is on the bus, and a guide record transfer with its burst posted. -/
theorem witness_discardedAt :
    ∀ x ∈ [SweepState.idle, .armed, .opened, .draining, .done],
      (sideOf (linked (side0 (transferOf .canvas) (inState x))).fetch .r0).transfer = some (transferOf .canvas) ∧
      commandTaken (linked (side0 (transferOf .canvas) (inState x))) = true ∧
      (linked (side0 (transferOf .canvas) (inState x))).sweep.state = x ∧
      endingOnBus (linked (side0 (transferOf .canvas) (inState x))).fetch .r0 false = false ∧
      commandTaken (linked (lastOnBus (inState x))) = true ∧ (linked (lastOnBus (inState x))).sweep.state = x ∧
      endingOnBus (linked (lastOnBus (inState x))).fetch .r0 false = true ∧
      (onMemory (side0 (transferOf .canvas) (inState x))).arb.inProgress.isSome = true ∧
      (sideOf (linked (guidePosted (inState x))).fetch .r0).transfer.isSome = true ∧
      (sideOf (linked (guidePosted (inState x))).fetch .r0).posted = some ⟨.r0, .dataLast, 0, []⟩ ∧
      endingOnBus (linked (guidePosted (inState x))).fetch .r0 false = false := by decide
theorem witness_ArmStartsASweep :
    commandTaken (linked (inState .idle)) = true ∧ (linked (inState .idle)).sweep.state = .idle ∧
    commandTaken (linked (inState .done)) = true ∧ (linked (inState .done)).sweep.state = .done := by decide
theorem witness_CanvasDiscardAtTheFetchPort :
    (sideOf (side0 (transferOf .canvas) State.reset).fetch .r0).transfer = some (transferOf .canvas) ∧
    sweepKind (transferOf .canvas).req.kind = true ∧
    endingOnBus (side0 (transferOf .canvas) State.reset).fetch .r0 (false && true) = false ∧
    (sideOf { (side0 (transferOf .canvas) State.reset).fetch with bus := some ⟨.r0, .dataLast, 3, []⟩ } .r0).transfer =
      some (transferOf .canvas) ∧
    endingOnBus { (side0 (transferOf .canvas) State.reset).fetch with bus := some ⟨.r0, .dataLast, 3, []⟩ } .r0
      ((transferOf .canvas).req.again && true) = true ∧
    (sideOf (lastOnBus (inState .done)).fetch .r0).transfer = some previewAgain ∧ previewAgain.req.again = true ∧
    (sideOf (lastOnBus (inState .done)).fetch .r0).held.isNone = false ∧
    endingOnBus (lastOnBus (inState .done)).fetch .r0 (previewAgain.req.again && false) = true ∧
    sweepKind (transferOf .guide).req.kind = false := by decide
/-- R163: at ARM, ABORT and SELFTEST a canvas transfer on an idle bus has its ERROR NO_SWEEP header, with the item it was
at, on the bus. -/
theorem test_discard_ends_a_canvas_transfer :
    ∀ c ∈ [Instr.arm 1 [], .abort 1 [], .selftest 1 []],
      after (exec c (linked (side0 (transferOf .canvas) (inState .done)))) (fun t => t.fetch.bus) =
        some (some ⟨.r0, .errorNoSweep, 3, []⟩) := by decide
/-- R146, R163: the discard withdraws the transfer's memory request and drops the burst of it in progress. -/
theorem test_discard_withdraws_memory_requests :
    after (exec (.abort 1 []) (linked (onMemory (side0 (transferOf .canvas) (inState .opened)))))
      (fun t => (t.arb.fetchWait, t.arb.inProgress)) =
        some (none, some (.fetch ⟨.r0, .canvas, 3, 0, 64, 86016⟩ [] false)) := by decide
/-- R150, R162, R163: the DATA_LAST of a repeating transfer with a request held ends it, and the held request is stale. -/
theorem test_discard_with_the_last_burst_on_the_bus :
    after (exec (.abort 1 []) (linked (lastOnBus (inState .done)))) (fun t => (t.fetch.p0.posted, t.fetch.p0.held)) =
      some (none, some (⟨.strips, 0, 1, false⟩, true)) := by decide
theorem witness_StartSetsOpenPending : commandTaken (linked (inState .armed)) = true := by decide
/-- Nothing queued and every slot FREE. -/
abbrev drainsEmpty (s : State) : Prop := s.ingest.queue = [] ∧ ∀ slot ∈ s.ingest.slots, slot.state = .free
/-- A sweep state with the opening frame HELD in the last slot. -/
def heldIn (x : SweepState) : State := { pool [.free, .free, .free, .free, .free, .held] (inState x) with
  place := { Placement.reset with saved := some ⟨100, List.replicate 8 100, FrameFlags.clear⟩ } }
/-- The slots of that state, as the drain-completion test asks for them. -/
theorem heldIn_slots (x : SweepState) (j : Nat) :
    slotState (heldIn x).ingest.slots j = if j = 5 then .held else .free := by
  match j with
  | 0 | 1 | 2 | 3 | 4 | 5 => rfl
  | n + 6 => simp [heldIn, pool, slotState]
theorem witness_StopByState :
    commandTaken (linked (inState .armed)) = true ∧ (linked (inState .armed)).sweep.state = .armed ∧
    commandTaken (linked (pool [.filling] (inState .opened))) = true ∧
    anySlot (pool [.filling] (inState .opened)).ingest.slots .filling = true ∧
    anySlot (pool [.engaged] (inState .opened)).ingest.slots .engaged = true ∧
    (linked (inState .draining)).sweep.state = .draining ∧
    (commandTaken (linked (inState .opened)) = true ∧ drainsEmpty (linked (inState .opened))) ∧
    commandTaken (linked (heldIn .opened)) = true := by decide
/-- R16, R81: with nothing to drain but the HELD opening frame, STOP hands it over. -/
theorem test_stop_hands_the_opening_frame_over :
    after (exec (.stop 1 []) (linked (heldIn .opened)))
      (fun t => (t.sweep.state, slotState t.ingest.slots 5, t.comp.state, t.comp.job.map StripJob.strip0)) =
      some (.draining, .engaged, .compositing, some true) := by decide
theorem witness_AbortByState :
    ∀ x ∈ [SweepState.init, .test, .idle, .armed, .opened, .draining, .done],
      commandTaken (linked (inState x)) = true ∧ (linked (inState x)).sweep.state = x := by decide
theorem witness_QueryReturnsTheSnapshot :
    commandTaken (linked (inState .init)) = true ∧ State.reset.comp.strips.length < 65536 ∧ 12 < 13 ∧ 4294967295 < 4294967296 ∧
    fitsSigned 1 (-128) ∧ fitsSigned 6 1099511627776 := by
  unfold fitsSigned; decide
theorem witness_ReadAttentionAnswersTheFirstCause : commandTaken (linked (inState .test)) = true := by decide
theorem witness_AckAttentionByCause :
    commandTaken (linked (inState .idle)) = true ∧ ((8 : Byte).toNat = 0 ∨ 7 < (8 : Byte).toNat) ∧
    (1 : Byte).toNat = 0 + 1 ∧ (0b0000100 : BitVec 7).getLsbD 0 = false ∧
    (3 : Byte).toNat = 2 + 1 ∧ (0b0000100 : BitVec 7).getLsbD 2 = true ∧
    (7 : Byte).toNat = 6 + 1 ∧ (0b1000000 : BitVec 7).getLsbD 6 = true ∧
    ¬(6 = 2 ∧ State.reset.motion.link = .lost) := by decide
theorem witness_SetAttentionReplacesTheEnables :
    commandTaken (linked (inState .idle)) = true ∧ (linked (inState .idle)).sweep.state ≠ .init ∧
    commandTaken (linked (inState .init)) = true ∧ (linked (inState .init)).sweep.state = .init := by decide
theorem witness_SelftestBegins :
    commandTaken (linked (inState .idle)) = true ∧ commandTaken (linked (inState .done)) = true := by decide
/-- A link with a reply of one payload byte. -/
def replyLink (latched : Option LinkStatus) : ControlLink := ⟨latched, none, some ⟨9, 7, .done, 0, [2]⟩, [], false⟩
theorem witness_StatusAndReplyTransactions :
    (replyLink (some .replyReady)).latched = some .replyReady ∧ (replyLink none).reply = some ⟨9, 7, .done, 0, [2]⟩ ∧
    (linked State.reset).ctl.latched = some .noReply ∧ LinkStatus.noReply ≠ .replyReady ∧
    State.reset.inReset = false ∧ { State.reset with inReset := true }.inReset = true ∧
    (resetState 1 State.reset).ctl.command.isSome = true ∧
    ((replyLink none).command = none ∧ (replyLink none).reply.isSome = true) ∧
    (State.reset.ctl.command = none ∧ State.reset.ctl.reply = none) := by decide
theorem witness_TimeLimitBeginsTheDrain :
    limited.sweep.openTime = some 100 ∧ limited.sweep.state = .opened ∧ limited.sweep.limitRunning = true ∧
    anySlot (pool [.filling] limited).ingest.slots .filling = true ∧
    (inState .done).sweep.limitRunning = false ∧ (100 : Time) + BitVec.ofNat 32 1440000000 = 1440000100 ∧
    drainsEmpty limited := by decide
/-- R15: with nothing to drain the limit ends the sweep, and with the HELD opening frame alone that frame is composited. -/
theorem test_time_limit_completes_the_drain :
    after (exec .sweepTimeLimit (small limited)) (fun t => (t.sweep.state, t.sweep.lastReason, t.comp.state)) =
      some (.done, .timeLimit, .closing) ∧
    after (exec .sweepTimeLimit { heldIn .opened with sweep := limited.sweep })
      (fun t => (t.sweep.state, slotState t.ingest.slots 5, t.comp.state)) = some (.draining, .engaged, .compositing) := by
  decide
/-- A sweep state with one end request sent. -/
def asked (x : SweepState) (r : EndReason) : State := { State.reset with sweep := { SweepControl.reset with state := x, endRequests := [r] } }
theorem witness_EndRequestEndsTheSweep :
    EndReason.fault ∈ (asked .opened .fault).sweep.endRequests ∧ (asked .opened .fault).sweep.state = .opened ∧
    EndReason.closed ∈ (asked .draining .closed).sweep.endRequests ∧ (asked .draining .closed).sweep.state = .draining ∧
    EndReason.extent ∈ (asked .done .extent).sweep.endRequests ∧ (asked .done .extent).sweep.state = .done := by decide
/-- A preview update of two columns under way, everything read, with a write burst of it in progress and a CLOSED request
sent. -/
def absorbing : State :=
  let s : State := { asked .opened .closed with
    sweepCfg := smallCfg
    comp := { Compositor.initial smallCfg with
      state := .updating, todo := previewUnits smallCfg CanvasStore.reset (closingColumns smallCfg CanvasStore.reset) } }
  { s with arb := { s.arb with
      compReads := some [], inProgress := some (.engine .compositor true [] (engineAreas s .compositor)) } }
theorem witness_AbsorbedUpdate :
    EndReason.closed ∈ absorbing.sweep.endRequests ∧ absorbing.sweep.state = .opened ∧ absorbing.comp.state = .updating ∧
    absorbing.arb.inProgress = some (.engine .compositor true [] (engineAreas absorbing .compositor)) ∧
    absorbing.arb.compReads = some [] ∧
    moveFits .compositor true [] (engineAreas absorbing .compositor) (.write 50331650 2) absorbing = true ∧
    previewUnits smallCfg absorbing.store (closingColumns smallCfg absorbing.store) = absorbing.comp.todo := by decide
/-- R123, R146: a write that the update had in progress stores its pixel in the closing work too, whatever its column. -/
theorem test_absorbed_write_still_stores :
    (after (exec (.endRequest .closed) absorbing) fun t =>
      (t.comp.state, after (exec (.memoryBurstComplete (.write 50331650 2) ⟨[], [], []⟩) t) fun v => v.store.computed)) =
      some (.closing, some [1]) := by decide
/-- A stall of requester 0 from time 50 on an item, with this burst posted and this one on the bus. -/
def stallOn (kind : FetchKind) (item : Nat) (posted bus : Option ReturnBurst) (s : State) : State :=
  { s with fetch := { FetchPort.reset with
      p0 := { PortSide.reset with
        transfer := some ⟨⟨kind, item, 1, false⟩, item, 0, [], 0, false, none, 0⟩
        phase := .stalled, posted := posted, waitStart := some 50, stallLimit := 100 }
      bus := bus } }
/-- What a command makes of that stall: what the test finds, the stall's start and the status that follows. -/
def stallAfter (c : Instr) (s : State) : Option (Option ItemTest × Option Time × Option BurstStatus) :=
  after (exec c s) fun t =>
    (s.fetch.p0.transfer.map (testItem t .r0), t.fetch.p0.waitStart, (burstOf t.fetch .r0).map ReturnBurst.status)
/-- A sweep that ends, in a canvas of one group, with a memory burst in progress. -/
def ending : State := { small (asked .opened .closed) with
  arb := { Arbiter.reset with inProgress := some (.ingest ⟨0, 64, [1], false⟩ false) } }
/-- R159: at the entry to DONE a group is ready, the preview is not before its columns are computed, and a strip that never
comes is out of range, behind its WAITING header if that is still posted. -/
theorem witness_stallRetested :
    (stallOn .canvas 0 none none ending).fetch.p0.waitStart = some 50 ∧
    stallAfter (.endRequest .closed) (stallOn .canvas 0 none none ending) = some (some .ready, none, none) ∧
    stallAfter (.endRequest .closed) (stallOn .canvas 0 (some ⟨.r0, .waiting, 0, []⟩) none ending) =
      some (some .ready, none, some .waiting) ∧
    (stallOn .canvas 0 none (some ⟨.r0, .waiting, 0, []⟩) ending).fetch.p0.posted = none ∧
    waitingOnBus (stallOn .canvas 0 none (some ⟨.r0, .waiting, 0, []⟩) ending).fetch = true ∧
    stallAfter (.endRequest .closed) (stallOn .preview 0 none none ending) = some (some .stall, some 50, none) ∧
    stallAfter (.endRequest .closed) (stallOn .strips 4 none none ending) = some (some .range, none, some .errorRange) ∧
    stallAfter (.endRequest .closed) (stallOn .strips 4 (some ⟨.r0, .waiting, 4, []⟩) none ending) =
      some (some .range, none, some .waiting) := by
  and_intros
  all_goals decide
/-- R159, R157: at the end of the closing work the preview is ready, and it is prepared. -/
theorem test_stall_ends_with_the_closing_work :
    stallAfter .closingWorkComplete (stallOn .preview 0 none none { small (inState .done) with
      store := { CanvasStore.reset with computed := [0, 1] }
      comp := { Compositor.initial smallCfg with state := .closing } }) = some (some .ready, none, none) := by decide
theorem witness_DrainCompletion :
    ((inState .draining).sweep.state = .draining ∧ (inState .draining).ingest.queue = [] ∧
      ∀ slot ∈ (inState .draining).ingest.slots, slot.state = .free) ∧
    (∀ x, (heldIn x).sweep.state = x ∧ (heldIn x).ingest.queue = [] ∧
      (∀ j, slotState (heldIn x).ingest.slots j = if j = 5 then .held else .free) ∧ 5 < (heldIn x).ingest.slots.length ∧
      (heldIn x).place.saved = some ⟨100, List.replicate 8 100, FrameFlags.clear⟩ ∧ (heldIn x).comp.state = .ready) ∧
    anySlot (pool [.filling] (inState .draining)).ingest.slots .filling = true :=
  ⟨by decide, fun x => ⟨rfl, rfl, heldIn_slots x, Nat.lt_succ_self 5, rfl, rfl⟩, by decide⟩
theorem witness_FrameStartRecordsTheArrival : (inState .armed).ingest.port = .low ∧ State.reset.ingest.port = .low := by decide
/-- The pool with every slot QUEUED but the last. -/
def fiveQueued : State := headerAwaited (pool [.queued, .queued, .queued, .queued, .queued, .free] (inState .opened))
theorem witness_AdmittedHeaderTakesTheLowestFreeSlot :
    fiveQueued.ingest.port = .header 500 ∧ fiveQueued.sweep.state = .opened ∧
    parseHeader (headerWords 3 1280 960 4) = some ⟨3, 1280, 960, 0, 160, false, false, true⟩ ∧
    5 < fiveQueued.ingest.slots.length ∧ slotState fiveQueued.ingest.slots 5 = .free ∧
    (∀ j, j < 5 → slotState fiveQueued.ingest.slots j ≠ .free) ∧
    parseHeader (headerWords 3 1280 960 2) = some ⟨3, 1280, 960, 0, 160, false, true, false⟩ ∧
    (fiveQueued.sweepCfg.frameWidth = 1280 ∧ fiveQueued.sweepCfg.frameHeight = 960) := by decide
theorem witness_RejectedAndDroppedHeaders :
    fiveQueued.ingest.port = .header 500 ∧ (List.replicate 15 (0 : Half)).length < 16 ∧
    parseHeader (headerWords 3 1264 960 0) = some ⟨3, 1264, 960, 0, 160, false, false, false⟩ ∧
    1264 ≠ fiveQueued.sweepCfg.frameWidth ∧
    parseHeader (headerWords 3 1280 960 2) = some ⟨3, 1280, 960, 0, 160, false, true, false⟩ ∧
    (∀ slot ∈ (headerAwaited (pool [.queued, .engaged, .filling, .held] (inState .opened))).ingest.slots, slot.state ≠ .free) ∧
    anySlot (headerAwaited (pool [.engaged] (inState .opened))).ingest.slots .engaged = true ∧
    anySlot (headerAwaited (pool [.filling] (inState .opened))).ingest.slots .filling = true := by
  decide
/-- R10, R15: a header with the STOP mark finds no slot and nothing is left to drain but the held opening frame. -/
theorem test_dropped_stop_header :
    after (exec (.headerArrival (headerWords 3 1280 960 2)) (headerAwaited (pool [.engaged] (inState .opened))))
      (fun t => (t.sweep.state, t.sweep.lastReason, t.sweep.counters.dropped)) = some (.draining, .stopped, 1) := by decide
theorem witness_EligibleHeaderOpensTheSweep :
    (headerAwaited (inState .armed)).ingest.port = .header 500 ∧ (headerAwaited (inState .armed)).ingest.seqRef = none ∧
    parseHeader (headerWords 3 1280 960 1) = some ⟨3, 1280, 960, 0, 160, true, false, false⟩ ∧
    parseHeader (headerWords 3 1280 960 3) = some ⟨3, 1280, 960, 0, 160, true, true, false⟩ ∧
    (∀ slot ∈ (headerAwaited (inState .armed)).ingest.slots, slot.state = .free) ∧
    parseHeader (headerWords 3 1264 960 1) = some ⟨3, 1264, 960, 0, 160, true, false, false⟩ ∧
    parseHeader (headerWords 3 1264 960 3) = some ⟨3, 1264, 960, 0, 160, true, true, false⟩ ∧
    1264 ≠ (headerAwaited (inState .armed)).sweepCfg.frameWidth ∧ (headerAwaited (inState .armed)).ingest.queue = [] ∧
    parseHeader (headerWords 3 1280 960 4) = some ⟨3, 1280, 960, 0, 160, false, false, true⟩ ∧
    parseHeader [] = none ∧ (headerAwaited (inState .armed)).sweep.openPending = false ∧
    (∀ x ∈ [SweepState.init, .test, .idle, .draining, .done], (headerAwaited (inState x)).ingest.port = .header 500) := by
  decide
/-- A motion unit with c good samples and still windows of the same value. -/
def stillMotion (c n : Nat) (v : Int) : Motion := { Motion.reset with
  goodSinceArm := c, yawWindow := List.replicate n v, pitchWindow := List.replicate n v }
set_option maxRecDepth 8000 in
/-- R32: sign −, 255 values 32,768 and one 32,703: the mean is brought to 32,767 before it is used, threshold 64. -/
theorem test_mean_is_clamped_before_use :
    clampedMean (List.replicate 255 32768 ++ [32703]) = 32767 ∧ windowStill 64 (List.replicate 255 32768 ++ [32703]) = true := by
  decide
theorem witness_BiasDecision :
    Configuration.default.biasMode = .auto ∧ { Configuration.default with biasMode := .fixed }.biasMode = .fixed ∧
    max (-32768) (min 32767 ((2 * (stillMotion 64 64 3).yawWindow.sum + 64) / (2 * 64))) = 3 ∧
    64 ≤ (stillMotion 64 64 3).goodSinceArm ∧
    (∀ v ∈ (stillMotion 64 64 3).yawWindow, |v - 3| ≤ 64) ∧ ¬64 ≤ (stillMotion 63 63 3).goodSinceArm := by decide
/-- A FILLING frame in slot 0 with these states in the other slots. -/
def fillingBeside (others : List SlotState) (x : SweepState) : State :=
  { fillingAt 2 true x with
    ingest := { (fillingAt 2 true x).ingest with slots := slotIn .filling :: others.map slotIn }
    place := (heldIn x).place }
/-- R58, R15: in DRAINING the truncation of the last frame completes the drain, or leaves the HELD frame to composite. -/
theorem test_truncation_in_draining :
    after (exec .lineTooLong (fillingBeside [.free] .draining)) (fun t => (t.sweep.state, t.sweep.counters.truncated)) =
      some (.done, 1) ∧
    after (exec .frameEnd (fillingBeside [.held, .free] .draining))
      (fun t => (t.sweep.state, slotState t.ingest.slots 1, t.comp.state)) = some (.draining, .engaged, .compositing) ∧
    after (exec .lineTooLong (fillingAt 2 true .draining)) (fun t => t.sweep.state) = some .draining := by decide
theorem witness_TruncationFreesTheSlot :
    (fillingAt 2 false .opened).ingest.port = .filling 0 2 false ∧ (fillingAt 2 false .opened).sweep.state = .opened ∧
    slotState (fillingAt 2 false .opened).ingest.slots 0 = .filling ∧
    2 ≤ [(⟨0, 0, [], 0⟩ : BufferedLine), ⟨0, 1, [], 0⟩].length ∧ (fillingAt 2 true .opened).ingest.port = .filling 0 2 true ∧
    (List.replicate 15 (0 : Half)).length < smallCfg.frameWidth ∧ State.reset.ingest.port = .low ∧
    (headerAwaited State.reset).ingest.port = .header 500 ∧ (fillingBeside [.free] .draining).sweep.state = .draining ∧
    (fillingBeside [.free] .draining).ingest.port = .filling 0 2 true ∧
    slotState (fillingBeside [.held, .free] .draining).ingest.slots 0 = .filling ∧
    (fillingBeside [.held, .free] .draining).place.saved.isSome = true := by decide
theorem witness_PixelLinesPassThroughTheBuffer :
    (fillingAt 0 false .opened).ingest.port = .filling 0 0 false ∧ (fillingAt 0 false .opened).ingest.lines.length < 2 ∧
    (fillingAt 6 true .opened).ingest.port = .filling 0 6 true ∧ (List.replicate 16 (0 : Half)).length = smallCfg.frameWidth ∧
    6 + 1 < smallCfg.frameHeight := by decide
/-- A GUIDE frame at its last line, with every other slot FREE. -/
def guideLast : State := small { inState .opened with ingest := { Ingest.reset with
  port := .filling 0 7 true, slots := [⟨.filling, ⟨7, 1000, 400, 160, true, false, 0⟩⟩, slotIn .free] } }
theorem witness_LastLineCompletesTheFrame :
    ((fillingAt 7 true .opened).ingest.port = .filling 0 7 true ∧ 7 + 1 = smallCfg.frameHeight ∧
      slotState (fillingAt 7 true .opened).ingest.slots 0 = .filling ∧
      anySlot (fillingAt 7 true .opened).ingest.slots .engaged = true) ∧
    guideLast.ingest.port = .filling 0 7 true ∧ (List.replicate 16 (0 : Half)).length = guideLast.sweepCfg.frameWidth ∧
    7 + 1 = guideLast.sweepCfg.frameHeight ∧ slotState guideLast.ingest.slots 0 = .filling ∧
    (slotInfo guideLast.ingest.slots 0).guide = true ∧ guideLast.place.originYaw = none ∧
    guideLast.sweep.state = .opened ∧ guideLast.ingest.queue = [] ∧ ∀ j, slotState guideLast.ingest.slots j ≠ .engaged := by
  refine ⟨by decide, by decide, by decide, by decide, by decide, by decide, by decide, by decide, by decide, ?_⟩
  intro j
  match j with
  | 0 | 1 => decide
  | n + 2 => simp [guideLast, small, slotState]
/-- A frame at its last line with the engine free, its pose ring holding one entry, or entries around the frame. -/
def lastFree (opening guide : Bool) (ring : List PoseEntry) (dir : Direction) : State := small { inState .opened with
  ingest := { Ingest.reset with
    port := .filling 0 7 true, openingAssigned := !opening
    slots := [⟨.filling, ⟨7, 1000, 400, 160, guide, false, 7⟩⟩] }
  place := { Placement.reset with originYaw := if opening then none else some 10, direction := dir }
  motion := { Motion.reset with ring := ring }
  reg := ⟨.idle, [⟨0, 60, 0, []⟩], [], false⟩ }
/-- Entries at times 100 and 2000. -/
def aroundEntries : List PoseEntry := [⟨100, 10, 0, 5, 0, true, false⟩, ⟨2000, 100000, 4000, 5, 0, false, false⟩]
/-- R66: the row time of row 4 is 1000 + 4 × 10 − 200. -/
theorem witness_FreeEngineTakesTheFrame :
    (∀ opening guide dir, (lastFree opening guide aroundEntries dir).ingest.port = .filling 0 7 true ∧
      (lastFree opening guide aroundEntries dir).sweepCfg.frameWidth = 16 ∧
      slotState (lastFree opening guide aroundEntries dir).ingest.slots 0 = .filling ∧
      (lastFree opening guide aroundEntries dir).ingest.queue = [] ∧
      (lastFree opening guide aroundEntries dir).place.motionLost = false ∧
      (∀ j, slotState (lastFree opening guide aroundEntries dir).ingest.slots j ≠ .engaged) ∧
      (lastFree opening guide aroundEntries dir).reg.lead ≠ []) ∧
    (1000 - BitVec.ofNat 32 0 + BitVec.ofNat 32 (8 / 2 * 160 / 16) - BitVec.ofNat 32 (400 / 2) : Time) = 840 ∧
    lookupRing (aroundEntries.take 1) 840 = none ∧ (lookupRing aroundEntries 840).isSome = true ∧
    (∀ k, k < 8 → (lookupRing aroundEntries (bandTime smallCfg ⟨7, 1000, 400, 160, false, false, 7⟩ k 0)).isSome = true) ∧
    (lastFree true false aroundEntries .unknown).place.direction = .unknown ∧
    (lastFree false true aroundEntries .plus).place.originYaw.isSome = true ∧
    0 < 4 * (16 * (1499 + 1)) ∧ 4 * (16 * (1499 + 1)) < 2147483648 := by
  refine ⟨fun opening guide dir => ⟨rfl, rfl, rfl, rfl, rfl, fun j => ?_, by simp [lastFree, small]⟩, by decide, by decide, by decide,
    by decide, by decide, by decide, by decide, by decide⟩
  match j with
  | 0 => simp [lastFree, small, slotState]
  | n + 1 => simp [lastFree, small, slotState]
/-- R66, R72, R76, R78: the frame waits, is HELD, or is searched. -/
theorem test_free_engine_takes :
    after (exec (.pixelLineClose (List.replicate 16 0)) (lastFree false false (aroundEntries.take 1) .plus))
      (fun t => (t.place.state, slotState t.ingest.slots 0)) = some (.waitMotion, .engaged) ∧
    after (exec (.pixelLineClose (List.replicate 16 0)) (lastFree true false aroundEntries .unknown))
      (fun t => (t.place.state, t.place.originYaw, slotState t.ingest.slots 0)) = some (.ready, some 38953, .held) ∧
    after (exec (.pixelLineClose (List.replicate 16 0)) (lastFree false false aroundEntries .plus))
      (fun t => (t.place.state, t.reg.state, t.place.work.map Working.xC)) = some (.passed, .searching, some 93) := by decide
theorem witness_StrobeAndDataReady :
    (sampling .absent).motion.clockRunning = true ∧ (sampling .absent).motion.tx = .absent ∧
    (sampling (.discarding 5)).motion.tx = .discarding 5 ∧ (sampling (.window 900 850)).motion.tx = .window 900 850 ∧
    ((sampling (.window 900 850)).timeBase - 900).toInt ≤ 12000 ∧
    (12000 : Int) < ({ sampling (.window 900 850) with timeBase := 12901 }.timeBase - 900 : Time).toInt := by decide
/-- A read in flight, with the link in a state and a count of good samples. -/
def readingIn (l : LinkState) (good : Nat) : State :=
  { sampling (.reading 850 1000) with motion := { (sampling (.reading 850 1000)).motion with link := l, goodCount := good } }
/-- The same with the integrator started, its last integrated time given. -/
def integrating (last : Time) : State :=
  { readingIn .sampling 4 with motion := { (readingIn .sampling 4).motion with integ := ⟨⟨0, 0⟩, ⟨0, 0⟩, last, true⟩ } }
theorem witness_GoodSampleJoinsTheTrack :
    (readingIn .sampling 4).motion.tx = .reading 850 1000 ∧ (readingIn .sampling 4).motion.link ≠ .lost ∧
    (readingIn .lost 2).motion.goodCount + 1 < 4 ∧ (readingIn .lost 2).place.state ≠ .waitMotion ∧
    (readingIn .lost 2).ingest.queue = [] ∧ (sampling (.discarding 5)).motion.tx = .discarding 5 ∧
    (readingIn .sampling 4).motion.integ.started = false ∧ (integrating 40).motion.integ.started = true ∧
    (integrating 40).motion.tx = .reading 850 1000 := by decide
/-- R28, R34, R35, with T = 24,000: the Z code 32,767 saturates the yaw; of Δt = 810 both angles take their numerators, of
32,767 × 500 × 810 × 3 the floor 971; and after more than 8 × T the step is that of 192,000 ticks, with GAP. -/
theorem test_sample_is_integrated :
    after (exec (.goodSample 0x000000007fff) (integrating 40)) (fun t => (t.motion.ring, t.motion.integ.yaw)) =
      some ([⟨850, 971, 0, 32767, 0, false, true⟩], ⟨971, 39745000⟩) ∧
    after (exec (.goodSample 0x000100000003) (integrating 0xfff00000)) (fun t => t.motion.ring) =
      some [⟨850, 21, 7, 3, 1, true, false⟩] := by decide
theorem witness_RegainSendsAReanchor :
    (readingIn .lost 3).motion.tx = .reading 850 1000 ∧ (readingIn .lost 3).motion.link = .lost ∧
    3 ≤ (readingIn .lost 3).motion.goodCount ∧ (readingIn .lost 3).place.state ≠ .waitMotion ∧
    (readingIn .lost 3).ingest.queue = [] ∧ [recordAt 850 0] ≠ [] ∧ inCompositing State.reset.comp = false ∧
    inCompositing { State.reset.comp with state := .compositing } = true := by decide
/-- A data-ready window, with a count of misses. -/
def missing (n : Nat) : State :=
  { sampling (.window 900 850) with motion := { (sampling (.window 900 850)).motion with missCount := n } }
theorem witness_MissedSampleAndLoss :
    (missing 6).motion.tx = .window 900 850 ∧ (missing 6).motion.missCount + 1 < 8 ∧ (missing 7).motion.link = .sampling ∧
    7 ≤ (missing 7).motion.missCount ∧ (missing 7).place.state ≠ .waitMotion ∧ (missing 7).ingest.queue = [] := by decide
theorem witness_IntegratorLaw :
    (∀ n, n ≤ [(-36000000000 : Int), 5].length →
      -1099511627776 ≤ ([(-36000000000 : Int), 5].take n).sum / 40960000 ∧
        ([(-36000000000 : Int), 5].take n).sum / 40960000 ≤ 1099511627776) ∧
    1099511627776 < (⟨1099511627776, 0⟩ : AxisIntegral).angle + (40960000 + 0) / 40960000 ∧
    (⟨-1099511627776, 0⟩ : AxisIntegral).angle + (-1 + 0) / 40960000 < -1099511627776 := by decide

/-- The opening frame waiting for motion at its last lookup, at time 200; the newest entry is at time 100. -/
def openingWork : Working :=
  ⟨0, 7, .opening, 0, 0, 0, .track, 150, 10, 0, 0, List.replicate 8 200, List.replicate 7 10, 0, [], none, 0, 0, [],
    FrameFlags.clear, false, false, .band 7⟩
/-- The newest entry of its ring. -/
def newestEntry : PoseEntry := ⟨100, 10, 0, 5, 0, true, false⟩
/-- The state it waits in. -/
def waiting7 : State := { pool [.engaged] (inState .opened) with
  place := { Placement.reset with state := .waitMotion, work := some openingWork, originYaw := some 10, originPitch := some 0 }
  motion := { Motion.reset with ring := [newestEntry] } }
/-- A frame of a class waiting at a stage, with a patch in LEAD. -/
def waitingAt (cls : FrameClass) (stage : PlaceStage) (dir : Direction) : State := { waiting7 with
  place := { waiting7.place with
    direction := dir
    work := some { openingWork with
      cls := cls, stage := stage
      bandYaws := match stage with
        | .band k => List.replicate k 10
        | .reference | .awaitStrip0 | .placed => [] } }
  reg := ⟨.idle, [⟨0, 60, 0, []⟩], [], false⟩ }
theorem witness_WaitExpiryExtrapolatesAndHolds :
    waiting7.place.state = .waitMotion ∧ waiting7.place.work = some openingWork ∧ openingWork.stage = .band 7 ∧
    openingWork.cls = .opening ∧ waiting7.place.motionLost = false ∧ waiting7.place.direction = .unknown ∧
    waiting7.sweep.state = .opened ∧ waiting7.ingest.queue = [] ∧ waiting7.motion.ring.getLast? = some newestEntry ∧
    lookupRing waiting7.motion.ring 200 = none ∧ (200 : Time) = openingWork.bandTimes.getD 7 0 ∧
    (∀ stage ∈ [PlaceStage.reference, .band 0, .band 7],
      (waitingAt .opening stage .unknown).place.work.map (fun w => (w.stage, w.cls)) = some (stage, .opening) ∧
      (waitingAt .ordinary stage .minus).place.work.map (fun w => (w.stage, w.cls)) = some (stage, .ordinary) ∧
      (waitingAt .ordinary stage .minus).reg.lead ≠ [] ∧
      (waitingAt .ordinary stage .minus).place.motionLost = false ∧ (waitingAt .ordinary stage .minus).ingest.queue = []) ∧
    (waitingAt .guide .reference .unknown).place.direction = .unknown := by decide
/-- R73: at the expiry the opening frame is HELD from its reference lookup or a band's, a frame of a decided sweep is
searched at W_f/2 + 64 = 704, its yaw being the origin's, and a GUIDE frame without a direction is released. -/
theorem test_wait_expires :
    ([PlaceStage.reference, .band 0, .band 7].map fun stage =>
      after (exec .motionWaitExpiry (waitingAt .opening stage .unknown))
        fun t => (slotState t.ingest.slots 0, t.place.saved.map fun p => p.bandYaws.length)) =
      List.replicate 3 (some (.held, some 8)) ∧
    ([PlaceStage.reference, .band 0, .band 7].map fun stage =>
      after (exec .motionWaitExpiry (waitingAt .ordinary stage .minus))
        fun t => (t.reg.state, t.place.work.map fun w => (w.xC, w.flags.extrapolated, w.bandYaws.length))) =
      List.replicate 3 (some (.searching, some (704, true, 8))) ∧
    after (exec .motionWaitExpiry (waitingAt .guide .reference .unknown))
      (fun t => (t.sweep.counters.guide, slotState t.ingest.slots 0)) = some (1, .free) := by decide
/-- That wait with a data-ready window open after seven misses. -/
def waitingMiss : State := { waiting7 with
  motion := { waiting7.motion with tx := .window 900 850, link := .sampling, missCount := 7 } }
theorem witness_LossEndsTheWait :
    waitingMiss.comp.strips = [] ∧ waitingMiss.motion.tx = .window 900 850 ∧ waitingMiss.motion.link = .sampling ∧
    7 ≤ waitingMiss.motion.missCount ∧ waitingMiss.place.work = some openingWork ∧ waitingMiss.sweep.state = .opened ∧
    { waiting7 with place := { waiting7.place with motionLost := true } }.place.motionLost = true := by decide
/-- R74: the frame that has met the mark with no strip is extrapolated after a regain, and with strip 0 committed, too. -/
theorem test_loss_is_remembered :
    after (exec .sampleMissed waitingMiss) (fun t => (t.place.saved.isSome, slotState t.ingest.slots 0)) = some (true, .held) ∧
    lookupPose Configuration.default { waiting7 with comp := { waiting7.comp with strips := [recordAt 850 0] } }
      (meetLoss { waiting7 with place := { waiting7.place with motionLost := true } } openingWork) 200 ≠ .wait ∧
    lookupPose Configuration.default waiting7 openingWork 200 = .wait := by decide
/-- A frame of a class waiting at its first lookup in that state, two strips in the table, with these patches of LEAD. -/
def waitingBehindStrips (cls : FrameClass) (lead : List Patch) (c : CompState) : State := { waitingMiss with
  place := { waitingMiss.place with
    direction := .plus, work := some { openingWork with cls := cls, tRef := 1200000, stage := .reference, bandTimes := [] } }
  reg := ⟨.idle, lead, [], false⟩
  comp := { Compositor.initial Configuration.default with state := c, strips := [recordAt 850 0, recordAt 898 800000] } }
theorem witness_LossPlacesByHistory :
    ∀ cls lead c, (waitingBehindStrips cls lead c).place.state = .waitMotion ∧
      (waitingBehindStrips cls lead c).comp.strips = [recordAt 850 0] ++ [recordAt 898 800000] ∧
      (waitingBehindStrips cls lead c).ingest.queue = [] ∧ (waitingBehindStrips cls lead c).sweep.state = .opened ∧
      (waitingBehindStrips cls lead c).motion.tx = .window 900 850 ∧
      (waitingBehindStrips cls lead c).motion.link = .sampling ∧ (waitingBehindStrips cls lead c).motion.missCount = 7 ∧
      slotState (waitingBehindStrips cls lead c).ingest.slots openingWork.slot ≠ .free ∧
      closureDue Configuration.default cls [] none (bandEdges Configuration.default 922 (List.replicate 8 0)) = false ∧
      (waitingBehindStrips cls lead c).comp.state = c ∧ (waitingBehindStrips cls lead c).reg.lead = lead :=
  fun _ _ _ => ⟨rfl, rfl, rfl, rfl, rfl, rfl, rfl, by simp [waitingBehindStrips, waitingMiss, waiting7, pool, slotIn, slotState, openingWork],
    by simp [closureDue], rfl, rfl⟩
/-- R74, R83, with 4.11.4's numbers: at the loss the frame goes to the history column 922. -/
theorem test_loss_places_by_history :
    after (exec .sampleMissed (waitingBehindStrips .ordinary [⟨0, 0, 0, []⟩] .ready))
      (fun t => (t.reg.state, t.place.work.map fun w => (w.source, w.xC, w.flags.extrapolated))) =
      some (.searching, some (.history, 922, true)) ∧
    after (exec .sampleMissed (waitingBehindStrips .guide [] .ready))
      (fun t => (t.sweep.counters.guide, slotState t.ingest.slots 0)) = some (1, .free) ∧
    after (exec .sampleMissed (waitingBehindStrips .ordinary [] .updating)) (fun t => t.comp.waiting.map StripJob.xC) =
      some (some 922) := by decide
/-- That wait, or one of another frame at its first lookup, with a read in flight that the sample of time 850 ends. -/
def waitingRead (w : Working) : State := { waiting7 with
  place := { waiting7.place with work := some w }
  motion := { Motion.reset with ring := [newestEntry], link := .sampling, tx := .reading 850 1000 } }
/-- A frame of a class in slot 0 with its reference yaw, at its first lookup. -/
def referenceWork (cls : FrameClass) (yaw : Int) : Working :=
  { openingWork with cls := cls, tRef := 800, refYaw := yaw, stage := .reference, bandYaws := [], bandTimes := [] }
theorem witness_WaitEndsAtAGoodSample :
    (waitingRead openingWork).place.state = .waitMotion ∧ (waitingRead openingWork).place.motionLost = false ∧
    (waitingRead openingWork).place.direction = .unknown ∧ (waitingRead openingWork).ingest.queue = [] ∧
    (waitingRead openingWork).motion.tx = .reading 850 1000 ∧ (waitingRead openingWork).motion.link ≠ .lost ∧
    (lookupRing (sampleMotion 850 5 (waitingRead openingWork)).ring (lookupTime openingWork)).isSome = true ∧
    (lookupRing (sampleMotion 850 5 (waitingRead (referenceWork .ordinary 0))).ring
      (lookupTime (referenceWork .ordinary 0))).isSome = true ∧
    (referenceWork .ordinary 0).cls ≠ .opening := by decide
/-- The direction step's state, with the opening frame HELD in slot 1. -/
def deciding (c : CompState) : State := { pool [.engaged, .held] (inState .opened) with
  place := { Placement.reset with state := .placing, saved := some ⟨0, List.replicate 8 0, FrameFlags.clear⟩, originYaw := some 0 }
  comp := { Compositor.initial Configuration.default with state := c } }
/-- R79, R80: 31 columns on is still, 32 decides, −32 decides the other way. -/
theorem witness_DirectionStep :
    (deciding .ready).place.direction = .unknown ∧ (deciding .ready).sweep.state = .opened ∧
    slotState (deciding .ready).ingest.slots 0 ≠ .free ∧ firstSlot (deciding .ready).ingest.slots .held = some 1 ∧
    (deciding .updating).comp.state = .updating ∧
    (directionStep (referenceWork .guide 0) (deciding .ready)).sweep.counters.guide = 1 ∧
    (directionStep (referenceWork .ordinary 57599) (deciding .ready)).sweep.counters.still = 1 ∧
    (directionStep (referenceWork .ordinary 57600) (deciding .ready)).place.direction = .plus ∧
    (directionStep (referenceWork .ordinary (-57600)) (deciding .ready)).place.direction = .minus ∧
    (directionStep (referenceWork .ordinary 57600) (deciding .ready)).comp.state = .compositing := by decide
/-- The least frame and the largest margin that R170 admits beside it. -/
def leastCfg : Configuration := { Configuration.default with frameWidth := 320, frameHeight := 240, margin := 56 }
theorem witness_BandRowsLieInTheFrame :
    leastCfg.frameHeight % 8 = 0 ∧ leastCfg.margin % 4 = 0 ∧ 2 * leastCfg.margin + 128 ≤ leastCfg.frameHeight ∧ 7 < 8 ∧
    -(leastCfg.margin : Int) ≤ -56 ∧ (56 : Int) ≤ leastCfg.margin := by decide
theorem witness_ReanchorPredictsTheHistoryColumn :
    0 < Configuration.default.columnAngle ∧ Direction.minus ≠ .unknown ∧
    (-813642 : Int) =
      reanchorTrim Configuration.default .minus [recordAt 850 0, recordAt 898 800000] 100000 ⟨1050000, 537442⟩ ∧
    -1099511627776 < (-813642 : Int) ∧ (-813642 : Int) < 1099511627776 := by decide
theorem witness_BestOffsetIsTheFirst :
    bestOffset [((1, 1), 9), ((2, 0), 9)] = some ((2, 0), 9) ∧ bestOffset [] = none ∧ ((1, 1) : Int × Int) ≠ (2, 0) := by decide
theorem witness_ConsensusIsMeasured :
    (consensus 2 [(2, 0), (2, 1), (9, 0)]).correction = some (2, 0) ∧ [((2, 0) : Int × Int)].length < 2 ∧
    (consensus 3 [(2, 0), (2, 1), (9, 0)]).inliers < 3 := by decide
/-- A small frame on a wide canvas. -/
def wideCfg : Configuration := { smallCfg with canvasWidth := 8192 }
/-- A placed frame of a class at column x in slot 0. -/
def placedWork (cls : FrameClass) (x : Int) : Working :=
  ⟨0, 7, cls, 0, 0, 0, .track, 900, 10, 0, 0, List.replicate 8 900, List.replicate 8 10, x, List.replicate 8 0, none, 0, 0, [],
    FrameFlags.clear, false, false, .placed⟩
/-- Its search under way, every line of it written. -/
def searching (cls : FrameClass) (x : Int) (c : CompState) : State := { inState .opened with
  sweepCfg := wideCfg
  ingest := { Ingest.reset with slots := [⟨.engaged, ⟨7, 1000, 400, 160, false, false, 8⟩⟩] }
  place := { Placement.reset with state := .passed, work := some (placedWork cls x), direction := .plus }
  reg := ⟨.searching, [], [], false⟩
  comp := { Compositor.initial wideCfg with state := c, front := 100, clean := some 0 } }
/-- The result of that search: LEAD holds no patch. -/
theorem searching_result (cls : FrameClass) (x : Int) (c : CompState) :
    searchResult wideCfg (searching cls x c).store (searchFrame (searching cls x c) (placedWork cls x)) [] [] false =
      ⟨none, 0, 0, none⟩ := by
  simp [searchResult, searchTable, consensus]
theorem witness_SearchResultIsTakenUp :
    (∀ cls x c, (searching cls x c).reg.state = .searching ∧ (searching cls x c).place.work = some (placedWork cls x) ∧
      (searching cls x c).sweep.state = .opened ∧ (searching cls x c).ingest.queue = [] ∧
      (searching cls x c).sweepCfg.frameHeight ≤
        (slotInfo (searching cls x c).ingest.slots (placedWork cls x).slot).linesWritten ∧
      (∀ j, slotState (searching cls x c).ingest.slots j = .engaged ↔ j = (placedWork cls x).slot) ∧
      (searching cls x c).comp.state = c ∧ readsLeft (searching cls x c) .registration = []) ∧
    (RegResult.mk none 0 0 none).correction.getD (0, 0) = (0, 0) ∧
    classifyStrip wideCfg 0 (leastEnd wideCfg (bandEdges wideCfg (108 - 0) (List.replicate 8 0))) = (.normal, 116) ∧
    (wideCfg.minAdvance : Int) ≤ 116 - 100 ∧
    classifyStrip wideCfg 0 (leastEnd wideCfg (bandEdges wideCfg (106 - 0) (List.replicate 8 0))) = (.normal, 114) ∧
    114 - 100 < (wideCfg.minAdvance : Int) := by
  refine ⟨fun cls x c => ⟨rfl, rfl, rfl, rfl, Nat.le_refl 8, fun j => ?_, rfl, rfl⟩, by decide, by decide, by decide, by decide, by decide⟩
  match j with
  | 0 => simp [searching, slotState, placedWork]
  | n + 1 => simp [searching, slotState, placedWork]
theorem witness_BlendStaysBetween : 0 < 64 ∧ 63 < 64 ∧ 0 ≤ 255 ∧ 255 ≤ 255 ∧ 0 ≤ 63 := by decide
theorem witness_SeamsAreCandidates :
    workedCosts.getD 6 [] = [] ∧ workedCosts.getD 7 [] ≠ [] ∧ workedCosts.getD 0 [] ≠ [] ∧
    (match (accumulateBands 4 none workedCosts).getD 4 none with
      | some above => jumpApplies 4 above.feasible (workedCosts.getD 5 [])
      | none => false) = true ∧ workedCosts.getD 5 [] ≠ [] ∧
    (∀ k, 0 ≤ k → k ≤ 5 → workedCosts.getD k [] ≠ []) ∧ workedCosts.getD (5 + 1) [] = [] ∧
    (workedCosts.getD 5 []).head? = some (3980, 700) ∧ (workedCosts.getD 5 []).getLast? = some (3992, 900) := by
  refine ⟨by decide, by decide, by decide, by decide, by decide, fun k _ h => ?_, by decide, by decide, by decide⟩
  interval_cases k <;> decide
/-- A strip whose bands begin at a column, up to a new front. -/
def jobFrom (edge newFront : Int) : StripJob := { jobDone with edges := List.replicate 8 edge, newFront := newFront, planned := false }
/-- That strip, one of class CLOSING. -/
def closingJob : StripJob := { jobFrom 60 116 with cls := .closing }
/-- Slot 0 with the pixel (180, 40) in column 10 of line 3, and the cell of column 70 and row 3 written with (100, 20). -/
def blendStore : CanvasStore := { CanvasStore.reset with
  mem := [(slotAddress wideCfg 0 3 10, 180), (slotAddress wideCfg 0 3 10 + 1, 40),
    (cellAddress wideCfg 70 3, 100), (cellAddress wideCfg 70 3 + 1, 20)]
  coverage := [coverageIndex 3 70] }
/-- A preview update with nothing left to write and a placement held, of whose frame this many lines are written. -/
def planningFrom (lines : Nat) : State := { inState .opened with
  sweepCfg := wideCfg
  ingest := { Ingest.reset with slots := [⟨.engaged, ⟨7, 1000, 400, 160, false, false, lines⟩⟩] }
  comp := { Compositor.initial wideCfg with state := .updating, front := 100, waiting := some (jobFrom 100 0) } }
set_option maxRecDepth 8000 in
theorem witness_WritesStayAboveTheSettledFront :
    (jobFrom 100 116).strip0 = false ∧ wideCfg.blend % 2 = 0 ∧
    (0 : Int) ≤ max (100 - wideCfg.seamReach - (wideCfg.blend / 2 : Nat)) 0 ∧
    (115 : Int) ∈ writtenColumns wideCfg 100 (jobFrom 100 116)
      (stripSeams wideCfg State.reset.store .plus 100 (jobFrom 100 116)) 7 ∧
    (wideCfg.mode = .linear ∧ ringCfg.mode = .ring ∧ (jobFrom 60 116).cls = .normal ∧ closingJob.cls = .closing) ∧
    (3 * 16384 + storedColumn wideCfg 70 ∈ blendStore.coverage ∧ 3 * 16384 + storedColumn wideCfg 71 ∉ blendStore.coverage ∧
      3 * bandRows wideCfg ≤ 3 ∧ 3 < (3 + 1) * bandRows wideCfg ∧ (72 : Int) - 8 ≤ 70 ∧ (70 : Int) < 72 + 8) ∧
    ((inCompositing (planningFrom 8).comp = false ∧ inCompositing (planningFrom 7).comp = false) ∧
      (after (exec .previewUpdateComplete (planningFrom 8)) fun t =>
        (t.comp.state, t.comp.job.map StripJob.planned, t.comp.todo.length)) = some (.compositing, some true, 128) ∧
      (after (exec .previewUpdateComplete (planningFrom 7)) fun t => (t.comp.job.map StripJob.planned, linesReady t 0)) =
        some (some false, false)) := by
  and_intros
  all_goals decide
/-- R116, R117, B = 16: with a seam at 72 column 70 is z = 6 of the zone; a closing strip's column 70 beyond G + W_ring − B,
W_ring = 11,520, is z = 4 of the reverse zone; outside both, and over an unwritten cell, the frame's pixel stands. -/
theorem test_strip_pixel :
    stripPixel wideCfg blendStore .plus 0 (jobFrom 60 116) (List.replicate 8 (some 72)) 3 70 3 =
      (BitVec.ofNat 8 ((100 * 19 + 180 * 13 + 16) / 32), BitVec.ofNat 8 ((20 * 19 + 40 * 13 + 16) / 32)) ∧
    stripPixel wideCfg blendStore .plus (70 - 4 - 11520 + 16) closingJob (List.replicate 8 none) 3 70 3 =
      (BitVec.ofNat 8 ((180 * 23 + 100 * 9 + 16) / 32), BitVec.ofNat 8 ((40 * 23 + 20 * 9 + 16) / 32)) ∧
    stripPixel wideCfg blendStore .plus 0 (jobFrom 60 116) (List.replicate 8 (some 100)) 3 70 3 = (180, 40) ∧
    stripPixel wideCfg { blendStore with coverage := [] } .plus 0 (jobFrom 60 116) (List.replicate 8 (some 72)) 3 70 3 =
      (180, 40) := by decide
/-- R115: from the seam less B/2 to the new front, of every band its row. -/
theorem test_strip_units :
    ((stripUnits wideCfg blendStore .plus 100 0 (jobFrom 60 66) (List.replicate 8 (some 72))).map fun u => u.target).take 3 =
      [.cell 0 64, .cell 0 65, .cell 1 64] := by decide
/-- A strip being composited, its seams chosen and nothing left to write. -/
def written : State := writing []
theorem witness_WritesCompleteAskForTheHarvest :
    written.comp.state = .compositing ∧ written.comp.job = some jobDone ∧ jobDone.planned = true ∧ written.comp.todo = [] ∧
    readsLeft written .compositor = [] ∧ written.arb.regReads = none ∧
    readsLeft { written with reg := ⟨.harvesting, [], [], false⟩, arb := { written.arb with regReads := some [5] } } .registration ≠ [] ∧
    eligible ringCfg { CanvasStore.reset with coverage := (List.range 16).map fun i => coverageIndex 0 (60 + i) } 0 60 = true := by
  decide
/-- The harvest of that strip under way. -/
def harvesting : State := { pool [.engaged] (inState .opened) with
  reg := ⟨.harvesting, [], [], false⟩, comp := { Compositor.initial smallCfg with state := .harvesting, job := some jobDone }
  place := { Placement.reset with work := some (placedWork .ordinary 60) } }
theorem witness_HarvestCommitsTheStrip :
    harvesting.reg.state = .harvesting ∧ harvesting.comp.state = .harvesting ∧ harvesting.comp.job = some jobDone ∧
    harvesting.sweep.state = .opened ∧ harvesting.ingest.queue = [] ∧
    slotState harvesting.ingest.slots jobDone.slot ≠ .free ∧ readsLeft harvesting .registration = [] ∧ harvesting.place.work = some (placedWork .ordinary 60) ∧
    (placedWork .ordinary 60).slot = jobDone.slot := by decide
/-- A canvas whose band 0 is covered at the columns 60 to 83, all 0 but one sample of luma 200. -/
def texturedStore (column : Nat) : CanvasStore := { CanvasStore.reset with
  mem := [(cellAddress leastCfg column (bandCentre leastCfg 0), 200)]
  coverage := (List.range 24).map fun i => coverageIndex 0 (60 + i) }
set_option maxRecDepth 8000 in
/-- R88, R89: one sample of luma 200 has energy 800; of equal energies the higher column; 52 is not covered to its end. -/
theorem test_harvest_choice :
    ((harvestTable { leastCfg with textureThreshold := 800 } (texturedStore 70) [52, 60, 68]).map fun p => (p.band, p.x)) =
      [(0, 68)] ∧
    ((harvestTable { leastCfg with textureThreshold := 800 } (texturedStore 62) [52, 60, 68]).map fun p => (p.band, p.x)) =
      [(0, 60)] ∧
    harvestTable { leastCfg with textureThreshold := 801 } (texturedStore 70) [52, 60, 68] = [] ∧
    (leastCfg.frameHeight % 8 = 0 ∧ leastCfg.margin % 4 = 0 ∧ 2 * leastCfg.margin + 128 ≤ leastCfg.frameHeight) ∧
    [(52 : Int), 60, 68].Pairwise (· < ·) := by decide
set_option maxRecDepth 8000 in
/-- R159: the commit of strip 0 ends a stall on it, and one on strip 4 goes on. -/
theorem test_stall_at_a_commit :
    stallAfter .harvestComplete (small (stallOn .strips 0 none none harvesting)) = some (some .ready, none, some .dataLast) ∧
    stallAfter .harvestComplete (small (stallOn .strips 4 none none harvesting)) = some (some .stall, some 50, none) := by decide
/-- The harvest of strip 0 from the HELD slot 0, with the deciding frame waiting in slot 1 and entries in its ring. -/
def harvesting0 (ring : List PoseEntry) (lost : Bool) : State := { harvesting with
  sweepCfg := smallCfg
  ingest := { Ingest.reset with slots := [slotIn .held, slotIn .engaged] }
  comp := { harvesting.comp with job := some { jobDone with strip0 := true } }
  place := { Placement.reset with
    state := .placing, direction := .plus, motionLost := lost, originYaw := some 10
    work := some { placedWork .ordinary 0 with slot := 1, bandYaws := [], stage := .awaitStrip0 } }
  motion := { Motion.reset with ring := ring } }
theorem witness_StripZeroCommitsBeforeTheDecidingFrame :
    ∀ ring lost, (harvesting0 ring lost).reg.state = .harvesting ∧ (harvesting0 ring lost).comp.state = .harvesting ∧
      slotState (harvesting0 ring lost).ingest.slots 0 ≠ .free ∧ slotState (harvesting0 ring lost).ingest.slots 1 = .engaged ∧
      (harvesting0 ring lost).comp.strips = [] ∧ (harvesting0 ring lost).place.motionLost = lost ∧
      (harvesting0 ring lost).sweepCfg = smallCfg ∧ (harvesting0 ring lost).timeBase = 0 ∧
      waitExpired smallCfg 0 (placedWork .ordinary 0) = false ∧
      (placedWork .ordinary 0).metLoss = false ∧ lookupRing [newestEntry] 900 = none ∧
      (lookupRing aroundEntries 900).isSome = true ∧ (placedWork .ordinary 0).bandTimes.getD 7 0 = 900 :=
  fun _ _ => ⟨rfl, rfl, by simp [harvesting0, slotState, slotIn], rfl, rfl, rfl, rfl, rfl, by decide, rfl, by decide, by decide, rfl⟩
set_option maxRecDepth 8000 in
/-- R80, R74: the deciding frame waits for motion, or is history-placed at strip 0's centre. -/
theorem test_deciding_frame_goes_on :
    after (exec .harvestComplete (harvesting0 [newestEntry] false))
      (fun t => (t.place.state, t.place.work.map Working.stage, t.place.saved)) = some (.waitMotion, some (.band 0), none) ∧
    after (exec .harvestComplete (harvesting0 [newestEntry] true))
      (fun t => (t.place.state, t.place.work.map fun w => (w.source, w.xC))) = some (.passed, some (.history, 700)) := by decide
/-- A preview update with nothing left to write. -/
def updating (held : Option StripJob) : State := { pool [.engaged] (inState .opened) with
  sweepCfg := wideCfg, comp := { Compositor.initial wideCfg with state := .updating, front := 100, waiting := held } }
theorem witness_PreviewUpdateAndClosingWorkComplete :
    ((updating none).comp.state = .updating ∧ (updating none).comp.halted = false ∧ (updating none).comp.todo = [] ∧
      (updating none).comp.waiting = none ∧ readsLeft (updating none) .compositor = [] ∧
      (∀ reason ∈ (updating none).sweep.endRequests, reason = .fault)) ∧
    (EndReason.closed ∈ (asked .opened .closed).sweep.endRequests ∧ EndReason.closed ≠ .fault) ∧
    ((updating (some (jobFrom 100 0))).comp.waiting = some (jobFrom 100 0) ∧
      anySlot (updating (some (jobFrom 100 0))).ingest.slots .engaged = true ∧
      classifyStrip wideCfg (stripClean none (jobFrom 100 0)) (leastEnd wideCfg (jobFrom 100 0).edges) = (.normal, 116) ∧
      (wideCfg.minAdvance : Int) ≤ 116 - (updating (some (jobFrom 100 0))).comp.front) ∧
    { updating none with comp := { (updating none).comp with state := .closing } }.comp.state = .closing ∧
    ((updating (some (jobFrom 98 0))).sweep.state = .opened ∧ (updating (some (jobFrom 98 0))).ingest.queue = [] ∧
      slotState (updating (some (jobFrom 98 0))).ingest.slots (jobFrom 98 0).slot ≠ .free ∧ (jobFrom 98 0).strip0 = false ∧
      classifyStrip wideCfg 0 (leastEnd wideCfg (jobFrom 98 0).edges) = (.normal, 114) ∧
      114 - (updating (some (jobFrom 98 0))).comp.front < (wideCfg.minAdvance : Int)) := by decide
/-- R109, R108: a placement held during the update that does not advance is released, the re-anchor applied. -/
theorem test_held_placement_does_not_advance :
    after (exec .previewUpdateComplete (updating (some (jobFrom 98 0))))
      (fun t => (t.sweep.counters.noAdvance, slotState t.ingest.slots 0, t.comp.state, t.comp.waiting)) =
      some (1, .free, .ready, none) := by decide
/-- R120, R129: with the commit's CLOSED request still waiting the update does not end; with a FAULT it does. -/
theorem test_update_waits_for_the_end_request :
    after (exec .previewUpdateComplete { updating none with sweep := (asked .opened .closed).sweep }) (fun t => t.comp.state) =
      some .updating ∧
    after (exec .previewUpdateComplete { updating none with sweep := (asked .opened .fault).sweep }) (fun t => t.comp.state) =
      some .ready := by decide
/-- The last burst of a buffered line in progress. -/
def lastBurst : State := { ingestBurst with
  arb := { Arbiter.reset with inProgress := some (.ingest ⟨0, 64, [1, 2, 3, 4], true⟩ true) }
  ingest := { Ingest.reset with lines := [⟨0, 0, [0x0102, 0x0304], 4⟩] } }
theorem witness_IngestBurstStoresItsBytes :
    memWf lastBurst.store.mem = true ∧
    lastBurst.arb.inProgress = some (.ingest ⟨0, 64, [1, 2, 3, 4], true⟩ true) ∧
    lastBurst.ingest.lines = ⟨0, 0, [0x0102, 0x0304], 4⟩ :: [] ∧
    { lastBurst with arb := { Arbiter.reset with inProgress := some (.ingest ⟨0, 64, [1], true⟩ false) } }.arb.inProgress =
      some (.ingest ⟨0, 64, [1], true⟩ false) := by decide
/-- The harvest of a job's strip, LEAD first or OPENING under way, with these words left to read, in a canvas whose band 0
is covered at the columns 60 to 75 and 668 to 683. -/
def harvestOf (cfg : Configuration) (job : StripJob) (second : Bool) (reads : List Nat) : State :=
  { harvesting with
    sweepCfg := cfg
    reg := ⟨.harvesting, [], [], second⟩
    store := { CanvasStore.reset with
      coverage := (List.range 16).map (fun i => coverageIndex 0 (60 + i)) ++ (List.range 16).map fun i => coverageIndex 0 (668 + i) }
    arb := { Arbiter.reset with regReads := some reads }
    comp := { harvesting.comp with job := some job } }
/-- Strip 0 up to F' = 700, its clean start 60. -/
def job0 : StripJob := { jobDone with strip0 := true, newFront := 700 }
/-- Byte addresses of the first cells of the candidates at F' − 32 and at G in band 0, and the words there. -/
def leadByte : Nat := cellAddress ringCfg 668 (patchRow ringCfg 0)
def openingByte : Nat := cellAddress ringCfg 60 (patchRow ringCfg 0)
/-- A search in a 32 × 16 frame of one patch, whose windows are the whole frame. -/
def searchingWindow : State :=
  { searching .ordinary 108 .ready with
    sweepCfg := { wideCfg with frameWidth := 32, frameHeight := 16 }
    reg := ⟨.searching, [⟨0, 92, 0, []⟩], [], false⟩ }
/-- A search with a closure measurement due, in a 32 × 16 frame: LEAD's windows are the columns 0 to 19 and OPENING's 12 to
31, with these words left to read. -/
def closureSearch (reads : List Nat) : State :=
  { searching .ordinary 11600 .ready with
    sweepCfg := { ringCfg with frameWidth := 32, frameHeight := 16, margin := 0, searchRange := 4 }
    reg := ⟨.searching, [⟨0, 11584, 0, []⟩], [⟨0, 80, 0, []⟩], false⟩
    arb := { Arbiter.reset with
      regReads := some reads, inProgress := some (.engine .registration true [] [⟨0, 1024, true, false⟩]) } }
/-- R102: OPENING's words are read after LEAD's, and LEAD's no more then. -/
theorem witness_SearchOrder :
    (∀ reads, (closureSearch reads).reg.state = .searching ∧
      (closureSearch reads).place.work = some (placedWork .ordinary 11600)) ∧
    frameClosureDue (closureSearch [0, 7]) (placedWork .ordinary 11600) = true ∧
    ((0 : Nat) ∈ readsLeft (closureSearch [0, 7]) .registration ∧
      0 ∈ leadWindows (closureSearch [0, 7]) (placedWork .ordinary 11600) ∧
      7 ∉ leadWindows (closureSearch [0, 7]) (placedWork .ordinary 11600) ∧ 7 ∈ touchedWords 40 24) ∧
    ((∀ word ∈ readsLeft (closureSearch [7]) .registration,
        word ∉ leadWindows (closureSearch [7]) (placedWork .ordinary 11600)) ∧
      0 ∉ openingWindows (closureSearch [7]) (placedWork .ordinary 11600) ∧ 0 ∈ touchedWords 0 24) := by
  refine ⟨fun _ => ⟨rfl, rfl⟩, ?_⟩
  decide
theorem test_opening_is_searched_after_lead :
    after (exec (.memoryBurstComplete (.read 40 24) ⟨[], [], []⟩) (closureSearch [0, 7])) (fun t => t.arb.regReads) =
      some (some [0, 7]) ∧
    after (exec (.memoryBurstComplete (.read 0 24) ⟨[], [], []⟩) (closureSearch [0, 7])) (fun t => t.arb.regReads) =
      some (some [7]) ∧
    after (exec (.memoryBurstComplete (.read 40 24) ⟨[], [], []⟩) (closureSearch [7])) (fun t => t.arb.regReads) =
      some (some []) := by decide
/-- A burst of an operation that has ended, with these pixels left. -/
def endedBurst (late : List WriteUnit) : State :=
  { writing [] with arb := { Arbiter.reset with inProgress := some (.engine .compositor false late (engineAreas (writing []) .compositor)) } }
/-- A pixel of a canvas cell in the first group, in its first row. -/
def cellUnit (column : Nat) : WriteUnit := ⟨16777216 + 2 * column, 7, 9, .cell 0 column⟩
/-- A pixel of preview row 0. -/
def previewUnit (column : Nat) : WriteUnit := ⟨50331648 + 2 * column, 7, 9, .preview column 0⟩
/-- The closing work with these pixels left. -/
def closingWith (todo : List WriteUnit) : State :=
  { inState .done with comp := { Compositor.initial smallCfg with state := .closing, todo := todo } }
/-- The closing work at preview column 0, whose first cell is covered in a word that is known to be uncorrectable. -/
def coveredClosing : State := { closingWith [previewUnit 0] with
  sweepCfg := { smallCfg with frameHeight := 64 }
  store := { CanvasStore.reset with coverage := [0], multiFlaws := [2097152] }
  arb := { Arbiter.reset with compReads := some [2097152] } }
/-- R91: an error while OPENING is harvested empties OPENING alone. -/
theorem test_error_in_the_opening_harvest :
    dropTable ⟨.harvesting, [⟨0, 1, 2, []⟩], [⟨0, 3, 4, []⟩], true⟩ = ⟨.idle, [⟨0, 1, 2, []⟩], [], false⟩ ∧
    dropTable ⟨.harvesting, [⟨0, 1, 2, []⟩], [⟨0, 3, 4, []⟩], false⟩ = ⟨.idle, [], [⟨0, 3, 4, []⟩], false⟩ := by decide
/-- R123, R145: every block the burst read takes the fill pixel, and no other. -/
theorem test_closing_error_fills_the_blocks_read :
    after (exec (.memoryBurstComplete (.read 16777232 16) ⟨[], [2097154], []⟩)
        (engineBurst .compositor (closingWith [previewUnit 0, previewUnit 1])))
      (fun t => (t.comp.todo, t.attn.pendingSet)) =
      some ([previewUnit 0, { previewUnit 1 with y := 0, c := 128 }], 1) := by decide
/-- R123: a write that would finish column 1 while column 0 has a pixel left is no burst of the closing work. -/
theorem test_closing_work_goes_up_the_columns :
    after (exec (.memoryBurstComplete (.write 50331650 2) ⟨[], [], []⟩)
        (engineBurst .compositor (closingWith [previewUnit 0, previewUnit 1]))) (fun t => t.store.computed) = some [] ∧
    after (exec (.memoryBurstComplete (.write 50331648 2) ⟨[], [], []⟩)
        (engineBurst .compositor (closingWith [previewUnit 0, previewUnit 1]))) (fun t => t.store.computed) = some [0] := by
  decide
/-- R123: a block's pixel is written only when the block has been read, and takes the fill if a word of it is known to be
uncorrectable. -/
theorem test_closing_work_reads_its_blocks :
    after (exec (.memoryBurstComplete (.write 50331648 2) ⟨[], [], []⟩) (engineBurst .compositor coveredClosing))
      (fun t => (t.comp.todo, t.arb.compReads)) = some ([previewUnit 0], some [2097152]) ∧
    after (exec (.memoryBurstComplete (.read 16777216 8) ⟨[], [], []⟩) (engineBurst .compositor coveredClosing))
      (fun t => (t.comp.todo, t.arb.compReads, t.attn.pendingSet)) =
      some ([{ previewUnit 0 with y := 0, c := 128 }], some [], 1) := by decide
/-- R118, R144: a pixel is stored, its flag set when the column is done, and its word's error is gone. -/
theorem test_write_stores_and_sets_its_flag :
    after (exec (.memoryBurstComplete (.write 16777216 2) ⟨[], [], []⟩) (engineBurst .compositor
        { writing [cellUnit 0, cellUnit 1] with store := { CanvasStore.reset with singleFlaws := [2097152] } }))
      (fun t => (t.store.mem, t.store.coverage, t.comp.todo, t.store.corrected, t.store.singleFlaws)) =
      some ([(16777216, 7), (16777217, 9)], [0], [cellUnit 1], 1, []) := by decide
/-- R91: a word of a candidate that is known to be uncorrectable stops the harvest when it is read, and until it is read the
harvest does not complete. -/
theorem test_harvest_meets_a_known_error :
    after (exec .harvestComplete (harvestOf ringCfg job0 false [leadByte / 8])) (fun t => (t.reg.state, t.comp.strips)) =
      some (.harvesting, []) ∧
    after (exec (.memoryBurstComplete (.read leadByte 8) ⟨[], [], []⟩) (engineBurst .registration
        { harvestOf ringCfg job0 false [leadByte / 8] with
          store := { (harvestOf ringCfg job0 false []).store with multiFlaws := [leadByte / 8] } }))
      (fun t => (t.reg.state, t.comp.state, t.attn.pendingSet, t.sweep.endRequests)) = some (.idle, .ready, 1, [.fault]) := by
  decide
/-- R91: a harvest reads the rows of its eligible candidates and nothing else. -/
theorem test_harvest_reads_its_candidates :
    moveFits .registration true [] (engineAreas (harvestOf ringCfg job0 false [leadByte / 8]) .registration)
      (.read (leadByte - 32) 8) (harvestOf ringCfg job0 false [leadByte / 8]) = false ∧
    moveFits .registration true [] (engineAreas (harvestOf ringCfg job0 false [leadByte / 8]) .registration)
      (.read (leadByte - 8) 16) (harvestOf ringCfg job0 false [leadByte / 8]) = false ∧
    after (exec (.memoryBurstComplete (.read leadByte 8) ⟨[], [], []⟩)
        (engineBurst .registration (harvestOf ringCfg job0 false [leadByte / 8]))) (fun t => t.arb.regReads) = some (some []) := by
  decide
theorem witness_EngineReadErrors :
    (engineBurst .compositor (writing [])).arb.inProgress =
      some (.engine .compositor true [] [⟨0, 2457600, true, false⟩, ⟨16777216, 14680064, true, true⟩]) ∧
    moveWellFormed (.read 2457536 64) = true ∧
    moveFits .compositor true [] (engineAreas (writing []) .compositor) (.read 2457536 64) (writing []) = true ∧
    touchedWords 2457536 64 = (List.range 8).map (fun i => 307192 + i) ∧
    (∃ w ∈ touchedWords 2457536 64, w ∈ (⟨[], [307199], []⟩ : MemErrors).multi) ∧
    (engineBurst .registration searchingWindow).reg.state = .searching ∧
    moveFits .registration true [] (engineAreas searchingWindow .registration) (.read 192 64) searchingWindow = true ∧
    (harvestOf ringCfg job0 false []).reg.state = .harvesting ∧ (harvestOf ringCfg job0 false []).comp.job = some job0 ∧
    onOpening (harvestOf ringCfg job0 false [leadByte / 8, openingByte / 8]) job0 = false ∧
    onOpening (harvestOf ringCfg job0 false [openingByte / 8]) job0 = true ∧
    (harvestOf ringCfg job0 true []).reg.openingHarvest = true ∧
    (harvestOf ringCfg job0 false [leadByte / 8]).arb.regReads = some [leadByte / 8] ∧
    moveFits .registration true [] (engineAreas (harvestOf ringCfg job0 false [leadByte / 8]) .registration) (.read leadByte 8)
      (harvestOf ringCfg job0 false [leadByte / 8]) = true ∧
    moveFits .registration true [] (engineAreas (harvestOf ringCfg job0 false [openingByte / 8]) .registration)
      (.read openingByte 8) (harvestOf ringCfg job0 false [openingByte / 8]) = true ∧
    moveFits .compositor true [] (engineAreas (updating none) .compositor) (.read 16777216 64) (updating none) = true ∧
    moveFits .compositor true [] (engineAreas (closingWith [previewUnit 1]) .compositor) (.read 16777232 16)
      (closingWith [previewUnit 1]) = true ∧
    (∃ dr, dr < 8 ∧ cellAddress Configuration.default (8 * 1) (8 * 0 + dr) < 16777232 + 16 ∧
      16777232 < cellAddress Configuration.default (8 * 1) (8 * 0 + dr) + 16) ∧
    (∀ dr, dr < 8 → 16777232 + 16 ≤ cellAddress Configuration.default (8 * 0) (8 * 0 + dr) ∨
      cellAddress Configuration.default (8 * 0) (8 * 0 + dr) + 16 ≤ 16777232) ∧
    moveFits .compositor false [] (engineAreas (writing []) .compositor) (.read 0 64) (endedBurst []) = true ∧
    (∀ a ∈ engineAreas (writing []) .compositor, a.reads = true → 15000000 < a.base ∨ a.base + a.size < 15000000 + 64) ∧
    ((writing []).comp.state = .compositing ∧ (writing []).comp.job.map StripJob.planned = some true ∧
      coveredClosing.arb.compReads = some [2097152]) ∧
    67108864 < 67108801 + 64 := by
  and_intros
  all_goals decide
theorem witness_EngineWriteStaysInItsBurst :
    (∀ u ∈ [cellUnit 0, cellUnit 1], u.addr % 2 = 0) ∧
    memWf (engineBurst .compositor (writing [cellUnit 0, cellUnit 1])).store.mem = true ∧
    (engineBurst .compositor (writing [cellUnit 0, cellUnit 1])).arb.inProgress =
      some (.engine .compositor true [] (engineAreas (writing []) .compositor)) ∧
    moveWellFormed (.write 16777216 2) = true ∧
    moveFits .compositor true [] (engineAreas (writing []) .compositor) (.write 16777216 2) (writing [cellUnit 0, cellUnit 1]) =
      true ∧
    mergedWords (unitsWithin 16777216 2 [cellUnit 0, cellUnit 1]) = [2097152] ∧
    (∃ w ∈ [2097152], w ∈ (⟨[], [2097152], []⟩ : MemErrors).multi) ∧ (writing []).comp.job = some jobDone ∧
    jobDone.planned = true ∧ (∀ v ∈ [cellUnit 0, cellUnit 1], v.target = .cell 0 0 → v = cellUnit 0) ∧
    (closingWith [previewUnit 0]).comp.state = .closing ∧
    moveFits .compositor true [] (engineAreas (closingWith [previewUnit 0]) .compositor) (.write 50331648 2)
      (closingWith [previewUnit 0]) = true ∧
    moveFits .compositor true [] (engineAreas (updating none) .compositor) (.write 50331648 2)
      { updating none with comp := { (updating none).comp with todo := [previewUnit 0] } } = true ∧
    (endedBurst [cellUnit 0]).arb.inProgress =
      some (.engine .compositor false [cellUnit 0] (engineAreas (writing []) .compositor)) ∧
    moveFits .compositor false [cellUnit 0] (engineAreas (writing []) .compositor) (.write 16777216 64) (endedBurst [cellUnit 0]) =
      true ∧ mergedWords (unitsWithin 16777216 64 [cellUnit 0]) = [2097152] := by decide
/-- R144, R146: a late write leaves an uncorrectable word as it was, and the error has no effect. -/
theorem test_late_write_error :
    after (exec (.memoryBurstComplete (.write 16777216 64) ⟨[], [2097152], []⟩) (endedBurst [cellUnit 0]))
      (fun t => (t.store.mem, t.store.multiFlaws, t.attn.pendingSet, t.sweep.endRequests)) = some ([], [2097152], 0, []) := by
  decide
/-- A fetch read waiting for its grant. -/
def arbWaiting (f : Option FetchRead) : State := { inState .done with arb := { Arbiter.reset with fetchWait := f } }
/-- A canvas read of requester 0 at byte `offset` of column group 3. -/
def canvasRead (offset : Nat) : FetchRead :=
  ⟨.r0, .canvas, 3, offset, 64, fetchAddress Configuration.default .canvas 3 offset⟩
/-- That read in progress, for a transfer with as many bytes in hand. -/
def fetchingAt (inHand : Nat) (live : Bool) : State :=
  { side0 { transferOf .canvas with inHand := List.replicate inHand 1, asked := 256 } (inState .done) with
    arb := { Arbiter.reset with inProgress := some (.fetch (canvasRead inHand) (List.replicate 64 2) live) } }
/-- R139, R141: what a read takes at its grant: a stored pixel, and the fill's Y, U, Y, V. -/
theorem test_fetch_bytes :
    fetchBytes smallCfg { CanvasStore.reset with mem := [(16777218, 5), (16777219, 6)], coverage := [1], fill := ⟨1, 2, 3⟩ }
      ⟨.r0, .canvas, 0, 0, 8, 16777216⟩ = [1, 2, 5, 6, 1, 2, 1, 3] ∧
    fetchBytes smallCfg { CanvasStore.reset with mem := [(50331650, 5), (50331651, 6)], computed := [1], fill := ⟨1, 2, 3⟩ }
      ⟨.r1, .preview, 0, 0, 4, 50331648⟩ = [1, 2, 5, 6] := by decide
theorem witness_FetchReadCompletes :
    (arbWaiting (some (canvasRead 0))).arb.fetchWait = some (canvasRead 0) ∧ 63 < (canvasRead 0).len ∧
    (coverageIndex (bandOfRow smallCfg (2 / 32)) (16 * 0 + 2 % 32 / 2) ∈ [1] ∧
      coverageIndex (bandOfRow smallCfg (4 / 32)) (16 * 0 + 4 % 32 / 2) ∉ [1] ∧ 2 / 2 ∈ [1] ∧ 4 / 2 ∉ [1]) ∧
    (fetchingAt 192 true).arb.inProgress = some (.fetch (canvasRead 192) (List.replicate 64 2) true) ∧
    (sideOf (fetchingAt 192 true).fetch .r0).transfer =
      some { transferOf .canvas with inHand := List.replicate 192 1, asked := 256 } ∧
    (sideOf (fetchingAt 192 true).fetch .r0).posted = none ∧
    burstLength (fetchingAt 192 true).sweepCfg (transferOf .canvas) ≤ 192 + 64 ∧
    128 + 64 < burstLength (fetchingAt 128 true).sweepCfg (transferOf .canvas) ∧
    (∃ w ∈ touchedWords (canvasRead 192).addr 64, w ∈ (⟨[], [2107928], []⟩ : MemErrors).multi) ∧
    (fetchingAt 192 false).arb.inProgress = some (.fetch (canvasRead 192) (List.replicate 64 2) false) :=
  ⟨rfl, by decide, by decide, rfl, rfl, rfl, by decide, by decide, by decide, rfl⟩
/-- The arbiter with every client's request waiting or none. -/
def arbWith (i : Option IngestBurst) (e : Option EngineUnit) (f : Option FetchRead) (x : SweepState) : State :=
  { inState x with arb := { Arbiter.reset with ingestWait := i, engineWait := e, fetchWait := f } }
theorem witness_ArbiterChoosesByTheServiceOrder :
    State.reset.sweep.state = .init ∧
    arbiterChoice { inState .test with arb := { Arbiter.reset with selfWait := some ⟨1, 0, 0⟩ } } = some .selfTest ∧
    (arbWith (some ⟨0, 0, [], false⟩) none none .opened).arb.ingestWait.isSome = true ∧
    (arbWith none (some .compositor) (some (canvasRead 0)) .done).arb.engineWait.isSome = true ∧
    (arbWith none (some .compositor) (some (canvasRead 0)) .done).arb.fetchWait.isSome = true ∧
    (arbWith none (some .compositor) none .draining).arb.fetchWait = none ∧
    (arbWith none none (some (canvasRead 0)) .idle).arb.engineWait = none ∧
    (arbWith none (some .compositor) (some (canvasRead 0)) .opened).arb.inProgress = none ∧
    ([Client.ingest, .engine, .fetch, .selfTest].map (waits (arbWith none (some .compositor) (some (canvasRead 0)) .opened).arb)).count true = 2 ∧
    ([Client.ingest, .engine, .fetch, .selfTest].map (waits (arbWith none none (some (canvasRead 0)) .opened).arb)).count true = 1 := by decide
/-- A burst of the ingest unit in progress, requests of the others waiting, with the last-served mark FETCH. -/
def busyArb (e : Option EngineUnit) (f : Option FetchRead) (order : ServiceOrder) : State :=
  { arbWith none e f .opened with
    config := { Configuration.default with serviceOrder := order }
    comp := { Compositor.initial smallCfg with state := .updating, todo := [previewUnit 0] }
    arb := { (arbWith none e f .opened).arb with
      inProgress := some (.ingest ⟨0, 64, [1, 2], false⟩ true), lastServed := .fetch, compReads := some [] } }
/-- R142, R143: what the completion of that burst grants. -/
theorem witness_CompletionGrants :
    unitWants (busyArb (some .compositor) none .rotate) .compositor = true ∧
    operates (busyArb (some .compositor) none .rotate) .compositor = true ∧
    engineReads (busyArb (some .compositor) none .rotate).arb .compositor ≠ none ∧
    after (exec (.memoryBurstComplete (.read 0 64) ⟨[], [], []⟩) (busyArb (some .compositor) (some (canvasRead 0)) .rotate))
      (fun t => t.arb.lastServed) = some .engine ∧
    after (exec (.memoryBurstComplete (.read 0 64) ⟨[], [], []⟩) (busyArb (some .compositor) (some (canvasRead 0)) .fixed))
      (fun t => t.arb.lastServed) = some .fetch := by decide
/-- A guide record request of requester 0. -/
def guideMessage : BitVec 40 := 0xd800000000
/-- A request for strip record 1, and one for records 1 and 2. -/
def stripMessage : BitVec 40 := 0xd000010001
def twoStripsMessage : BitVec 40 := 0xd000010002
/-- Two strips in the table. -/
def twoStrips (s : State) : State := { s with comp := { s.comp with strips := [recordAt 5 6, recordAt 7 8] } }
/-- R158: with no strip in the table requester 1 is answered ERROR RANGE with the index, in OPEN. -/
theorem test_strip_beyond_the_count :
    after (exec (.fetchRequest .r1 stripMessage) { inState .opened with fetch := { FetchPort.reset with
      p1 := { PortSide.reset with line := .shifting } } }) (fun t => t.fetch.bus) = some (some ⟨.r1, .errorRange, 1, []⟩) := by
  decide
/-- R153, R157: a record that exists goes at once to requester 0, the first of two as a DATA burst. -/
theorem test_strip_record_is_sent :
    after (exec (.fetchRequest .r0 twoStripsMessage) (shifting (twoStrips (inState .done)))) (fun t => t.fetch.bus) =
      some (some ⟨.r0, .errorRange, 1, []⟩) ∧
    after (exec (.fetchRequest .r0 twoStripsMessage) (shifting (twoStrips (inState .opened))))
      (fun t => t.fetch.bus.map fun b => (b.status, b.item)) = some (some (.data, 1)) := by decide
theorem witness_FetchRequestIsTakenOrHeld :
    (sideOf State.reset.fetch .r0).line = .idle ∧ requestActive 0xc001020003 = true ∧ (inState .opened).sweep.state ≠ .init ∧
    (sideOf { State.reset.fetch with p0 := { PortSide.reset with line := .ignored } } .r0).line = .ignored ∧
    (sideOf (shifting (inState .opened)).fetch .r0).line = .shifting ∧
    (sideOf (shifting (side0 (transferOf .canvas) (inState .opened))).fetch .r0).transfer = some (transferOf .canvas) ∧
    (sideOf (shifting (inState .opened)).fetch .r0).posted = none ∧ onBus (shifting (inState .opened)).fetch .r0 = false ∧
    checkRequest (inState .idle) (parseRequest 0xc001020003) false = some .errorNoSweep ∧
    (checkRequest (inState .opened) (parseRequest guideMessage) false = none ∧ (parseRequest guideMessage).kind = .guide) ∧
    (parseRequest stripMessage = ⟨.strips, 1, 1, false⟩ ∧ requestActive stripMessage = true ∧
      checkRequest (twoStrips (inState .opened)) (parseRequest stripMessage) false = none ∧
      (twoStrips (inState .opened)).comp.strips[1]?.isSome = true) ∧
    (parseRequest twoStripsMessage = ⟨.strips, 1, 2, false⟩ ∧ requestActive twoStripsMessage = true ∧
      checkRequest (inState .opened) (parseRequest twoStripsMessage) false = none ∧
      (inState .opened).comp.strips.length ≤ 1) ∧
    (checkRequest (inState .done) (parseRequest 0xc001020003) false = none ∧
      memoryKind (parseRequest 0xc001020003).kind = true ∧ itemReady (inState .done) .canvas 258 = true) ∧
    (checkRequest (inState .opened) (parseRequest 0xc001020003) false = none ∧ itemReady (inState .opened) .canvas 258 = false) := by
  and_intros
  all_goals decide
theorem witness_RequestChecksAndGroupReadiness :
    sweepKind .preview = true ∧ (inState .test).sweep.state ∈ [SweepState.idle, .armed, .test] ∧
    (inState .opened).sweep.state ∉ [SweepState.idle, .armed, .test] ∧
    itemLimit (inState .opened) .canvas < 511 + 2 ∧ 511 + 1 ≤ itemLimit (inState .opened) .canvas ∧
    (inState .opened).sweepCfg.mode = .linear ∧ { inState .draining with sweepCfg := ringCfg }.sweepCfg.mode = .ring := by decide
/-- R151: the item limits of the default canvas, LINEAR and RING. -/
theorem test_item_limits :
    [FetchKind.canvas, .preview, .strips].map (itemLimit (inState .opened)) = [512, 112, 256] ∧
    itemLimit { inState .opened with sweepCfg := ringCfg } .canvas = 720 ∧
    itemLimit (twoStrips (inState .done)) .strips = 2 := by decide
/-- The ending burst of requester 0's canvas transfer on the bus. -/
def endingBurst (s : State) : State :=
  { s with fetch := { s.fetch with bus := some ⟨.r0, .abandoned, 3, []⟩ } }
/-- A transfer of requester 0 that an expiry has ended, its ERROR header posted, with a request held and a message shifting. -/
def expired (s : State) : State := { s with fetch := { s.fetch with p0 := { PortSide.reset with
  transfer := some (transferOf .canvas), posted := some ⟨.r0, .errorNotSettled, 4, []⟩, phase := .posted
  held := some (⟨.guide, 0, 0, false⟩, false), line := .shifting } } }
/-- That header on the bus. -/
def expiredOnBus (s : State) : State := { expired s with fetch := { (expired s).fetch with
  p0 := { (expired s).fetch.p0 with posted := none, phase := .sending }, bus := some ⟨.r0, .errorNotSettled, 4, []⟩ } }
theorem witness_AbandonEndsTheTransfer :
    requestActive 0x8000000000 = false ∧ (inState .opened).sweep.state ≠ .init ∧
    (sideOf (shifting (inState .opened)).fetch .r0).line = .shifting ∧
    (sideOf (shifting (inState .opened)).fetch .r0).transfer = none ∧
    (sideOf (shifting (side0 (transferOf .canvas) (inState .opened))).fetch .r0).transfer = some (transferOf .canvas) ∧
    endingOnBus (endingBurst (shifting (side0 (transferOf .canvas) (inState .opened)))).fetch .r0 false = true ∧
    endingOnBus (shifting (side0 (transferOf .canvas) (inState .opened))).fetch .r0 false = false ∧
    (sideOf (expired (inState .opened)).fetch .r0).posted = some ⟨.r0, .errorNotSettled, 4, []⟩ ∧
    (expiredOnBus (inState .opened)).fetch.bus = some ⟨.r0, .errorNotSettled, 4, []⟩ := by decide
/-- R152: an abandon after an expiry is ignored, and a held request stays. -/
theorem test_abandon_after_an_expiry :
    after (exec (.fetchAbandon .r0 0x8000000000) (expiredOnBus (inState .opened)))
      (fun t => (t.fetch.bus.map ReturnBurst.status, t.fetch.p0.held.isSome, t.fetch.p0.posted.isSome)) =
      some (some .errorNotSettled, true, false) := by decide
/-- That burst, with a request of the same requester held. -/
def endingHeld : State :=
  { endingBurst (side0 (transferOf .canvas) (inState .opened)) with fetch := { (endingBurst (side0 (transferOf .canvas) (inState .opened))).fetch with
      p0 := { PortSide.reset with transfer := some (transferOf .canvas), held := some (⟨.guide, 0, 0, false⟩, false) } } }
/-- A repeating canvas transfer, its next item not tested. -/
def repeating : Transfer := { transferOf .canvas with req := ⟨.canvas, 2, 4, true⟩, tested := false }
/-- A burst of requester 0's transfer on the bus. -/
def onBus0 (x : Transfer) (status : BurstStatus) : State :=
  { side0 x (inState .opened) with fetch := { (side0 x (inState .opened)).fetch with bus := some ⟨.r0, status, 3, []⟩ } }
/-- The same with a burst of each requester posted, and the bus turn mark. -/
def bothPosted (turn : Requester) : State :=
  { onBus0 (transferOf .canvas) .data with fetch :=
      { p0 := { PortSide.reset with transfer := some (transferOf .canvas), posted := some ⟨.r0, .data, 3, []⟩ }
        p1 := { PortSide.reset with transfer := some repeating, posted := some ⟨.r1, .dataLast, 0, []⟩ }
        busTurn := turn, memTurn := .r0, bus := some ⟨.r0, .data, 3, []⟩ } }
theorem witness_ReturnBurstCompletes :
    (endingBurst (side0 (transferOf .canvas) (inState .opened))).fetch.bus = some ⟨.r0, .abandoned, 3, []⟩ ∧
    (sideOf (endingBurst (side0 (transferOf .canvas) (inState .opened))).fetch .r0).transfer = some (transferOf .canvas) ∧
    (sideOf (endingBurst (side0 (transferOf .canvas) (inState .opened))).fetch .r0).posted = none ∧
    endsTransfer .abandoned (transferOf .canvas).req.again = true ∧ endsTransfer .dataLast false = true ∧
    (sideOf (endingBurst (side0 (transferOf .canvas) (inState .opened))).fetch .r0).held = none ∧
    (sideOf endingHeld.fetch .r0).held = some (⟨.guide, 0, 0, false⟩, false) ∧
    (∀ x ∈ [transferOf .canvas, repeating], (onBus0 x .data).fetch.bus.map ReturnBurst.requester = some .r0 ∧
      (sideOf (onBus0 x .waiting).fetch .r0).transfer = some x ∧ (sideOf (onBus0 x .dataLast).fetch .r0).posted = none ∧
      (sideOf (onBus0 x .dataLast).fetch .r0).held = none) ∧
    repeating.req.again = true ∧ { repeating with rangeAfter := some 3 }.rangeAfter = some 3 ∧
    repeating.rangeAfter = none ∧ stalled.fetch.p0.waitStart ≠ none ∧
    ((transferOf .canvas).tested = true ∧ memoryKind (transferOf .canvas).req.kind = true) ∧
    (testItem (inState .done) .r0 repeating = .ready ∧ testItem (inState .opened) .r0 repeating = .stall ∧
      testItem (inState .opened) .r1 { repeating with req := ⟨.strips, 0, 4, true⟩ } = .range) ∧
    ((bothPosted .r0).fetch.bus.isSome = true ∧ (bothPosted .r0).fetch.p0.posted = some ⟨.r0, .data, 3, []⟩ ∧
      (bothPosted .r0).fetch.p1.posted = some ⟨.r1, .dataLast, 0, []⟩ ∧ (bothPosted .r1).fetch.busTurn = .r1) := by decide
/-- R161: both posted, ROTATE by default: the one not served last; and R162: a guide record repeats. -/
theorem test_bus_choice :
    after (exec .returnBurstComplete (bothPosted .r1)) (fun t => (t.fetch.bus.map ReturnBurst.requester, t.fetch.busTurn)) =
      some (if State.reset.config.serviceOrder = .rotate then (some .r0, .r0) else (some .r1, .r1)) ∧
    after (exec .returnBurstComplete (onBus0 { repeating with req := ⟨.guide, 0, 0, true⟩ } .dataLast))
      (fun t => (t.fetch.bus.map ReturnBurst.status, t.fetch.p0.transfer.map Transfer.pass)) =
      some (some .dataLast, some 1) := by decide
theorem witness_FetchWaitExpires :
    stalled.fetch.p0.waitStart = some 50 ∧
    stalled.fetch.p0.transfer = some ⟨⟨.strips, 4, 1, false⟩, 4, 0, [], 0, false, none, 0⟩ ∧
    (150 : Time) = 50 + BitVec.ofNat 32 stalled.fetch.p0.stallLimit ∧ stalled.fetch.p0.stallLimit ≠ 0 ∧
    { stalled.fetch.p0 with stallLimit := 0 }.stallLimit = 0 ∧ State.reset.fetch.p0.waitStart = none ∧
    State.reset.fetch.p0.transfer = none := by decide
theorem witness_CommandsKeepTheQueue : ∃ t, exec .powerOn State.reset = .next t := ⟨_, rfl⟩
/-- A state in which the accounting law and the pool rules hold and a frame waits to be admitted. -/
def accountedState : State := { fiveQueued with
  sweep := { fiveQueued.sweep with counters := { Counters.zero with received := 6, still := 1 } }
  pending := [.headerArrival (headerWords 3 1280 960 0)] }
theorem witness_AccountingLawIsKept :
    accountedState.sweep.counters.received = countedFrames accountedState.sweep.counters + occupiedSlots accountedState.ingest.slots ∧
    accountedState.sweep.counters.received < 4294967295 ∧ (after (step accountedState) fun _ => ()) = some () := by decide
/-- A pool with a frame in each state: the deciding frame ENGAGED in slot 0, the opening frame HELD in slot 1 and composited
as strip 0, slot 2 queued, slot 3 FILLING. -/
def busyPool : State := { pool [.engaged, .held, .queued, .filling, .free, .free] (inState .opened) with
  sweepCfg := smallCfg
  ingest := { Ingest.reset with
    port := .filling 3 2 true, queue := [2], openingAssigned := true
    slots := [.engaged, .held, .queued, .filling, .free, .free].map slotIn }
  place := { Placement.reset with state := .placing, work := some { placedWork .ordinary 0 with stage := .awaitStrip0 } }
  comp := { Compositor.initial smallCfg with state := .compositing, job := some { jobDone with slot := 1, strip0 := true } }
  pending := [.frameEnd] }
theorem witness_SlotPoolIsKept : poolSound busyPool ∧ (after (step busyPool) fun t => t.sweep.counters.truncated) = some 1 := by
  refine ⟨⟨by decide, by decide, fun i => ?_, by decide, by decide, by decide, ?_, ?_, by decide, by decide, ?_, by decide⟩, by decide⟩
  · match i with
    | 0 | 1 | 2 | 3 | 4 | 5 => decide
    | n + 6 => simp [busyPool, slotState, portFills]
  · rintro w h
    cases h
    rfl
  · rintro job (h | h) <;> cases h
    exact .inr ⟨rfl, rfl⟩
  · rintro w job hw (h | h) hs <;> cases hw <;> cases h
    exact absurd hs (by decide)
theorem witness_MemoryFormAndTrackSizesAreKept :
    (memWf accountedState.store.mem = true ∧
      (∀ w, w ∈ accountedState.store.singleFlaws → w ∉ accountedState.store.multiFlaws) ∧ accountedState.motion.ring.length ≤ 512 ∧
      accountedState.motion.yawWindow.length ≤ 256 ∧ accountedState.motion.pitchWindow.length ≤ 256 ∧
      (accountedState.motion.integ.started = false → accountedState.motion.integ.yaw = ⟨0, 0⟩ ∧
        accountedState.motion.integ.pitch = ⟨0, 0⟩)) ∧
    (after (step accountedState) fun _ => ()) = some () := by decide

end Sys2Proof
end

section
/-! SUPPORT. What settles keeps of the words left to read, and what it leaves with the ingest unit and the engine at rest. -/

namespace Sys2Proof.Machine

/-! ## What settles keeps of the words left to read -/

/-- Both units of the engine have the same words left to read. -/
def readsAs (u t : State) : Prop := t.arb.regReads = u.arb.regReads ∧ t.arb.compReads = u.arb.compReads

theorem readsAs.refl (u : State) : readsAs u u := ⟨rfl, rfl⟩

theorem readsAs.trans {u m t : State} : readsAs u m → readsAs m t → readsAs u t := by
  rintro ⟨a, b⟩ ⟨c, d⟩; exact ⟨c.trans a, d.trans b⟩

theorem ingestAsk_reads (s : State) : readsAs s (ingestAsk s) := by
  unfold ingestAsk; repeat' split
  all_goals exact ⟨rfl, rfl⟩

theorem engineAsk_reads (s : State) : readsAs s (engineAsk s) := by
  unfold engineAsk; repeat' split
  all_goals exact ⟨rfl, rfl⟩

theorem selfAsk_reads (s : State) : readsAs s (selfAsk s) := by
  unfold selfAsk; repeat' split
  all_goals exact ⟨rfl, rfl⟩

theorem fetchAsk_arb (b : FetchRead) (s : State) : (fetchAsk b s).arb = { s.arb with fetchWait := some b } := by
  simp [fetchAsk]

theorem fetchAskNext_reads (s : State) : readsAs s (fetchAskNext s) := by
  have ask (b : FetchRead) : readsAs s (fetchAsk b s) := by simp [readsAs, fetchAsk_arb]
  unfold fetchAskNext; repeat' split
  · exact .refl s
  · exact ask _
  · exact ask _
  · exact .refl s

theorem askAll_reads (s : State) : readsAs s (askAll s) :=
  (((ingestAsk_reads s).trans (engineAsk_reads _)).trans (fetchAskNext_reads _)).trans (selfAsk_reads _)

theorem grantClient_reads (c : Client) (s : State) : readsAs s (grantClient c s) := by
  unfold grantClient; split <;> split <;> exact ⟨rfl, rfl⟩

theorem grantWaiting_reads (s : State) : readsAs s (grantWaiting s) := by
  unfold grantWaiting; repeat' split
  · exact .refl s
  · exact grantClient_reads ..
  · exact .refl s

theorem grantArrived_reads (s : State) : readsAs s (grantArrived s) := by
  unfold grantArrived; repeat' split
  · exact .refl s
  · exact .refl s
  · exact grantClient_reads ..
  · exact grantClient_reads _ { s with freeIndex := s.freeIndex + 2 }
  · exact .refl s

theorem takeBus_arb (r : Requester) (s : State) : (takeBus r s).arb = s.arb := by
  unfold takeBus; dsimp only; split
  · rfl
  · simp

theorem settleBus_arb (c : Bool) (s : State) : (settleBus c s).arb = s.arb := by
  unfold settleBus; repeat' split
  all_goals simp only [takeBus_arb]

theorem engineWithdraw_reads (s : State) : readsAs s (engineWithdraw s) := by
  unfold engineWithdraw; repeat' split
  all_goals exact ⟨rfl, rfl⟩

/-- Once everything has settled, each unit has left to read what it has planned. -/
theorem settle_reads (b m : Bool) (s : State) : readsAs (planReads (prepareStrip s)) (settle b m s) := by
  have bus (x : State) : readsAs x (settleBus b x) := by simp [readsAs, settleBus_arb]
  have tail (x : State) : readsAs x (askAll (grantArrived (askAll (settleBus b x)))) :=
    (((bus x).trans (askAll_reads _)).trans (grantArrived_reads _)).trans (askAll_reads _)
  cases m
  · exact (engineWithdraw_reads _).trans (tail _)
  · exact ((engineWithdraw_reads _).trans (grantWaiting_reads _)).trans (tail _)

/-! ## Units at rest ask for nothing -/

/-- The ingest unit and the engine have no work and no request at the arbiter (R56, R105, R108, R142). -/
structure AtRest (s : State) : Prop where
  lines : s.ingest.lines = []
  reg : s.reg.state = .idle
  comp : s.comp.state = .ready
  ingestWait : s.arb.ingestWait = none
  engineWait : s.arb.engineWait = none

/-- An operation that leaves the units alone and asks for neither leaves them at rest. -/
theorem AtRest.of_same {s t : State} (h : AtRest s) (hi : t.ingest = s.ingest) (hr : t.reg = s.reg)
    (hc : t.comp = s.comp) (hw : t.arb.ingestWait = s.arb.ingestWait) (he : t.arb.engineWait = s.arb.engineWait) :
    AtRest t :=
  ⟨hi ▸ h.lines, hr ▸ h.reg, hc ▸ h.comp, hw.trans h.ingestWait, he.trans h.engineWait⟩

theorem AtRest.of_onlyFetch {s t : State} (h : AtRest s) (ht : OnlyFetch s t)
    (hw : t.arb.ingestWait = s.arb.ingestWait) (he : t.arb.engineWait = s.arb.engineWait) : AtRest t := by
  obtain ⟨f, a, rfl⟩ := ht
  exact h.of_same rfl rfl rfl hw he

theorem AtRest.prepareStrip_eq {s : State} (h : AtRest s) : prepareStrip s = s := by
  unfold prepareStrip
  split
  · rename_i hc _; rw [h.comp] at hc; cases hc
  · rfl

theorem AtRest.ingestAsk_eq {s : State} (h : AtRest s) : ingestAsk s = s := by
  simp [ingestAsk, h.lines]

theorem AtRest.engineAsk_eq {s : State} (h : AtRest s) : engineAsk s = s := by
  have wants (u : EngineUnit) : unitWants s u = false := by cases u <;> simp [unitWants, h.reg, h.comp]
  simp [engineAsk, nextUnit, wants]

theorem fetchAskNext_atRest {s : State} (h : AtRest s) : AtRest (fetchAskNext s) := by
  refine h.of_onlyFetch (fetchAskNext_only s) ?_ ?_ <;> unfold fetchAskNext <;> repeat' split
  all_goals simp only [fetchAsk_arb]

theorem selfAsk_atRest {s : State} (h : AtRest s) : AtRest (selfAsk s) := by
  unfold selfAsk; repeat' split
  · exact h
  · exact h
  · exact h
  · exact h.of_same rfl rfl rfl rfl rfl

theorem askAll_atRest {s : State} (h : AtRest s) : AtRest (askAll s) := by
  unfold askAll
  rw [h.ingestAsk_eq, h.engineAsk_eq]
  exact selfAsk_atRest (fetchAskNext_atRest h)

theorem grantClient_atRest {s : State} (c : Client) (h : AtRest s) : AtRest (grantClient c s) := by
  cases c <;> simp only [grantClient, h.ingestWait, h.engineWait]
  · exact h
  · exact h
  all_goals
    split
    · exact h.of_same rfl rfl rfl h.ingestWait.symm h.engineWait.symm
    · exact h

theorem grantArrived_atRest {s : State} (h : AtRest s) : AtRest (grantArrived s) := by
  unfold grantArrived; repeat' split
  · exact h
  · exact h
  · exact grantClient_atRest _ h
  · exact grantClient_atRest _ (s := { s with freeIndex := s.freeIndex + 2 }) (h.of_same rfl rfl rfl rfl rfl)
  · exact h

theorem settleBus_atRest {s : State} (c : Bool) (h : AtRest s) : AtRest (settleBus c s) := by
  have take {x : State} (r : Requester) (hx : AtRest x) : AtRest (takeBus r x) :=
    hx.of_onlyFetch (takeBus_only ..) (by rw [takeBus_arb]) (by rw [takeBus_arb])
  unfold settleBus; repeat' split
  · exact h
  · exact h
  · exact take _ h
  · exact take _ h
  · exact take _ h
  all_goals exact take (x := { s with freeIndex := s.freeIndex + 1 }) _ (h.of_same rfl rfl rfl rfl rfl)

theorem AtRest.engineWithdraw_eq {s : State} (h : AtRest s) : engineWithdraw s = s := by
  simp [engineWithdraw, h.engineWait]

/-- With the ingest unit and the engine at rest, nothing of theirs waits at the arbiter and nothing is left to read. -/
theorem AtRest.asksWithdrawn_settle {s : State} (h : AtRest s) : asksWithdrawn (settle false false s).arb := by
  have reads := settle_reads false false s
  have plan : AtRest (planReads s) := h.of_same rfl rfl rfl rfl rfl
  have rest : AtRest (settle false false s) := by
    simp only [settle, h.prepareStrip_eq, plan.engineWithdraw_eq]
    exact askAll_atRest (grantArrived_atRest (askAll_atRest (settleBus_atRest false plan)))
  rw [h.prepareStrip_eq] at reads
  refine ⟨rest.ingestWait, rest.engineWait, reads.1.trans ?_, reads.2.trans ?_⟩
  · simp [planReads, plannedReads, operates, h.reg]
  · simp [planReads, plannedReads, operates, h.comp]

/-! ## With nothing to prepare and no line buffered -/

/-- With the line buffer empty and no frame in compositing, the ports and the arbiter alone settle. -/
theorem settle_eq_of_idle (b m : Bool) (u : State) (hl : u.ingest.lines = []) (hc : u.comp.state ≠ .compositing) :
    ∃ f a r n, settle b m u =
      { u with fetch := f, arb := a, freeIndex := n, selfTest := { u.selfTest with run := r } } := by
  have rest := (settle_settlesTo b m u).1.1
  rw [settle_ingest_of_nil b m u hl, settle_comp_of_ne b m u hc] at rest
  exact ⟨_, _, _, _, rest⟩

end Sys2Proof.Machine
end

section
/-! SUPPORT. A stall of requester 0 tested again (R159), once everything has settled. -/

namespace Sys2Proof.Machine

/-! ## What settles keeps of a transfer with no data burst posted -/

/-- A transfer without its count of bytes asked for. -/
def unasked (t : Transfer) : Transfer := { t with asked := 0 }

/-- No data burst is posted at a requester's side. -/
def noDataPosted (p : PortSide) : Prop := ∀ b, p.posted = some b → b.status ≠ .data ∧ b.status ≠ .dataLast

theorem fetchAsk_unasked (b : FetchRead) (r : Requester) (s : State) :
    (sideOf (fetchAsk b s).fetch r).transfer.map unasked = (sideOf s.fetch r).transfer.map unasked := by
  unfold fetchAsk
  cases b.requester <;> cases r <;> simp only [setSide, sideOf, Option.map_map] <;> rfl

theorem askAll_unasked (r : Requester) (s : State) :
    (sideOf (askAll s).fetch r).transfer.map unasked = (sideOf s.fetch r).transfer.map unasked := by
  have ask (x : State) : (sideOf (fetchAskNext x).fetch r).transfer.map unasked =
      (sideOf x.fetch r).transfer.map unasked := by
    unfold fetchAskNext; repeat' split
    · rfl
    · exact fetchAsk_unasked ..
    · exact fetchAsk_unasked ..
    · rfl
  unfold askAll; rw [selfAsk_fetch, ask, engineAsk_fetch, ingestAsk_fetch]

/-- The bus that takes a header leaves the transfer as it was. -/
theorem takeBus_transfer (q r : Requester) (s : State) (h : noDataPosted (sideOf s.fetch r)) :
    (sideOf (takeBus q s).fetch r).transfer = (sideOf s.fetch r).transfer := by
  unfold takeBus
  dsimp only
  split
  · rfl
  · rename_i b hb
    by_cases e : r = q
    · subst e
      obtain ⟨hd, hl⟩ := h b hb
      cases r <;> simp only [setSide, sideOf]
    · cases q <;> cases r <;> simp_all [setSide, sideOf]

theorem settleBus_transfer (c : Bool) (r : Requester) (s : State) (h : noDataPosted (sideOf s.fetch r)) :
    (sideOf (settleBus c s).fetch r).transfer = (sideOf s.fetch r).transfer := by
  unfold settleBus; repeat' split
  · rfl
  · rfl
  · exact takeBus_transfer _ _ _ h
  · exact takeBus_transfer _ _ _ h
  · exact takeBus_transfer _ _ _ h
  all_goals exact takeBus_transfer _ r { s with freeIndex := s.freeIndex + 1 } h

/-- With no data burst posted, what settles only asks for bytes of the transfer. -/
theorem settle_unasked (r : Requester) (s : State) (h : noDataPosted (sideOf s.fetch r)) :
    (sideOf (settle false false s).fetch r).transfer.map unasked = (sideOf s.fetch r).transfer.map unasked := by
  have port : (engineWithdraw (planReads (prepareStrip s))).fetch = s.fetch :=
    (engineWithdraw_fetch _).trans (prepareStrip_fetch s)
  simp only [settle]
  rw [askAll_unasked, grantArrived_fetch, askAll_unasked, settleBus_transfer]
  · simp [port]
  · simpa [port] using h

/-- A part of requester 0's transfer that asking for bytes does not change is as its side was set. -/
theorem settle_setSide_part {α : Type} (part : Transfer → α) (hp : ∀ t, part (unasked t) = part t) {u : State}
    {p : PortSide} (h : noDataPosted p) :
    (settle false false (setSide .r0 p u)).fetch.p0.transfer.map part = p.transfer.map part := by
  have keep := congrArg (Option.map part) (settle_unasked .r0 (setSide .r0 p u) h)
  have parts : part ∘ unasked = part := funext hp
  rwa [Option.map_map, Option.map_map, parts] at keep

/-! ## A stall of requester 0 tested again (R159) -/

/-- The test of an item looks at the canvas and the strips alone, which the two ports do not change. -/
theorem testItem_of_onlyPort {u t : State} (h : OnlyPort u t) (r : Requester) (x : Transfer) :
    testItem t r x = testItem u r x := by
  obtain ⟨_, _, _, _, _, _, _, rfl⟩ := h; rfl

theorem stripItem_of_onlyPort {u t : State} (h : OnlyPort u t) (item : Nat) : stripItem t item = stripItem u item := by
  obtain ⟨_, _, _, _, _, _, _, rfl⟩ := h; rfl

/-- The test again leaves requester 1, the bus and what requester 0 asked for as they are. -/
theorem retestStall_keeps (u : State) :
    (retestStall u).fetch.p1 = u.fetch.p1 ∧ (retestStall u).fetch.bus = u.fetch.bus ∧
      (retestStall u).fetch.p0.held = u.fetch.p0.held ∧ (retestStall u).fetch.p0.line = u.fetch.p0.line ∧
      (retestStall u).fetch.p0.transfer.map Transfer.req = u.fetch.p0.transfer.map Transfer.req := by
  unfold retestStall
  dsimp only
  split
  · rename_i start x hw hx
    split
    · simp
    · repeat' split
      · simp [setSide, hx]
      · simp [setSide, hx]
      · unfold prepareBurst
        split <;> simp [postData, setSide, sideOf, hx]
    · split <;> simp [endWith, setSide, sideOf, hx]
  · simp

section Retest

variable {u : State} {x : Transfer} {start : Time} (hx : u.fetch.p0.transfer = some x)
  (hw : u.fetch.p0.waitStart = some start)
include hx hw

theorem retestStall_of_stall (h : testItem u .r0 x = .stall) : retestStall u = u := by
  simp [retestStall, hx, hw, h]

/-- Behind its WAITING header still posted, the item's burst follows. -/
theorem retestStall_of_ready_posted {b : ReturnBurst} (h : testItem u .r0 x = .ready)
    (hb : u.fetch.p0.posted = some b) (hs : b.status = .waiting) : retestStall u =
      setSide .r0 { u.fetch.p0 with waitStart := none, transfer := some { x with tested := true }, phase := .posted } u := by
  simp [retestStall, hx, hw, h, waitingPosted, hb, hs]

theorem retestStall_of_ready_onBus (h : testItem u .r0 x = .ready) (hp : u.fetch.p0.posted = none)
    (hb : waitingOnBus u.fetch = true) : retestStall u =
      setSide .r0 { u.fetch.p0 with waitStart := none, transfer := some { x with tested := true } } u := by
  simp [retestStall, hx, hw, h, waitingPosted, hp, hb]

theorem retestStall_of_ready_sent (h : testItem u .r0 x = .ready) (hp : u.fetch.p0.posted = none)
    (hb : waitingOnBus u.fetch = false) : retestStall u =
      prepareBurst .r0 x (setSide .r0 { u.fetch.p0 with waitStart := none } u) := by
  simp [retestStall, hx, hw, h, waitingPosted, hp, hb]

theorem retestStall_of_range_posted {b : ReturnBurst} (h : testItem u .r0 x = .range)
    (hb : u.fetch.p0.posted = some b) (hs : b.status = .waiting) : retestStall u =
      setSide .r0
        { u.fetch.p0 with waitStart := none, transfer := some { x with rangeAfter := some x.item }, phase := .posted } u := by
  simp [retestStall, hx, hw, h, waitingPosted, hb, hs]

theorem retestStall_of_range_sent (h : testItem u .r0 x = .range) (hp : u.fetch.p0.posted = none) :
    retestStall u = endWith .r0 .errorRange x.item u := by
  simp [retestStall, hx, hw, h, waitingPosted, hp]

end Retest

/-- A header posted is no data burst. -/
theorem noDataPosted_of_waiting {p : PortSide} {b : ReturnBurst} (h : p.posted = some b) (hs : b.status = .waiting) :
    noDataPosted p := by
  intro c hc
  obtain rfl : b = c := Option.some.inj (h.symm.trans hc)
  simp [hs]

theorem noDataPosted_of_none {p : PortSide} (h : p.posted = none) : noDataPosted p := by
  intro c hc; rw [h] at hc; cases hc

/-- The item is ready: its burst follows the WAITING header that is still to be sent, or is prepared at once (R159). -/
theorem settle_retestStall_ready {u : State} {x : Transfer} {start : Time} (hx : u.fetch.p0.transfer = some x)
    (hw : u.fetch.p0.waitStart = some start) (h : testItem u .r0 x = .ready) (t : State)
    (ht : t = settle false false (retestStall u)) :
    (∀ b, u.fetch.p0.posted = some b → b.status = .waiting → b.requester = .r0 →
      burstOf t.fetch .r0 = some b ∧ t.fetch.p0.transfer.map Transfer.tested = some true) ∧
    (u.fetch.p0.posted = none → waitingOnBus u.fetch = true → t.fetch.p0.transfer.map Transfer.tested = some true) ∧
    (u.fetch.p0.posted = none → waitingOnBus u.fetch = false →
      (memoryKind x.req.kind = true →
        t.fetch.p0.phase = .preparing ∧ t.fetch.p0.transfer.map Transfer.item = some x.item ∧
        t.fetch.p0.transfer.map Transfer.tested = some true) ∧
      (x.req.kind = .strips → burstOf t.fetch .r0 =
        some ⟨.r0, dataStatus u.sweepCfg x (stripItem u x.item).length, x.item, stripItem u x.item⟩)) := by
  subst ht
  refine ⟨fun b hb hs hr => ?_, fun hp hb => ?_, fun hp hb => ⟨fun hm => ?_, fun hk => ?_⟩⟩
  · rw [retestStall_of_ready_posted hx hw h hb hs]
    exact ⟨settle_burst false false hb hr,
      settle_setSide_part Transfer.tested (fun _ => rfl) (by exact noDataPosted_of_waiting hb hs)⟩
  · rw [retestStall_of_ready_onBus hx hw h hp hb]
    exact settle_setSide_part Transfer.tested (fun _ => rfl) (by exact noDataPosted_of_none hp)
  · rw [retestStall_of_ready_sent hx hw h hp hb]
    have prepared : prepareBurst .r0 x (setSide .r0 { u.fetch.p0 with waitStart := none } u) =
        setSide .r0 { u.fetch.p0 with
          waitStart := none, transfer := some { x with inHand := [], asked := 0, tested := true }, phase := .preparing } u := by
      cases hk : x.req.kind <;> simp_all [prepareBurst, memoryKind, setSide, sideOf]
    rw [prepared]
    exact ⟨settle_phase .r0 _ hp,
      settle_setSide_part Transfer.item (fun _ => rfl) (by exact noDataPosted_of_none hp),
      settle_setSide_part Transfer.tested (fun _ => rfl) (by exact noDataPosted_of_none hp)⟩
  · rw [retestStall_of_ready_sent hx hw h hp hb]
    refine settle_burst false false ?_ rfl
    simp [prepareBurst, hk, postData, stripItem]

/-- The item never comes: ERROR RANGE follows the WAITING header still posted, or is posted at once (R159). -/
theorem settle_retestStall_range {u : State} {x : Transfer} {start : Time} (hx : u.fetch.p0.transfer = some x)
    (hw : u.fetch.p0.waitStart = some start) (h : testItem u .r0 x = .range) (t : State)
    (ht : t = settle false false (retestStall u)) :
    (∀ b, u.fetch.p0.posted = some b → b.status = .waiting → b.requester = .r0 →
      burstOf t.fetch .r0 = some b ∧ t.fetch.p0.transfer.map Transfer.rangeAfter = some (some x.item)) ∧
    (u.fetch.p0.posted = none → burstOf t.fetch .r0 = some ⟨.r0, .errorRange, x.item, []⟩) := by
  subst ht
  refine ⟨fun b hb hs hr => ?_, fun hp => ?_⟩
  · rw [retestStall_of_range_posted hx hw h hb hs]
    exact ⟨settle_burst false false hb hr,
      settle_setSide_part Transfer.rangeAfter (fun _ => rfl) (by exact noDataPosted_of_waiting hb hs)⟩
  · rw [retestStall_of_range_sent hx hw h hp]
    exact settle_burst false false (by rw [sideOf_endWith, if_pos rfl]; rfl) rfl

/-- A stall of requester 0 tested again, once everything has settled (R159). -/
theorem settle_retestStall (u : State) : stallRetested u (settle false false (retestStall u)) := by
  have hs := settle_settlesTo false false (retestStall u)
  have port : OnlyPort u (settle false false (retestStall u)) :=
    (retestStall_only u).port.trans (settle_only false false _)
  obtain ⟨p1, bus, held, line, req⟩ := retestStall_keeps u
  have side1 : sideAs u.fetch.p1 (settle false false (retestStall u)).fetch.p1 := p1 ▸ hs.side .r1
  obtain ⟨req0, held0, wait0, limit0, line0⟩ := hs.side .r0
  obtain ⟨-, -, -, keepsBus, -⟩ := hs
  refine ⟨side1, held0.trans held, line0.trans line, fun hb => ?_, fun hn => ?_, fun x start hx hw => ?_⟩
  · exact (keepsBus (by rw [bus]; exact hb)).trans bus
  · have same := retestStall_none hn
    rw [same]
    exact (settle_settlesTo false false u).side .r0
  · have wait := wait0.trans (retestStall_waitStart hx hw)
    rw [testItem_of_onlyPort port, stripItem_of_onlyPort port]
    refine ⟨req0.trans (req.trans (by rw [hx]; rfl)), fun h => ?_, fun h => ?_, fun h => ?_⟩
    · rw [if_pos h] at wait
      exact ⟨wait, limit0.trans (by rw [retestStall_of_stall hx hw h]; rfl)⟩
    · rw [if_neg (by rw [h]; decide)] at wait
      exact ⟨wait, settle_retestStall_ready hx hw h _ rfl⟩
    · rw [if_neg (by rw [h]; decide)] at wait
      exact ⟨wait, settle_retestStall_range hx hw h _ rfl⟩

/-- A stall tested again may be read from an earlier state with the same fetch port. -/
theorem stallRetested.from {s u t : State} (h : stallRetested u t) (hf : u.fetch = s.fetch)
    (hc : u.sweepCfg = s.sweepCfg) : stallRetested s t := by
  unfold stallRetested at *
  rwa [hf, hc] at h

end Sys2Proof.Machine
end

section
/-! SUPPORT. The engine's halt and what it leaves at the arbiter, and the canvas discard read from an earlier state. -/

namespace Sys2Proof.Machine

/-! ## The engine's halt -/

section EngineHalt

variable (s : State)

/-- The halt withdraws the requests of the registration unit, and those of the compositor with a frame in compositing. -/
theorem engineHalt_arb : (engineHalt s).arb =
    if inCompositing s.comp = true then (dropEngine .compositor (dropEngine .registration s)).arb
    else (dropEngine .registration s).arb := by
  unfold engineHalt; dsimp only; split <;> rfl

/-- The halt changes the engine and the arbiter alone. -/
theorem engineHalt_eq : ∃ p r c a, engineHalt s = { s with place := p, reg := r, comp := c, arb := a } := by
  unfold engineHalt; dsimp only; split <;> exact ⟨_, _, _, _, rfl⟩

@[simp] theorem engineHalt_sweepCfg : (engineHalt s).sweepCfg = s.sweepCfg := by
  unfold engineHalt; dsimp only; split <;> rfl
@[simp] theorem engineHalt_store : (engineHalt s).store = s.store := by
  unfold engineHalt; dsimp only; split <;> rfl
@[simp] theorem engineHalt_fetch : (engineHalt s).fetch = s.fetch := by
  unfold engineHalt; dsimp only; split <;> rfl

end EngineHalt

/-! ## A fetch burst in progress when the engine and the ingest unit stop -/

section FetchBurst

variable {s : State} {b : FetchRead} {data : List Byte} {live : Bool}

theorem dropEngine_fetchBurst (u : EngineUnit) (h : s.arb.inProgress = some (.fetch b data live)) :
    (dropEngine u s).arb.inProgress = some (.fetch b data live) := by
  simp [dropEngine, h]

theorem engineHalt_fetchBurst (h : s.arb.inProgress = some (.fetch b data live)) :
    (engineHalt s).arb.inProgress = some (.fetch b data live) := by
  rw [engineHalt_arb]
  split
  · exact dropEngine_fetchBurst _ (dropEngine_fetchBurst _ h)
  · exact dropEngine_fetchBurst _ h

theorem freeLines_fetchBurst (h : s.arb.inProgress = some (.fetch b data live)) :
    (freeLines s).arb.inProgress = some (.fetch b data live) := by
  simp [freeLines, h]

end FetchBurst

/-! ## No request of the engine waits once both its units have stopped -/

theorem dropEngine_engineWait_ne (u : EngineUnit) (s : State) : (dropEngine u s).arb.engineWait ≠ some u := by
  simp only [dropEngine]
  split
  · simp
  · assumption

/-- A unit that does not wait does not wait once the other has stopped. -/
theorem dropEngine_engineWait_keeps {s : State} {u : EngineUnit} (v : EngineUnit) (h : s.arb.engineWait ≠ some u) :
    (dropEngine v s).arb.engineWait ≠ some u := by
  simp only [dropEngine]
  split
  · simp
  · exact h

theorem engineHalt_engineWait_ne (s : State) : (engineHalt s).arb.engineWait ≠ some .registration := by
  rw [engineHalt_arb]
  split
  · exact dropEngine_engineWait_keeps _ (dropEngine_engineWait_ne _ _)
  · exact dropEngine_engineWait_ne _ _

theorem engineStopped_engineWait (s : State) : (compositorStop (engineHalt s)).arb.engineWait = none := by
  have reg := dropEngine_engineWait_keeps .compositor (engineHalt_engineWait_ne s)
  have comp := dropEngine_engineWait_ne .compositor (engineHalt s)
  change (dropEngine .compositor (engineHalt s)).arb.engineWait = none
  rcases h : (dropEngine .compositor (engineHalt s)).arb.engineWait with _ | _ | _
  · rfl
  · exact absurd h reg
  · exact absurd h comp

/-! ## The canvas discard (R163) -/

/-- A canvas discard may be read from an earlier state with the same fetch port and the same fetch burst in progress. -/
theorem canvasDiscarded.from {s u t : State} (h : canvasDiscarded u t) (hf : u.fetch = s.fetch)
    (hp : ∀ b data live, s.arb.inProgress = some (.fetch b data live) →
      u.arb.inProgress = some (.fetch b data live)) : canvasDiscarded s t := by
  obtain ⟨bus, sides⟩ := h
  rw [hf] at bus
  refine ⟨bus, fun r => ?_⟩
  obtain ⟨held, line, rest⟩ := sides r
  rw [hf] at held line rest
  refine ⟨held, line, fun x hx => ?_⟩
  obtain ⟨req, ends, late, goesOn⟩ := rest x hx
  refine ⟨req, fun hk he => ?_, late, goesOn⟩
  obtain ⟨burst, wait, unasked, dropped⟩ := ends hk he
  exact ⟨burst, wait, unasked, fun b data live hb => dropped b data live (hp b data live hb)⟩

theorem discardSide_atRest {s : State} (r : Requester) (h : AtRest s) : AtRest (discardSide r s) := by
  rcases discardSide_arb r s with e | e
  · exact h.of_onlyFetch (discardSide_only r s) (by rw [e]) (by rw [e])
  · exact h.of_onlyFetch (discardSide_only r s) (by rw [e]; rfl) (by rw [e]; rfl)

end Sys2Proof.Machine
end

section
/-! SUPPORT. The control commands START and ARM (R3, R4), and O9 and O7 from them. -/

namespace Sys2Proof.Machine

/-! ## A command taken (R167, R169) -/

theorem exec_start (tag : Byte) (payload : List Byte) (s : State) :
    exec (.start tag payload) s = execStart tag payload s := rfl

theorem exec_arm (tag : Byte) (payload : List Byte) (s : State) : exec (.arm tag payload) s = execArm tag payload s := rfl

section RunCommand

variable {kind tag : Byte} {length : Nat} {takenIn : SweepState → Bool} {payload : List Byte} {body : State → Ran}
  {s : State}

/-- A command that is taken and passes the checks runs on the state with its slot taken. -/
theorem runCommand_of_taken (taken : commandTaken s = true) (hl : payload.length = length)
    (hs : takenIn s.sweep.state = true) :
    runCommand kind tag length takenIn payload body s = reply kind tag (body (takeSlot kind tag s)) := by
  simp [runCommand, refusedBy, taken, hl, hs]

/-- A command of the right length in a state that does not take it is answered STATE and has no effect (R169 check 3). -/
theorem runCommand_of_state (taken : commandTaken s = true) (hl : payload.length = length)
    (hs : takenIn s.sweep.state = false) :
    runCommand kind tag length takenIn payload body s = { s with ctl := answered s.ctl kind tag .state 0 [] } := by
  simp [runCommand, refusedBy, taken, hl, hs, reply, takeSlot, answered]

end RunCommand

/-! ## START (R4) -/

/-- Settles O9, by the state check of R169: ARMED takes START, every other state refuses it. -/
theorem startSetsOpenPending : Obligations.StartSetsOpenPending := by
  intro s tag taken
  rw [exec_start, execStart]
  by_cases armed : s.sweep.state = .armed
  · rw [if_pos armed, runCommand_of_taken taken List.length_nil (by simp [armed])]
    rfl
  · rw [if_neg armed, runCommand_of_state taken List.length_nil (by simp [armed])]

/-! ## ARM (R3) -/

/-- ARM's values for every block but the fetch port, before the discard there (R3). -/
def armedBlocks (s : State) : State :=
  let s1 := compositorStop (engineHalt s)
  { freeLines s1 with
    sweepCfg := s1.config
    sweep := { SweepControl.reset with state := .armed }
    motion := armMotion s1.config s1.timeBase s1.motion
    ingest := armIngest s1.ingest
    place := Placement.reset
    reg := Registration.reset
    comp := Compositor.initial s1.config
    store := { s1.store with coverage := [], computed := [], fill := s1.config.fill } }

theorem armSweep_eq (s : State) : armSweep s = discardFetch (armedBlocks s) := rfl

/-- What ARM leaves, field by field; the arbiter aside. -/
theorem armedBlocks_eq (s : State) : ∃ a, armedBlocks s = { s with
    sweepCfg := s.config
    sweep := { SweepControl.reset with state := .armed }
    motion := armMotion s.config s.timeBase s.motion
    ingest := armIngest s.ingest
    place := Placement.reset
    reg := Registration.reset
    comp := Compositor.initial s.config
    store := { s.store with coverage := [], computed := [], fill := s.config.fill }
    arb := a } := by
  obtain ⟨p, r, c, a, halted⟩ := engineHalt_eq s
  unfold armedBlocks
  rw [halted]
  exact ⟨_, rfl⟩

theorem armedBlocks_fetch (s : State) : (armedBlocks s).fetch = s.fetch := by
  obtain ⟨a, h⟩ := armedBlocks_eq s; rw [h]

theorem armedBlocks_atRest (s : State) : AtRest (armedBlocks s) :=
  ⟨rfl, rfl, rfl, rfl, engineStopped_engineWait s⟩

theorem armMotion_eq (cfg : Configuration) (now : Time) (m : Motion) : armMotion cfg now m = { m with
    clockRunning := true, armTime := now, strobes := 0, strobeTime := none, missCount := 0, goodCount := 0
    link := .sampling, integ := Integrator.zero, ring := [], yawWindow := [], pitchWindow := [], goodSinceArm := 0
    biasYaw := if cfg.biasMode = .fixed then cfg.biasYaw else 0
    biasPitch := if cfg.biasMode = .fixed then cfg.biasPitch else 0
    biasSource := if cfg.biasMode = .fixed then .fixed else .pending } := by
  cases h : cfg.biasMode <;> simp [armMotion, h]

theorem armIngest_eq (i : Ingest) : armIngest i = { i with
    port := if i.port = .low then .low else .ignored
    slots := i.slots.map fun slot => { slot with state := .free }
    queue := [], lines := [], seqRef := none, openingAssigned := false } := by
  unfold armIngest
  cases h : i.port <;> rfl

/-- The discard at the fetch port by ARM, once everything has settled (R163). -/
theorem canvasDiscarded_armSweep (s : State) : canvasDiscarded s (settle false false (armSweep s)) := by
  rw [armSweep_eq]
  refine (settle_discardFetch (armedBlocks s)).from (armedBlocks_fetch s) fun b data live h => ?_
  exact freeLines_fetchBurst (dropEngine_fetchBurst .compositor (engineHalt_fetchBurst h))

theorem asksWithdrawn_armSweep (s : State) : asksWithdrawn (settle false false (armSweep s)).arb := by
  rw [armSweep_eq]
  exact AtRest.asksWithdrawn_settle (discardSide_atRest .r1 (discardSide_atRest .r0 (armedBlocks_atRest s)))

/-- What ARM leaves once everything has settled; fetch port and arbiter aside. -/
theorem settle_armSweep_eq (s : State) : ∃ f a r n, settle false false (armSweep s) = { s with
    sweepCfg := s.config
    sweep := { SweepControl.reset with state := .armed }
    motion := armMotion s.config s.timeBase s.motion
    ingest := armIngest s.ingest
    place := Placement.reset
    reg := Registration.reset
    comp := Compositor.initial s.config
    store := { s.store with coverage := [], computed := [], fill := s.config.fill }
    fetch := f, arb := a, freeIndex := n, selfTest := { s.selfTest with run := r } } := by
  obtain ⟨f, a, armed⟩ := discardFetch_only (armedBlocks s)
  obtain ⟨b, blocks⟩ := armedBlocks_eq s
  rw [armSweep_eq, armed, blocks]
  exact settle_eq_of_idle _ _ _ rfl (by simp [Compositor.initial])

/-- Settles O7: ARM's blocks are given by `settle_armSweep_eq`, its fetch port by `canvasDiscarded_armSweep`. -/
theorem armStartsASweep : Obligations.ArmStartsASweep := by
  intro s tag taken state
  have run : exec (.arm tag []) s =
      .next (reply 2 tag (ranDone (settle false false (armSweep (takeSlot 2 tag s))))) := by
    rw [exec_arm, execArm, runCommand_of_taken taken List.length_nil (by rcases state with h | h <;> rw [h] <;> rfl)]
  have asks := asksWithdrawn_armSweep (takeSlot 2 tag s)
  have discarded := canvasDiscarded_armSweep (takeSlot 2 tag s)
  obtain ⟨f, a, r, n, armed⟩ := settle_armSweep_eq (takeSlot 2 tag s)
  rw [armed] at run asks discarded
  exact ⟨_, run, rfl, rfl, rfl, rfl, rfl, armMotion_eq .., armIngest_eq _, rfl, rfl, rfl, rfl, rfl, rfl, rfl, asks, discarded⟩

end Sys2Proof.Machine
end

section
/-! SUPPORT. The entry to DONE once everything has settled (R16, R123, R159), and END_REQUEST with O19 from it. -/

namespace Sys2Proof.Machine

/-! ## The entry to DONE -/

/-- The entry to DONE before the stall of requester 0 is tested again (R16, R123). -/
def doneBlocks (s : State) : State :=
  let s1 := freeLines (engineHalt s)
  let todo := previewUnits s1.sweepCfg s1.store (closingColumns s1.sweepCfg s1.store)
  { s1 with
    sweep := { s1.sweep with state := .done, limitRunning := false }
    motion := stopMotion s1.motion
    arb := absorbUpdate todo s1
    comp := { s1.comp with settled := s1.comp.front, state := .closing, halted := false, todo := todo } }

theorem enterDone_eq_retest (s : State) : enterDone s = retestStall (doneBlocks s) := rfl

theorem doneBlocks_fetch (s : State) : (doneBlocks s).fetch = s.fetch := engineHalt_fetch s

theorem doneBlocks_sweepCfg (s : State) : (doneBlocks s).sweepCfg = s.sweepCfg := engineHalt_sweepCfg s

/-- The entry to DONE once everything has settled; fetch port and arbiter aside. -/
theorem settle_enterDone_eq (s : State) : ∃ f a r n, settle false false (enterDone s) = { s with
    sweep := { s.sweep with state := .done, limitRunning := false }
    motion := stopMotion s.motion
    ingest := { s.ingest with lines := [] }
    place := { s.place with state := .ready, work := none, saved := none }
    reg := { s.reg with state := .idle, openingHarvest := false }
    comp := { s.comp with
      state := .closing, settled := s.comp.front, job := none, waiting := none, pendingReanchor := none, halted := false
      todo := previewUnits s.sweepCfg s.store (closingColumns s.sweepCfg s.store) }
    fetch := f, arb := a, freeIndex := n, selfTest := { s.selfTest with run := r } } := by
  obtain ⟨f, a, entered⟩ := enterDone_eq s
  rw [entered]
  exact settle_eq_of_idle _ _ _ rfl (by simp)

/-- A stall of requester 0 is tested again at the entry to DONE (R159). -/
theorem settle_enterDone_retests (s : State) : stallRetested s (settle false false (enterDone s)) :=
  (settle_retestStall (doneBlocks s)).from (doneBlocks_fetch s) (doneBlocks_sweepCfg s)

/-! ## A preview update absorbed by the closing work (R123, R146) -/

/-- The test again leaves the arbiter alone or withdraws requester 0's memory requests. -/
theorem retestStall_arb (s : State) : (retestStall s).arb = s.arb ∨ (retestStall s).arb = (dropFetch .r0 s).arb := by
  unfold retestStall prepareBurst
  dsimp only
  repeat' split
  all_goals simp [endWith, postData, dropFetch]

theorem retestStall_compReads (s : State) : (retestStall s).arb.compReads = s.arb.compReads := by
  rcases retestStall_arb s with h | h <;> rw [h]
  rfl

theorem retestStall_engineBurst {s : State} {u : EngineUnit} {live : Bool} {late : List WriteUnit} {areas : List MoveArea}
    (h : s.arb.inProgress = some (.engine u live late areas)) :
    (retestStall s).arb.inProgress = some (.engine u live late areas) := by
  rcases retestStall_arb s with e | e <;> rw [e]
  · exact h
  · simp [dropFetch, h]

/-- Once everything has settled, the closing work has left to read what it had. -/
theorem settle_compReads_of_closing (b m : Bool) {s : State} {left : List Nat} (hc : s.comp.state = .closing)
    (hr : s.arb.compReads = some left) : (settle b m s).arb.compReads = some left := by
  have prepared : prepareStrip s = s := by simp [prepareStrip, hc]
  rw [(settle_reads b m s).2, prepared]
  simp [planReads, plannedReads, operates, engineReads, hc, hr]

section Absorb

variable {s : State} (hu : s.comp.state = .updating)
include hu

/-- An update is no frame in compositing, so the engine's halt leaves it and its requests. -/
theorem engineHalt_of_updating :
    (engineHalt s).comp.state = .updating ∧ (engineHalt s).comp.todo = s.comp.todo ∧
      (engineHalt s).arb = (dropEngine .registration s).arb := by
  simp [engineHalt, inCompositing, hu]

theorem doneBlocks_inProgress {late : List WriteUnit} {areas : List MoveArea}
    (hp : s.arb.inProgress = some (.engine .compositor true late areas)) :
    (doneBlocks s).arb.inProgress = some (.engine .compositor true s.comp.todo areas) := by
  obtain ⟨state, todo, arb⟩ := engineHalt_of_updating hu
  simp [doneBlocks, absorbUpdate, freeLines, state, todo, arb, dropEngine, hp]

theorem doneBlocks_compReads {left : List Nat} (hr : s.arb.compReads = some left) :
    (doneBlocks s).arb.compReads = some (absorbedReads s.sweepCfg s.store
      (previewUnits s.sweepCfg s.store (closingColumns s.sweepCfg s.store)) s.comp.todo left) := by
  obtain ⟨state, todo, arb⟩ := engineHalt_of_updating hu
  simp [doneBlocks, absorbUpdate, freeLines, state, todo, arb, dropEngine, hr]

end Absorb

/-- What an absorbing closing work has to read is what its pixels need, less what the update has read (R123). -/
theorem mem_absorbedReads (cfg : Configuration) (store : CanvasStore) (todo done : List WriteUnit) (left : List Nat)
    (w : Nat) : w ∈ absorbedReads cfg store todo done left ↔
      w ∈ previewWords cfg store todo ∧ (w ∈ left ∨ w ∉ previewWords cfg store done) := by
  simp [absorbedReads]

theorem sourcesRead_iff (addr len : Nat) (s : State) : sourcesRead addr len s = true ↔
    ∀ u ∈ unitsWithin addr len s.comp.todo, ∀ w ∈ sourceWords s.sweepCfg s.store u, w ∉ readsLeft s .compositor := by
  simp [sourcesRead]

/-- When a write of the compositor's work can have been the burst in progress (R115, R123, R142). -/
theorem moveFits_write_iff (late : List WriteUnit) (areas : List MoveArea) (addr len : Nat) (s : State) :
    moveFits .compositor true late areas (.write addr len) s = true ↔
      (areas.any fun a => a.writes && areaHolds a addr len) = true ∧ unitsWithin addr len s.comp.todo ≠ [] ∧
      sourcesRead addr len s = true ∧ (s.comp.state = .closing → closingOrder late addr len s.comp.todo = true) := by
  by_cases hc : s.comp.state = .closing <;> simp [moveFits, writableUnits, hc, and_assoc]

/-- A write of an absorbed update's own pixels comes in the closing work's order (R123). -/
theorem closingOrder_of_subset {late todo : List WriteUnit} {addr len : Nat}
    (h : ∀ u ∈ unitsWithin addr len todo, u ∈ late) : closingOrder late addr len todo = true := by
  have all : (unitsWithin addr len todo).all late.contains = true := by simpa using h
  simp [closingOrder, all]

/-- A write that a preview update had in progress can still be the burst in progress of the closing work that has absorbed
it, the pixels in its bytes being the same: its sources were read, and it writes pixels of the update alone (R123, R146). -/
theorem moveFits_absorbed {s t : State} {late : List WriteUnit} {areas : List MoveArea} {left : List Nat} {addr len : Nat}
    (hr : s.arb.compReads = some left) (hcfg : t.sweepCfg = s.sweepCfg) (hstore : t.store = s.store)
    (reads : t.arb.compReads = some (absorbedReads s.sweepCfg s.store t.comp.todo s.comp.todo left))
    (fits : moveFits .compositor true late areas (.write addr len) s = true)
    (same : ∀ u, u ∈ unitsWithin addr len t.comp.todo ↔ u ∈ unitsWithin addr len s.comp.todo) :
    moveFits .compositor true s.comp.todo areas (.write addr len) t = true := by
  rw [moveFits_write_iff] at fits ⊢
  obtain ⟨area, pixels, sources, -⟩ := fits
  have own (u : WriteUnit) (h : u ∈ unitsWithin addr len t.comp.todo) : u ∈ s.comp.todo :=
    List.mem_of_mem_filter ((same u).mp h)
  refine ⟨area, ?_, ?_, fun _ => closingOrder_of_subset own⟩
  · obtain ⟨u, hu⟩ := List.exists_mem_of_ne_nil _ pixels
    exact List.ne_nil_of_mem ((same u).mpr hu)
  · rw [sourcesRead_iff] at sources ⊢
    intro u hu w hw
    rw [hcfg, hstore] at hw
    have read : w ∉ left := by simpa [readsLeft, engineReads, hr] using sources u ((same u).mp hu) w hw
    have planned : w ∈ previewWords s.sweepCfg s.store s.comp.todo := List.mem_flatMap.mpr ⟨u, own u hu, hw⟩
    have gone : w ∉ absorbedReads s.sweepCfg s.store t.comp.todo s.comp.todo left := by
      rw [mem_absorbedReads]
      rintro ⟨-, h | h⟩
      · exact read h
      · exact h planned
    simpa [readsLeft, engineReads, reads] using gone

/-- A preview update in progress is absorbed at the entry to DONE, and its write in progress goes on (R123, R146). -/
theorem settle_enterDone_absorbs {s t : State} {late : List WriteUnit} {areas : List MoveArea} {left : List Nat}
    {addr len : Nat} (ht : t = settle false false (enterDone s)) (hu : s.comp.state = .updating)
    (hp : s.arb.inProgress = some (.engine .compositor true late areas)) (hr : s.arb.compReads = some left)
    (fits : moveFits .compositor true late areas (.write addr len) s = true)
    (same : ∀ u, u ∈ unitsWithin addr len (previewUnits s.sweepCfg s.store (closingColumns s.sweepCfg s.store)) ↔
      u ∈ unitsWithin addr len s.comp.todo) :
    t.arb.inProgress = some (.engine .compositor true s.comp.todo areas) ∧
      moveFits .compositor true s.comp.todo areas (.write addr len) t = true := by
  have burst := retestStall_engineBurst (doneBlocks_inProgress hu hp)
  have reads := (retestStall_compReads _).trans (doneBlocks_compReads hu hr)
  rw [← enterDone_eq_retest] at burst reads
  have closing : (enterDone s).comp.state = .closing := by
    obtain ⟨f, a, e⟩ := enterDone_eq s; rw [e]
  obtain ⟨-, -, -, -, settled⟩ := settle_settlesTo false false (enterDone s)
  have kept := settle_compReads_of_closing false false closing reads
  obtain ⟨f, a, r, n, e⟩ := settle_enterDone_eq s
  refine ⟨by rw [ht, settled (by rw [burst]; rfl), burst], ?_⟩
  rw [e] at ht kept
  subst ht
  exact moveFits_absorbed hr rfl rfl kept fits same

/-! ## END_REQUEST (R12, R13) -/

theorem exec_endRequest (reason : EndReason) (s : State) : exec (.endRequest reason) s = execEndRequest reason s := rfl

/-- The last reason after an end request: its own in OPEN, in DRAINING the drain's unless it is FAULT (R12, R13). -/
def lastReasonAfter (reason : EndReason) (s : State) : LastReason :=
  if s.sweep.state = .opened then endReasonName reason else drainReason reason s.sweep.lastReason

/-- The state whose sweep an end request ends: the request is gone and every slot discarded (R12 to R14). -/
def endedSlots (reason : EndReason) (s : State) : State :=
  discardSlots { s with sweep := { s.sweep with
    endRequests := s.sweep.endRequests.erase reason, lastReason := lastReasonAfter reason s } }

section TakeEndRequest

variable {s : State} {reason : EndReason} (sent : reason ∈ s.sweep.endRequests)
include sent

theorem takeEndRequest_of_open (h : s.sweep.state = .opened ∨ s.sweep.state = .draining) :
    takeEndRequest reason s = enterDone (endedSlots reason s) := by
  rcases h with h | h <;> simp [takeEndRequest, sent, h, endSweep, endedSlots, lastReasonAfter]

theorem takeEndRequest_of_other (ho : s.sweep.state ≠ .opened) (hd : s.sweep.state ≠ .draining) :
    takeEndRequest reason s =
      { s with sweep := { s.sweep with endRequests := s.sweep.endRequests.erase reason } } := by
  cases h : s.sweep.state <;> simp_all [takeEndRequest]

end TakeEndRequest

theorem endedSlots_sweep (reason : EndReason) (s : State) : (endedSlots reason s).sweep = { s.sweep with
    lastReason := lastReasonAfter reason s
    counters := { s.sweep.counters with
      discarded := holdCount (s.sweep.counters.discarded + occupiedSlots s.ingest.slots) }
    endRequests := s.sweep.endRequests.erase reason } := rfl

theorem discardSlots_port (s : State) :
    (discardSlots s).ingest.port = if s.ingest.port = .low then .low else .ignored := by
  unfold discardSlots dropAllLines freeLines
  cases h : s.ingest.port <;> simp [h]

/-- A burst of the engine in progress goes on while the slots are discarded. -/
theorem discardSlots_engineBurst {s : State} {u : EngineUnit} {live : Bool} {late : List WriteUnit} {areas : List MoveArea}
    (h : s.arb.inProgress = some (.engine u live late areas)) :
    (discardSlots s).arb.inProgress = some (.engine u live late areas) := by
  simp [discardSlots, dropAllLines, freeLines, h]

/-- Settles O19: in OPEN and DRAINING the request discards the slots and enters DONE, elsewhere it only goes. -/
theorem endRequestEndsTheSweep : Obligations.EndRequestEndsTheSweep := by
  intro s reason sent
  rw [exec_endRequest, execEndRequest]
  refine ⟨fun state => ?_, fun ⟨ho, hd⟩ => ?_⟩
  · rw [takeEndRequest_of_open sent state]
    have stall := settle_enterDone_retests (endedSlots reason s)
    obtain ⟨f, a, r, n, done⟩ := settle_enterDone_eq (endedSlots reason s)
    rw [done] at stall ⊢
    refine ⟨_, rfl, ?_, rfl, ?_, rfl, rfl, rfl, rfl, rfl, rfl, rfl, rfl, stall.from rfl rfl,
      fun late areas left addr len hu hp hr fits same =>
        settle_enterDone_absorbs (s := endedSlots reason s) done.symm hu (discardSlots_engineBurst hp) hr fits same⟩
    · cases reason <;> simp [endedSlots_sweep, lastReasonAfter, endReasonName, drainReason]
    · rw [← discardSlots_port]; rfl
  · rw [takeEndRequest_of_other sent ho hd]
    exact ⟨_, rfl, settle_settlesTo ..⟩

end Sys2Proof.Machine
end

section
/-! SUPPORT. The integrator's step and its law over a run of steps, with O33 from them (R34, R36). -/

namespace Sys2Proof.Machine

/-! ## Clamping -/

theorem clampInt_eq_max_min {lo hi : Int} (h : lo ≤ hi) (v : Int) : clampInt v lo hi = max lo (min hi v) := by
  unfold clampInt; split
  · omega
  · split <;> omega

/-! ## One step of one axis (R34, R36) -/

section IntegrateAxis

variable {a : AxisIntegral} {u : Int}

theorem integrateAxis_of_range (lo : -1099511627776 ≤ a.angle + (u + a.residual) / 40960000)
    (hi : a.angle + (u + a.residual) / 40960000 ≤ 1099511627776) :
    integrateAxis a u = ⟨a.angle + (u + a.residual) / 40960000, (u + a.residual) % 40960000⟩ := by
  simp [integrateAxis, angleDivisor, not_lt.mpr lo, not_lt.mpr hi]

theorem integrateAxis_of_above (h : 1099511627776 < a.angle + (u + a.residual) / 40960000) :
    integrateAxis a u = ⟨1099511627776, 0⟩ := by
  have lo : ¬ a.angle + (u + a.residual) / 40960000 < -1099511627776 := by omega
  simp [integrateAxis, angleDivisor, lo, h]

theorem integrateAxis_of_below (h : a.angle + (u + a.residual) / 40960000 < -1099511627776) :
    integrateAxis a u = ⟨-1099511627776, 0⟩ := by
  simp [integrateAxis, angleDivisor, h]

end IntegrateAxis

/-- The angle after a step, saturated at the ends of its range (R36). -/
theorem integrateAxis_angle (a : AxisIntegral) (u : Int) :
    (integrateAxis a u).angle = max (-1099511627776) (min 1099511627776 (a.angle + (u + a.residual) / 40960000)) := by
  rcases lt_or_ge (a.angle + (u + a.residual) / 40960000) (-1099511627776) with below | lo
  · rw [integrateAxis_of_below below]; dsimp only; omega
  rcases lt_or_ge 1099511627776 (a.angle + (u + a.residual) / 40960000) with above | hi
  · rw [integrateAxis_of_above above]; dsimp only; omega
  · rw [integrateAxis_of_range lo hi]; dsimp only; omega

/-- A step leaves a remainder of the divisor, or 0 at an end. -/
theorem integrateAxis_residual (a : AxisIntegral) (u : Int) :
    0 ≤ (integrateAxis a u).residual ∧ (integrateAxis a u).residual < 40960000 := by
  rcases lt_or_ge (a.angle + (u + a.residual) / 40960000) (-1099511627776) with below | lo
  · simp [integrateAxis_of_below below]
  rcases lt_or_ge 1099511627776 (a.angle + (u + a.residual) / 40960000) with above | hi
  · simp [integrateAxis_of_above above]
  · rw [integrateAxis_of_range lo hi]; dsimp only; omega

/-! ## A run of steps (R36) -/

/-- Angle and residual hold the quotient and the remainder of all numerators so far, and a step in range keeps that. -/
theorem integrateAxis_quotient {sum u : Int} (lo : -1099511627776 ≤ (sum + u) / 40960000)
    (hi : (sum + u) / 40960000 ≤ 1099511627776) :
    integrateAxis ⟨sum / 40960000, sum % 40960000⟩ u = ⟨(sum + u) / 40960000, (sum + u) % 40960000⟩ := by
  have angle : sum / 40960000 + (u + sum % 40960000) / 40960000 = (sum + u) / 40960000 := by omega
  have residual : (u + sum % 40960000) % 40960000 = (sum + u) % 40960000 := by omega
  rw [integrateAxis_of_range] <;> dsimp only <;> rw [angle]
  · rw [residual]
  · exact lo
  · exact hi

theorem foldl_integrateAxis (us : List Int)
    (range : ∀ n, n ≤ us.length →
      -1099511627776 ≤ (us.take n).sum / 40960000 ∧ (us.take n).sum / 40960000 ≤ 1099511627776) :
    us.foldl integrateAxis ⟨0, 0⟩ = ⟨us.sum / 40960000, us.sum % 40960000⟩ := by
  induction us using List.reverseRecOn with
  | nil => rfl
  | append_singleton us u ih =>
    have earlier : us.foldl integrateAxis ⟨0, 0⟩ = ⟨us.sum / 40960000, us.sum % 40960000⟩ := ih fun n hn => by
      have taken := range n (by simp; omega)
      rwa [List.take_append_of_le_length hn] at taken
    have last := range (us ++ [u]).length le_rfl
    rw [List.take_length, List.sum_append, List.sum_singleton] at last
    rw [List.foldl_append, earlier, List.sum_append, List.sum_singleton]
    exact integrateAxis_quotient last.1 last.2

/-- Settles O33: the law by induction over the steps, from the last one back, and the ends of the range from the saturated
angle of one step. -/
theorem integratorLaw : Obligations.IntegratorLaw := by
  refine ⟨foldl_integrateAxis, fun _ _ => integrateAxis_of_above, fun _ _ => integrateAxis_of_below, fun a u lo hi => ?_⟩
  obtain ⟨nonneg, below⟩ := integrateAxis_residual a u
  refine ⟨fun atEnd hu => ?_, fun atEnd hu => ?_, nonneg, below⟩
  · rw [integrateAxis_angle, atEnd]; omega
  · rw [integrateAxis_angle, atEnd]; omega

end Sys2Proof.Machine
end

section
/-! SUPPORT. The motion link's GOOD_SAMPLE and SAMPLE_MISSED with no frame for the engine to go on with, with O30 and O32
from them (R25 to R42). -/

namespace Sys2Proof.Machine

theorem exec_goodSample (bytes : BitVec 48) (s : State) : exec (.goodSample bytes) s = execGoodSample bytes s := rfl

theorem exec_sampleMissed (s : State) : exec .sampleMissed s = execSampleMissed s := rfl

/-! ## The placement unit with no frame waiting for motion -/

theorem entryAnnounced_of_ne {s : State} (h : s.place.state ≠ .waitMotion) : entryAnnounced s = s := by
  unfold entryAnnounced
  split
  · contradiction
  · rfl

theorem resumePlacement_of_ne {s : State} (h : s.place.state ≠ .waitMotion) : resumePlacement s = s := by
  unfold resumePlacement
  split
  · contradiction
  · rfl

/-- Once a step leaves the queue empty, the engine takes no frame after it (R66). -/
theorem engineGo_eq_of_nil {n : Nat} {s t : State} (h : s = t) (empty : t.ingest.queue = []) : engineGo n s = t := by
  rw [h, engineGo_of_nil n t empty]

/-! ## The sample's codes, rates and entry (R28, R29, R35, R37) -/

/-- The codes of a read are those of its three axes, in the order X, Y, Z (10.3). -/
theorem axisCode_ext {bytes : BitVec 48} {code : Axis → Int} (hx : code .x = (bytes.extractLsb' 32 16).toInt)
    (hy : code .y = (bytes.extractLsb' 16 16).toInt) (hz : code .z = (bytes.extractLsb' 0 16).toInt) :
    code = axisCode bytes := by
  funext a
  cases a
  · exact hx
  · exact hy
  · exact hz

theorem integratorRate_eq (raw bias : Int) : integratorRate raw bias = max (-32768) (min 32767 (raw - bias)) :=
  clampInt_eq_max_min (by decide) _

theorem sampleSaturated_eq (cfg : Configuration) (bytes : BitVec 48) : sampleSaturated cfg bytes =
    decide (axisCode bytes cfg.axisMap.yawAxis ∈ [32767, -32768] ∨
      axisCode bytes cfg.axisMap.pitchAxis ∈ [32767, -32768]) := by
  simp [sampleSaturated, codeSaturates]

/-- The bound on Δt, 8 × T ticks, as an integer (R35). -/
theorem deltaBound_eq (cfg : Configuration) :
    ((8 * (cfg.prescale * (cfg.sampleCount + 1)) : Nat) : Int) = 8 * (samplePeriod cfg : Int) := Nat.cast_mul ..

/-- The first entry after ARM carries angles 0 and no GAP (R33, R35). -/
theorem poseEntry_first {s : State} (sound : trackSound s) (first : s.motion.integ.started = false) (sample : Time)
    (bytes : BitVec 48) : (poseEntry s.sweepCfg s.motion sample bytes).yaw = 0 ∧
      (poseEntry s.sweepCfg s.motion sample bytes).pitch = 0 ∧
      (poseEntry s.sweepCfg s.motion sample bytes).gap = false := by
  obtain ⟨-, -, -, zero⟩ := sound
  obtain ⟨yaw, pitch⟩ := zero first
  simp [poseEntry, integrate, first, yaw, pitch]

/-! ## A good sample (R31, R38, R40) -/

theorem estimate_eq (cfg : Configuration) (armed : Bool) (bytes : BitVec 48) (m : Motion) :
    estimate cfg armed bytes m = { m with
      yawWindow := if armed ∧ cfg.biasMode = .auto then joinWindow m.yawWindow (rawYaw cfg bytes) else m.yawWindow
      pitchWindow :=
        if armed ∧ cfg.biasMode = .auto then joinWindow m.pitchWindow (rawPitch cfg bytes) else m.pitchWindow
      goodSinceArm :=
        if armed ∧ cfg.biasMode = .auto then min (m.goodSinceArm + 1) 65535 else m.goodSinceArm } := by
  unfold estimate
  split <;> rfl

theorem regains_eq_false {m : Motion} (h : m.link ≠ .lost ∨ m.goodCount + 1 < 4) : regains m = false := by
  rw [regains, decide_eq_false_iff_not]
  rintro ⟨lost, four⟩
  rcases h with h | h
  · exact h lost
  · omega

/-- The regain test reads the link state and the count of good samples alone, which the sample leaves until then. -/
theorem regains_takeSample (cfg : Configuration) (armed : Bool) (sample : Time) (bytes : BitVec 48) (m : Motion) :
    regains (takeSample cfg sample bytes (estimate cfg armed bytes { m with tx := .absent })) = regains m := by
  simp [regains, takeSample, estimate_eq]

/-- The motion unit after a good sample that brings no regain. -/
theorem sampleMotion_of_noRegain {s : State} (h : regains s.motion = false) (sample : Time) (bytes : BitVec 48) :
    sampleMotion sample bytes s =
      { estimate s.sweepCfg (decide (s.sweep.state = .armed)) bytes s.motion with
        tx := .absent
        missCount := 0
        goodCount := min (s.motion.goodCount + 1) 4
        integ := integrate s.sweepCfg s.motion.integ sample (poseEntry s.sweepCfg s.motion sample bytes).rateYaw
          (poseEntry s.sweepCfg s.motion sample bytes).ratePitch
        ring := joinRing s.motion.ring (poseEntry s.sweepCfg s.motion sample bytes) } := by
  rw [sampleMotion, goodLink, regains_takeSample, h, estimate_eq, estimate_eq]
  rfl

/-- A good sample that brings no regain, with no frame waiting for motion and none to take, is the motion unit's alone. -/
theorem goodSample_of_noRegain {s : State} (h : regains s.motion = false) (placed : s.place.state ≠ .waitMotion)
    (empty : s.ingest.queue = []) (sample : Time) (bytes : BitVec 48) :
    goodSample sample bytes s = { s with motion := sampleMotion sample bytes s } := by
  rw [goodSample, h]
  exact engineGo_eq_of_nil (entryAnnounced_of_ne placed) empty

theorem execGoodSample_of_discarding {s : State} {start : Time} (h : s.motion.tx = .discarding start)
    (bytes : BitVec 48) : execGoodSample bytes s =
      .next { s with
        timeBase := advanceTo (readDue start) s.timeBase
        motion := { s.motion with tx := .absent } } := by
  rw [execGoodSample, h]

/-- The read in flight ends with a good sample that brings no regain, with no frame waiting for motion and none to take
(R25). -/
theorem execGoodSample_of_noRegain {s : State} {sample start : Time} (reading : s.motion.tx = .reading sample start)
    (h : regains s.motion = false) (placed : s.place.state ≠ .waitMotion) (empty : s.ingest.queue = [])
    (bytes : BitVec 48) : execGoodSample bytes s =
      .next (settle false false { s with
        timeBase := advanceTo (readDue start) s.timeBase
        motion := sampleMotion sample bytes s }) := by
  have taken := goodSample_of_noRegain (s := { s with timeBase := advanceTo (readDue start) s.timeBase }) h placed empty
    sample bytes
  rw [execGoodSample, reading]
  dsimp only
  rw [taken]
  rfl

/-- Settles O30: the statement's rates, angles and entry are those the motion unit takes, and the rest only settles. -/
theorem goodSampleJoinsTheTrack : Obligations.GoodSampleJoinsTheTrack := by
  refine ⟨fun s bytes start discarding => execGoodSample_of_discarding discarding bytes, ?_,
    fun a u lo hi => integrateAxis_of_range lo hi⟩
  intro s bytes sample start e code rawY rawP rateY rateP since dt after reading noRegain placed empty hx hy hz hrawY
    hrawP hrateY hrateP hsince hdt hafter hentry
  obtain rfl := axisCode_ext hx hy hz
  have yaw : rateY = integratorRate (rawYaw s.sweepCfg bytes) s.motion.biasYaw := by
    rw [integratorRate_eq, hrateY, hrawY]; rfl
  have pitch : rateP = integratorRate (rawPitch s.sweepCfg bytes) s.motion.biasPitch := by
    rw [integratorRate_eq, hrateP, hrawP]; rfl
  have step : after = integrate s.sweepCfg s.motion.integ sample rateY rateP := by
    rw [hafter, hdt, hsince, deltaBound_eq]; rfl
  have entry : e = poseEntry s.sweepCfg s.motion sample bytes := by
    rw [hentry, deltaBound_eq, hsince, step, yaw, pitch, ← sampleSaturated_eq]; rfl
  have kept := regains_eq_false noRegain
  rw [exec_goodSample]
  refine ⟨_, execGoodSample_of_noRegain reading kept placed empty bytes, ?_, ?_⟩
  · rw [sampleMotion_of_noRegain kept, estimate_eq, step, entry, yaw, pitch, hrawY, hrawP]
    simp only [decide_eq_true_eq]
    exact settle_settlesTo ..
  · rw [entry]
    exact fun sound first => poseEntry_first sound first sample bytes

/-! ## A missed sample (R26, R40, R41) -/

theorem loses_iff (m : Motion) : loses m = true ↔ m.link = .sampling ∧ 7 ≤ m.missCount := by
  rw [loses, decide_eq_true_eq]
  exact and_congr_right fun _ => by omega

/-- The window expires: the sample is missed, and what follows only settles (R26). -/
theorem execSampleMissed_of_window {s t : State} {strobeTime sample : Time}
    (window : s.motion.tx = .window strobeTime sample)
    (missed : missSample { s with timeBase := advanceTo (missDue s.sweepCfg strobeTime) s.timeBase } = t) :
    execSampleMissed s = .next (settle false false t) := by
  rw [execSampleMissed, window, ← missed]

/-- A missed sample that is no loss is counted (R26, R40). -/
theorem missSample_of_noLoss {s : State} (h : loses s.motion = false) : missSample s =
    { s with
      motion := { s.motion with tx := .absent, goodCount := 0, missCount := min (s.motion.missCount + 1) 8 }
      sweep := { s.sweep with counters := { s.sweep.counters with
        samplesMissed := holdCount (s.sweep.counters.samplesMissed + 1) } } } := by
  have same : loses { s.motion with tx := .absent } = false := h
  rw [missSample, h, missLink, same]
  rfl

/-- A loss, with no frame waiting for motion, is counted, raised and marked (R41, R74). -/
theorem loseMotion_of_ne {s : State} (placed : s.place.state ≠ .waitMotion) : loseMotion s =
    { s with
      sweep := { s.sweep with counters := { s.sweep.counters with
        motionLosses := holdCount (s.sweep.counters.motionLosses + 1) } }
      attn := { s.attn with pendingSet := s.attn.pendingSet ||| 4 }
      place := { s.place with motionLost := true } } :=
  resumePlacement_of_ne placed

/-- The eighth miss in a row while SAMPLING, with no frame waiting for motion and none to take (R40, R41). -/
theorem missSample_of_loss {s : State} (link : s.motion.link = .sampling) (seven : 7 ≤ s.motion.missCount)
    (placed : s.place.state ≠ .waitMotion) (empty : s.ingest.queue = []) : missSample s =
    { s with
      motion := { s.motion with tx := .absent, goodCount := 0, missCount := 8, link := .lost }
      sweep := { s.sweep with counters := { s.sweep.counters with
        samplesMissed := holdCount (s.sweep.counters.samplesMissed + 1)
        motionLosses := holdCount (s.sweep.counters.motionLosses + 1) } }
      attn := { s.attn with pendingSet := s.attn.pendingSet ||| 4 }
      place := { s.place with motionLost := true } } := by
  have lost : loses s.motion = true := (loses_iff _).mpr ⟨link, seven⟩
  have same : loses { s.motion with tx := .absent } = true := lost
  have eight : min (s.motion.missCount + 1) 8 = 8 := by omega
  rw [missSample, lost, missLink, same, eight]
  exact engineGo_eq_of_nil (loseMotion_of_ne placed) empty

/-- Settles O32: the window's expiry counts the miss, or the loss too, and the rest only settles. -/
theorem missedSampleAndLoss : Obligations.MissedSampleAndLoss := by
  intro s strobeTime sample due window hdue
  subst hdue
  rw [exec_sampleMissed]
  refine ⟨fun few => ?_, fun link seven placed empty => ?_⟩
  · have noLoss : loses s.motion = false := by
      rw [Bool.eq_false_iff, ne_eq, loses_iff]
      rintro ⟨link, seven⟩
      rcases few with other | few
      · exact other link
      · omega
    exact ⟨_, execSampleMissed_of_window window (missSample_of_noLoss noLoss), settle_settlesTo ..⟩
  · exact ⟨_, execSampleMissed_of_window window (missSample_of_loss link seven placed empty), settle_settlesTo ..⟩

end Sys2Proof.Machine
end

section
/-! SUPPORT. HEADER_ARRIVAL: the sequence check, the STOP mark and the places of a header, and O24 from them (R5, R10,
R48 to R52). -/

namespace Sys2Proof.Machine

theorem exec_headerArrival (words : List Half) (s : State) : exec (.headerArrival words) s = execHeaderArrival words s := rfl

/-! ## Admission (R49) -/

/-- The gap with its absent reference as the skipped count takes it (R50). -/
theorem checkSequence_eq (h : Header) (s : State) : checkSequence h s = { s with
    ingest := { s.ingest with seqRef := some h.seq }
    sweep := { s.sweep with counters := { s.sweep.counters with
      skipped := holdCount (s.sweep.counters.skipped + headerGap s h) } } } := by
  unfold checkSequence headerGap
  cases s.ingest.seqRef <;> rfl

theorem headerGap_of_absent {s : State} (absent : s.ingest.seqRef = none) (h : Header) : headerGap s h = 0 := by
  rw [headerGap, absent]

theorem readStopMark_eq (h : Header) (s : State) : readStopMark h s = { s with sweep := { s.sweep with
    state := if h.stopMark then .draining else s.sweep.state
    lastReason := if h.stopMark then .stopped else s.sweep.lastReason
    limitRunning := s.sweep.limitRunning && !h.stopMark } } := by
  unfold readStopMark
  cases h.stopMark <;> simp [beginDraining]

/-- An admitted header after steps 1 to 3 of R49: counted, its gap taken and its STOP mark read. -/
def headerCounted (h : Header) (s : State) : State := readStopMark h (checkSequence h (countReceived s))

theorem admitHeader_some (h : Header) (tSof : Time) (s : State) :
    admitHeader (some h) tSof s = drainTest (placeHeader h tSof (headerCounted h s)) := rfl

theorem headerCounted_eq (h : Header) (s : State) : headerCounted h s = { s with
    ingest := { s.ingest with seqRef := some h.seq }
    sweep := { s.sweep with
      state := if h.stopMark then .draining else s.sweep.state
      lastReason := if h.stopMark then .stopped else s.sweep.lastReason
      limitRunning := s.sweep.limitRunning && !h.stopMark
      counters := { s.sweep.counters with
        received := holdCount (s.sweep.counters.received + 1)
        skipped := holdCount (s.sweep.counters.skipped + headerGap s h) } } } := by
  rw [headerCounted, readStopMark_eq, checkSequence_eq]
  rfl

/-! ## Steps 4 to 6 of R49 -/

theorem geometryFits_iff (cfg : Configuration) (h : Header) :
    geometryFits cfg h = true ↔ h.width = cfg.frameWidth ∧ h.height = cfg.frameHeight := decide_eq_true_iff

theorem placeHeader_of_misfit {h : Header} {s : State}
    (misfit : h.width ≠ s.sweepCfg.frameWidth ∨ h.height ≠ s.sweepCfg.frameHeight) (tSof : Time) :
    placeHeader h tSof s = rejectFrame s := by
  rw [placeHeader, if_neg]
  rw [geometryFits_iff]
  rintro ⟨width, height⟩
  exact misfit.elim (· width) (· height)

theorem placeHeader_of_slot {h : Header} {s : State} {i : Nat} (width : h.width = s.sweepCfg.frameWidth)
    (height : h.height = s.sweepCfg.frameHeight) (first : firstSlot s.ingest.slots .free = some i) (tSof : Time) :
    placeHeader h tSof s = fillSlot i h tSof s := by
  rw [placeHeader, if_pos ((geometryFits_iff ..).mpr ⟨width, height⟩), first]

/-- A slot is filled by its header's record alone: nothing of its earlier frame is left (R55). -/
theorem fillSlot_eq (i : Nat) (h : Header) (tSof : Time) (s : State) : fillSlot i h tSof s = { s with
    ingest := { s.ingest with
      port := .filling i 0 false
      slots := s.ingest.slots.set i ⟨.filling, headerRecord h tSof⟩ } } := by
  rw [List.set_eq_modify]
  rfl

/-- The first slot of a pool with every slot FREE (R53). -/
theorem firstSlot_of_free {slots : List Slot} (free : ∀ slot ∈ slots, slot.state = .free) (nonempty : 0 < slots.length) :
    firstSlot slots .free = some 0 := by
  cases slots with
  | nil => simp at nonempty
  | cons slot rest =>
    have head : slot.state = .free := free slot List.mem_cons_self
    simp [firstSlot, List.findIdx?_cons, head]

theorem anySlot_set {slots : List Slot} {i : Nat} (h : i < slots.length) (slot : Slot) :
    anySlot (slots.set i slot) slot.state = true :=
  List.any_eq_true.mpr ⟨slot, List.mem_set h slot, decide_eq_true rfl⟩

/-! ## The drain-completion test after a header (R15) -/

theorem drainTest_of_filling {s : State} (h : anySlot s.ingest.slots .filling = true) : drainTest s = s := by
  simp [drainTest, drained, h]

/-- A frame that has just taken its slot keeps the sweep from draining. -/
theorem drainTest_fillSlot {s : State} {i : Nat} (hi : i < s.ingest.slots.length) (h : Header) (tSof : Time) :
    drainTest (fillSlot i h tSof s) = fillSlot i h tSof s := by
  refine drainTest_of_filling ?_
  rw [fillSlot_eq]
  exact anySlot_set hi ⟨.filling, headerRecord h tSof⟩

/-! ## HEADER_ARRIVAL in ARMED and outside OPEN (R5, R48) -/

theorem opens_iff (h : Header) (pending : Bool) :
    opens (some h) pending = true ↔ h.guideMark = false ∧ (h.startMark = true ∨ pending = true) := by
  simp [opens]

section HeaderArrival

variable {s : State} {words : List Half} {tSof : Time} (port : s.ingest.port = .header tSof)
include port

theorem execHeaderArrival_of_opens {h : Header} (armed : s.sweep.state = .armed) (parsed : parseHeader words = some h)
    (unguided : h.guideMark = false) (mark : h.startMark = true ∨ s.sweep.openPending = true) :
    execHeaderArrival words s =
      .next (settle false false (drainTest (placeHeader h tSof (headerCounted h (openSweep tSof s))))) := by
  have eligible : opens (some h) s.sweep.openPending = true := (opens_iff ..).mpr ⟨unguided, mark⟩
  simp only [execHeaderArrival, port, armed, parsed, eligible, if_true, admitHeader_some]

theorem execHeaderArrival_of_ineligible (armed : s.sweep.state = .armed)
    (ineligible : opens (parseHeader words) s.sweep.openPending = false) :
    execHeaderArrival words s = .next { s with ingest := { s.ingest with port := .ignored } } := by
  simp only [execHeaderArrival, port, armed, ineligible, Bool.false_eq_true, if_false, setPort]

theorem execHeaderArrival_of_closed (state : s.sweep.state ∈ [SweepState.init, .test, .idle, .draining, .done]) :
    execHeaderArrival words s = .next { s with ingest := { s.ingest with port := .ignored } } := by
  simp only [List.mem_cons, List.not_mem_nil, or_false] at state
  rw [execHeaderArrival, port]
  obtain h | h | h | h | h := state <;> rw [h] <;> rfl

end HeaderArrival

/-- Settles O24: an eligible header is admitted in the sweep it has opened, where its slot or the rejection follows from
steps 4 to 6 of R49; every other header only makes its frame ignored. -/
theorem eligibleHeaderOpensTheSweep : Obligations.EligibleHeaderOpensTheSweep := by
  refine ⟨fun s words tSof port armed => ⟨?_, ?_, ?_⟩, fun s words tSof port state => ?_⟩
  · intro h parsed unguided mark width height absent free slots
    have first : firstSlot (headerCounted h (openSweep tSof s)).ingest.slots .free = some 0 := by
      rw [headerCounted_eq]; exact firstSlot_of_free free slots
    have placed : drainTest (placeHeader h tSof (headerCounted h (openSweep tSof s))) =
        fillSlot 0 h tSof (headerCounted h (openSweep tSof s)) := by
      rw [placeHeader_of_slot _ _ first, drainTest_fillSlot] <;> rw [headerCounted_eq]
      · exact slots
      · exact width
      · exact height
    have gap : headerGap (openSweep tSof s) h = 0 := headerGap_of_absent absent h
    rw [exec_headerArrival, execHeaderArrival_of_opens port armed parsed unguided mark, placed, fillSlot_eq,
      headerCounted_eq, gap, headerRecord, unguided]
    exact ⟨_, rfl, settle_settlesTo ..⟩
  · intro h u parsed unguided mark misfit hu
    have rejected : placeHeader h tSof (headerCounted h (openSweep tSof s)) = u := by
      rw [placeHeader_of_misfit, hu, headerCounted_eq]
      · rfl
      · rw [headerCounted_eq]; exact misfit
    rw [exec_headerArrival, execHeaderArrival_of_opens port armed parsed unguided mark, rejected]
    refine ⟨_, rfl, settle_settlesTo .., fun going => ?_, fun stop queue free => ?_⟩
    · rw [drainTest_of_ne u (by simp [hu, going])]
      exact settle_settlesTo ..
    · have draining : u.sweep.state = .draining := by simp [hu, stop]
      have limit : u.sweep.limitRunning = false := by simp [hu, stop]
      obtain ⟨complete, -⟩ := drainsAtOnce_of_settlesTo draining (settle_settlesTo false false (drainTest u))
      obtain ⟨sweep, clock, link, -⟩ := complete (by rw [hu]; exact queue) (by rw [hu]; exact free)
      exact ⟨by rw [sweep, ← limit], clock, link⟩
  · intro ineligible
    rw [exec_headerArrival]
    refine execHeaderArrival_of_ineligible port armed ?_
    rcases ineligible with short | ⟨h, parsed, other⟩
    · rw [short]; rfl
    · rw [parsed, Bool.eq_false_iff, ne_eq, opens_iff]
      rintro ⟨unguided, mark⟩
      rcases other with guided | ⟨unmarked, none⟩
      · simp [guided] at unguided
      · simp [unmarked, none] at mark
  · rw [exec_headerArrival]
    exact execHeaderArrival_of_closed port state

end Sys2Proof.Machine
end

section
/-! SUPPORT. The slots of the pool after a change of one of them, and the frame whose last pixel line closes: its
completion (R57) and its take by a free engine (R66). -/

namespace Sys2Proof.Machine

/-! ## One slot changed (R54) -/

theorem slotState_of_getElem? {slots : List Slot} {i : Nat} {slot : Slot} (h : slots[i]? = some slot) :
    slotState slots i = slot.state := by
  rw [slotState, h]

theorem slotInfo_of_getElem? {slots : List Slot} {i : Nat} {slot : Slot} (h : slots[i]? = some slot) :
    slotInfo slots i = slot.info := by
  rw [slotInfo, h]

/-- A slot that is not FREE is one of the pool. -/
theorem getElem?_of_slotState_ne {slots : List Slot} {i : Nat} (h : slotState slots i ≠ .free) :
    ∃ slot, slots[i]? = some slot ∧ slot.state = slotState slots i := by
  cases slot : slots[i]? with
  | none => exact absurd (by rw [slotState, slot]) h
  | some slot' => exact ⟨slot', rfl, (slotState_of_getElem? slot).symm⟩

theorem slotState_modify_self (f : Slot → Slot) {slots : List Slot} {i : Nat} {slot : Slot} (h : slots[i]? = some slot) :
    slotState (slots.modify i f) i = (f slot).state := by
  rw [slotState_modify, if_pos rfl, h]

theorem slotInfo_modify_self (f : Slot → Slot) {slots : List Slot} {i : Nat} {slot : Slot} (h : slots[i]? = some slot) :
    slotInfo (slots.modify i f) i = (f slot).info :=
  slotInfo_of_getElem? (by rw [List.getElem?_modify, h]; simp)

/-- Two changes of one slot of the pool are one, if they are so on the slot that is there. -/
theorem modify_modify_of_getElem? {f g k : Slot → Slot} {slots : List Slot} {i : Nat} {slot : Slot}
    (h : slots[i]? = some slot) (same : g (f slot) = k slot) : (slots.modify i f).modify i g = slots.modify i k := by
  refine List.ext_getElem? fun j => ?_
  simp only [List.getElem?_modify]
  by_cases hj : i = j
  · subst hj; simp [h, same]
  · simp [hj]

theorem anySlot_eq_false_iff {slots : List Slot} {st : SlotState} (hst : st ≠ .free) :
    anySlot slots st = false ↔ ∀ j, slotState slots j ≠ st := by
  refine ⟨fun none j hj => ?_, fun h => anySlot_of_all (all_of_slotState (P := (· ≠ st)) h)⟩
  obtain ⟨slot, at_j, state⟩ := getElem?_of_slotState_ne (by rw [hj]; exact hst)
  have found : anySlot slots st = true :=
    List.any_eq_true.mpr ⟨slot, List.mem_of_getElem? at_j, decide_eq_true (state.trans hj)⟩
  rw [found] at none
  cases none

/-- A change of another slot leaves the pool with a slot in a state. -/
theorem anySlot_modify {slots : List Slot} {st : SlotState} {i : Nat} (hst : st ≠ .free) (f : Slot → Slot)
    (other : slotState slots i ≠ st) (h : anySlot slots st = true) : anySlot (slots.modify i f) st = true := by
  by_contra none
  rw [Bool.not_eq_true, anySlot_eq_false_iff hst] at none
  have all (j : Nat) : slotState slots j ≠ st := by
    by_cases hj : i = j
    · exact hj ▸ other
    · rw [← slotState_modify_ne f slots hj]; exact none j
  rw [(anySlot_eq_false_iff hst).mpr all] at h
  cases h

/-! ## The last pixel line (R56, R57) -/

theorem exec_pixelLineClose (words : List Half) (s : State) :
    exec (.pixelLineClose words) s = execPixelLineClose words s := rfl

/-- The last pixel line of the frame that fills slot i closes with as many words as the frame is wide (R56). -/
structure LastLine (s : State) (i line : Nat) (words : List Half) : Prop where
  port : s.ingest.port = .filling i line true
  width : words.length = s.sweepCfg.frameWidth
  last : line + 1 = s.sweepCfg.frameHeight
  filling : slotState s.ingest.slots i = .filling

/-- The ingest unit once that frame is complete, in the given state of its slot with the given opening mark, and with the
line in the line buffer; the queue aside (R56, R57). -/
def completedIngest (ingest : Ingest) (i line : Nat) (words : List Half) (st : SlotState) (opening : Bool) : Ingest :=
  { ingest with
    port := .ignored
    slots := ingest.slots.modify i fun slot => { slot with state := st, info := { slot.info with opening := opening } }
    lines := ingest.lines ++ [⟨i, line, words, 0⟩]
    openingAssigned := ingest.openingAssigned || opening }

/-- The completed frame is QUEUED at the tail of the queue (R57). -/
def queuedLast (i line : Nat) (words : List Half) (s : State) : State :=
  { s with ingest := { completedIngest s.ingest i line words .queued (takesOpening s i) with
    queue := s.ingest.queue ++ [i] } }

/-- The completed frame is ENGAGED, the queue empty as before (R66). -/
def engagedLast (i line : Nat) (words : List Half) (s : State) : State :=
  { s with ingest := completedIngest s.ingest i line words .engaged (takesOpening s i) }

section LastLine

variable {s t : State} {i line : Nat} {words : List Half} (h : LastLine s i line words)
include h

theorem LastLine.slot : ∃ slot, s.ingest.slots[i]? = some slot ∧ slot.state = .filling := by
  obtain ⟨slot, at_i, state⟩ := getElem?_of_slotState_ne (slots := s.ingest.slots) (i := i) (by rw [h.filling]; decide)
  exact ⟨slot, at_i, state.trans h.filling⟩

theorem LastLine.completeFrame_eq : completeFrame i (bufferLine i line words s) = queuedLast i line words s := by
  obtain ⟨slot, at_i, state⟩ := h.slot
  have slots : (moveSlot s.ingest.slots i .queued).modify i
        (fun x => { x with info := { x.info with opening := takesOpening s i } }) =
      s.ingest.slots.modify i
        fun x => { x with state := .queued, info := { x.info with opening := takesOpening s i } } :=
    modify_modify_of_getElem? at_i (by simp [occupied, state])
  exact congrArg (fun slots => { queuedLast i line words s with
    ingest := { (queuedLast i line words s).ingest with slots := slots } }) slots

/-- The line closes: the frame is QUEUED and the engine goes on, then everything settles (R56, R66). -/
theorem LastLine.exec_eq :
    exec (.pixelLineClose words) s = .next (settle false false (engineGo takeFuel (queuedLast i line words s))) := by
  rw [exec_pixelLineClose, execPixelLineClose, h.port]
  simp only [h.width, ne_eq, not_true_eq_false, if_false, h.last, lt_irrefl, h.completeFrame_eq]

theorem LastLine.slotState_completed (st : SlotState) (opening : Bool) :
    slotState (completedIngest s.ingest i line words st opening).slots i = st := by
  obtain ⟨slot, at_i, -⟩ := h.slot
  exact slotState_modify_self _ at_i

theorem LastLine.slotInfo_completed (st : SlotState) (opening : Bool) :
    slotInfo (completedIngest s.ingest i line words st opening).slots i =
      { slotInfo s.ingest.slots i with opening := opening } := by
  obtain ⟨slot, at_i, -⟩ := h.slot
  rw [slotInfo_of_getElem? at_i]
  exact slotInfo_modify_self _ at_i

/-! ## The take (R66) -/

/-- QUEUED and then taken, the frame is ENGAGED. -/
theorem LastLine.engaged_eq (empty : s.ingest.queue = []) : { queuedLast i line words s with
      ingest := { (queuedLast i line words s).ingest with
        queue := (queuedLast i line words s).ingest.queue.erase i
        slots := moveSlot (queuedLast i line words s).ingest.slots i .engaged } } = engagedLast i line words s := by
  obtain ⟨slot, at_i, state⟩ := h.slot
  have slots : moveSlot (queuedLast i line words s).ingest.slots i .engaged = (engagedLast i line words s).ingest.slots :=
    modify_modify_of_getElem? at_i (by simp [occupied])
  have queue : (queuedLast i line words s).ingest.queue.erase i = (engagedLast i line words s).ingest.queue := by
    simp [queuedLast, engagedLast, completedIngest, empty]
  rw [slots, queue]
  rfl

/-- The completed frame, alone in the queue of a free engine, is taken, and no other after it. -/
theorem LastLine.engineGo_eq (free : ∀ j, slotState s.ingest.slots j ≠ .engaged) (empty : s.ingest.queue = [])
    (state : s.sweep.state = .opened ∨ s.sweep.state = .draining) (taken : takeFrame i (queuedLast i line words s) = t)
    (left : t.ingest.queue = []) : engineGo takeFuel (queuedLast i line words s) = t := by
  have none (j : Nat) : slotState (queuedLast i line words s).ingest.slots j ≠ .engaged := by
    by_cases hj : i = j
    · subst hj; rw [queuedLast, h.slotState_completed]; decide
    · exact (slotState_modify_ne _ _ hj).trans_ne (free j)
  have can : canTake (queuedLast i line words s) = true := by
    rw [canTake, (anySlot_eq_false_iff (by decide)).mpr none, decide_eq_true (by exact state)]; rfl
  have queue : (queuedLast i line words s).ingest.queue = [i] := by simp [queuedLast, empty]
  rw [takeFuel, engineGo, if_pos can, queue]
  dsimp only
  rw [taken, engineGo_of_nil _ _ left]

end LastLine

end Sys2Proof.Machine
end

section
/-! SUPPORT. The engine's course of a frame whose lookups the pose ring answers, or that waits at the first: the reference
lookup, the bands, and then the opening frame HELD or the column step (R66 to R78). -/

namespace Sys2Proof.Machine

/-! ## Placement step by step (4.5) -/

/-- The placement unit at work on a frame. -/
def placing (w : Working) (s : State) : State := { s with place := { s.place with state := .placing, work := some w } }

theorem placeRun_of_goOn {w w1 : Working} {s s1 : State} (h : placeStep w (placing w s) = .goOn w1 s1) (n : Nat) :
    placeRun (n + 1) w s = placeRun n w1 s1 := by
  unfold placing at h
  rw [placeRun, h]

theorem placeRun_of_rest {w : Working} {s s1 : State} (h : placeStep w (placing w s) = .rest s1) (n : Nat) :
    placeRun (n + 1) w s = s1 := by
  unfold placing at h
  rw [placeRun, h]

/-- Each step of placement enters its own record, so the one before it does not matter. -/
theorem placeRun_placing (n : Nat) (w v : Working) (s : State) : placeRun n w (placing v s) = placeRun n w s := by
  cases n <;> rfl

/-! ## Lookups without a motion loss (R70 to R74) -/

section Lookup

variable {w : Working} {s : State} (kept : s.place.motionLost = false)
include kept

theorem meetLoss_of_kept : meetLoss s w = w := by simp [meetLoss, kept]

theorem lookupPose_of_found {t : Time} {pose : PoseFound} (found : lookupRing s.motion.ring t = some pose) :
    lookupPose s.sweepCfg s w t = .found pose := by
  simp [lookupPose, kept, found]

theorem lookupPose_of_wait {t : Time} (unanswered : lookupRing s.motion.ring t = none) (met : w.metLoss = false)
    (early : waitExpired s.sweepCfg s.timeBase w = false) : lookupPose s.sweepCfg s w t = .wait := by
  simp [lookupPose, kept, unanswered, met, early]

theorem placeStep_reference {pose : PoseFound} (stage : w.stage = .reference)
    (found : lookupRing s.motion.ring w.tRef = some pose) : placeStep w s = afterReference pose w s := by
  have time : lookupTime w = w.tRef := by rw [lookupTime, stage]
  simp only [placeStep, stage, time, lookupPose_of_found kept found, meetLoss_of_kept kept, takeAnswer]

theorem placeStep_band {k : Nat} {pose : PoseFound} (stage : w.stage = .band k)
    (found : lookupRing s.motion.ring (w.bandTimes.getD k 0) = some pose) : placeStep w s = afterBand k pose w s := by
  have time : lookupTime w = w.bandTimes.getD k 0 := by rw [lookupTime, stage]
  simp only [placeStep, stage, time, lookupPose_of_found kept found, meetLoss_of_kept kept, takeAnswer]

theorem placeStep_wait (stage : w.stage = .reference) (unanswered : lookupRing s.motion.ring w.tRef = none)
    (met : w.metLoss = false) (early : waitExpired s.sweepCfg s.timeBase w = false) : placeStep w s = waitMotion w s := by
  have time : lookupTime w = w.tRef := by rw [lookupTime, stage]
  simp only [placeStep, stage, time, lookupPose_of_wait kept unanswered met early, meetLoss_of_kept kept, takeAnswer]

end Lookup

/-- A motion wait limit that is neither 0 nor half the time base's range away has not expired at the take (R72). -/
theorem waitExpired_at_take {cfg : Configuration} {w : Working} (fresh : w.expired = false) (limited : 0 < waitTicks cfg)
    (near : waitTicks cfg < 2147483648) : waitExpired cfg w.takeTime w = false := by
  have ahead : ticksSince w.takeTime (waitDue cfg w) < 0 := by
    simp only [ticksSince, waitDue, BitVec.toInt_eq_toNat_cond, BitVec.toNat_sub, BitVec.toNat_add, BitVec.toNat_ofNat]
    split <;> omega
  simp [waitExpired, fresh, ahead]

/-! ## The reference pose (R69, R78) -/

/-- The record once the reference lookup is answered, with the pitch offset, the band times and whether the offset's clamp
bites. -/
def atReference (ref : PoseFound) (y : Int) (times : List Time) (bites : Bool) (w : Working) : Working :=
  { w with
    refYaw := ref.yaw
    refPitch := ref.pitch
    yP := y
    bandTimes := times
    flags := { mergeFlags w.flags ref.flags with pitchClamp := (mergeFlags w.flags ref.flags).pitchClamp || bites }
    stage := .band 0 }

/-- The opening frame's reference pose is the sweep's origin (R78). -/
def originSet (ref : PoseFound) (s : State) : State :=
  { s with place := { s.place with originYaw := some ref.yaw, originPitch := some ref.pitch } }

theorem afterReference_of_opening {w : Working} (opening : w.cls = .opening) (ref : PoseFound) (s : State) :
    afterReference ref w s = .goOn (atReference ref 0 (bandTimesOf s w.slot 0) false w) (originSet ref s) := by
  simp [afterReference, opening, atReference, originSet]

theorem afterReference_of_known {w : Working} {s : State} (other : w.cls ≠ .opening)
    (known : s.place.direction ≠ .unknown) (ref : PoseFound) {raw y : Int}
    (hraw : raw = rawPitchOffset s.sweepCfg ref.pitch w.trimPitch (s.place.originPitch.getD 0))
    (hy : y = clampPitch s.sweepCfg raw) :
    afterReference ref w s =
      .goOn (atReference ref y (bandTimesOf s w.slot y) (pitchClamps s.sweepCfg raw) w) s := by
  subst hy hraw
  simp [afterReference, other, known, atReference]

theorem bandTimesOf_getD {k : Nat} (hk : k < 8) (s : State) (slot : Nat) (y : Int) :
    (bandTimesOf s slot y).getD k 0 = bandTime s.sweepCfg (slotInfo s.ingest.slots slot) k y := by
  have all : bands = List.range 8 := rfl
  simp [bandTimesOf, all, hk]

/-! ## The bands (R69, R75) -/

/-- The flags of a frame with those of the bands below `k` (R75). -/
def bandFlags (pose : Nat → PoseFound) (k : Nat) (f : FrameFlags) : FrameFlags :=
  (List.range k).foldl (fun f j => mergeFlags f (pose j).flags) f

/-- The record once the lookups of the bands below `k` are answered. -/
def atBand (pose : Nat → PoseFound) (k : Nat) (w : Working) : Working :=
  { w with
    bandYaws := (List.range k).map fun j => (pose j).yaw
    flags := bandFlags pose k w.flags
    stage := .band k }

theorem atBand_zero {w : Working} (yaws : w.bandYaws = []) (stage : w.stage = .band 0) (pose : Nat → PoseFound) :
    atBand pose 0 w = w := by
  cases w
  subst yaws stage
  rfl

/-- A band's answer takes the record on to the next band. -/
theorem atBand_succ (pose : Nat → PoseFound) (k : Nat) (w : Working) :
    { atBand pose k w with
      bandYaws := (atBand pose k w).bandYaws ++ [(pose k).yaw]
      flags := mergeFlags (atBand pose k w).flags (pose k).flags
      stage := .band (k + 1) } = atBand pose (k + 1) w := by
  simp [atBand, bandFlags, List.range_succ]

theorem afterBand_of_lt {k : Nat} (hk : k + 1 < 8) (pose : Nat → PoseFound) (w : Working) (s : State) :
    afterBand k (pose k) (atBand pose k w) s = .goOn (atBand pose (k + 1) w) s := by
  simp only [afterBand, hk, if_true, atBand_succ]

theorem afterBand_seven (pose : Nat → PoseFound) (w : Working) (s : State) :
    afterBand 7 (pose 7) (atBand pose 7 w) s = .rest
      (if w.cls = .opening then holdOpening (atBand pose 8 w) s else columnStep (atBand pose 8 w) s) := by
  have same : (atBand pose 7 w).cls = w.cls := rfl
  simp only [afterBand, lt_irrefl, if_false, same]
  split <;> rfl

section Bands

variable {w : Working} {s : State} {pose : Nat → PoseFound} (kept : s.place.motionLost = false)
  (found : ∀ k, k < 8 → lookupRing s.motion.ring (w.bandTimes.getD k 0) = some (pose k))
include kept found

theorem placeStep_atBand {k : Nat} (hk : k < 8) (v : Working) : placeStep (atBand pose k w) (placing v s) =
    afterBand k (pose k) (atBand pose k w) (placing v s) :=
  placeStep_band (s := placing v s) kept rfl (found k hk)

/-- The first bands take one step each. -/
theorem placeRun_atBand {k : Nat} (hk : k < 8) :
    placeRun 8 (atBand pose 0 w) s = placeRun (8 - k) (atBand pose k w) s := by
  induction k with
  | zero => rfl
  | succ k ih =>
    have step := (placeStep_atBand kept found (by omega) (atBand pose k w)).trans (afterBand_of_lt hk ..)
    have fuel : 8 - k = (8 - (k + 1)) + 1 := by omega
    rw [ih (by omega), fuel, placeRun_of_goOn step, placeRun_placing]

/-- The eighth step ends the lookups. -/
theorem placeRun_bands : placeRun 8 (atBand pose 0 w) s =
    if w.cls = .opening then holdOpening (atBand pose 8 w) (placing (atBand pose 7 w) s)
    else columnStep (atBand pose 8 w) (placing (atBand pose 7 w) s) := by
  rw [placeRun_atBand kept found (k := 7) (by omega)]
  exact placeRun_of_rest ((placeStep_atBand kept found (by omega) _).trans (afterBand_seven ..)) 0

end Bands

/-! ## The whole run (R66, R70) -/

section Run

variable {w : Working} {s : State} {ref : PoseFound} {pose : Nat → PoseFound} {y : Int}
  (kept : s.place.motionLost = false) (stage : w.stage = .reference) (yaws : w.bandYaws = [])
  (answered : lookupRing s.motion.ring w.tRef = some ref)
  (found : ∀ k, k < 8 →
    lookupRing s.motion.ring (bandTime s.sweepCfg (slotInfo s.ingest.slots w.slot) k y) = some (pose k))

include kept stage in
theorem placeRun_of_wait (unanswered : lookupRing s.motion.ring w.tRef = none) (met : w.metLoss = false)
    (early : waitExpired s.sweepCfg s.timeBase w = false) :
    placeRun placeFuel w s = { s with place := { s.place with state := .waitMotion, work := some w } } :=
  placeRun_of_rest (placeStep_wait (s := placing w s) kept stage unanswered met early) 8

include yaws in
/-- The reference lookup leaves the record at band 0 with no yaw yet. -/
theorem atBand_zero_atReference (times : List Time) (bites : Bool) :
    atBand pose 0 (atReference ref y times bites w) = atReference ref y times bites w :=
  atBand_zero (w := atReference ref y times bites w) yaws rfl pose

include kept stage yaws answered found

theorem placeRun_of_opening (opening : w.cls = .opening) (level : y = 0) :
    ∃ v, placeRun placeFuel w s =
      holdOpening (atBand pose 8 (atReference ref 0 (bandTimesOf s w.slot 0) false w))
        (placing v (originSet ref s)) := by
  subst level
  have step : placeStep w (placing w s) =
      .goOn (atReference ref 0 (bandTimesOf s w.slot 0) false w) (placing w (originSet ref s)) :=
    (placeStep_reference (s := placing w s) kept stage answered).trans (afterReference_of_opening opening ref _)
  rw [placeFuel, placeRun_of_goOn step, ← atBand_zero_atReference (pose := pose) yaws, placeRun_placing,
    placeRun_bands (s := originSet ref s) kept, if_pos (by exact opening)]
  · exact ⟨_, rfl⟩
  · intro k hk
    exact (congrArg _ (bandTimesOf_getD hk ..)).trans (found k hk)

theorem placeRun_of_known (other : w.cls ≠ .opening) (known : s.place.direction ≠ .unknown) {raw : Int}
    (hraw : raw = rawPitchOffset s.sweepCfg ref.pitch w.trimPitch (s.place.originPitch.getD 0))
    (hy : y = clampPitch s.sweepCfg raw) :
    ∃ v, placeRun placeFuel w s =
      columnStep (atBand pose 8 (atReference ref y (bandTimesOf s w.slot y) (pitchClamps s.sweepCfg raw) w))
        (placing v s) := by
  have step : placeStep w (placing w s) =
      .goOn (atReference ref y (bandTimesOf s w.slot y) (pitchClamps s.sweepCfg raw) w) (placing w s) :=
    (placeStep_reference (s := placing w s) kept stage answered).trans
      (afterReference_of_known (s := placing w s) other known ref hraw hy)
  rw [placeFuel, placeRun_of_goOn step, ← atBand_zero_atReference (pose := pose) yaws, placeRun_placing,
    placeRun_bands kept, if_neg (by exact other)]
  · exact ⟨_, rfl⟩
  · intro k hk
    exact (congrArg _ (bandTimesOf_getD hk ..)).trans (found k hk)

end Run

end Sys2Proof.Machine
end

section
/-! SUPPORT. A completed frame taken by a free engine, up to the state in which it rests, with O28 from it (R57, R66, R76,
R78, R82). -/

namespace Sys2Proof.Machine

/-! ## The record of the take (R66, R67) -/

/-- The working placement record of the completed frame in slot i: its opening mark is the one it takes (R57). -/
def takenRecord (s : State) (i : Nat) : Working :=
  { workingRecord s i with
    cls := classify { slotInfo s.ingest.slots i with opening := takesOpening s i } s.place.originYaw.isSome }

theorem takenRecord_cls {s : State} {i : Nat} (placed : takesOpening s i = false → s.place.originYaw.isSome = true) :
    (takenRecord s i).cls =
      if takesOpening s i then .opening else if (slotInfo s.ingest.slots i).guide then .guide else .ordinary := by
  cases opening : takesOpening s i
  · simp [takenRecord, classify, opening, placed opening]
  · simp [takenRecord, classify, opening]

theorem takenRecord_cls_ne_early {s : State} {i : Nat}
    (placed : takesOpening s i = false → s.place.originYaw.isSome = true) :
    (takenRecord s i).cls ≠ .earlyGuide := by
  rw [takenRecord_cls placed]
  split
  · decide
  · split <;> decide

/-- A GUIDE frame with no origin yet takes no opening mark and is early (R57, R82). -/
theorem takesOpening_of_guide {s : State} {i : Nat} (guide : (slotInfo s.ingest.slots i).guide = true) :
    takesOpening s i = false := by
  simp [takesOpening, guide]

theorem takenRecord_of_early {s : State} {i : Nat} (guide : (slotInfo s.ingest.slots i).guide = true)
    (unplaced : s.place.originYaw = none) : (takenRecord s i).cls = .earlyGuide := by
  simp [takenRecord, classify, takesOpening_of_guide guide, guide, unplaced]

/-! ## The take (R66), and the release of a frame (R62) -/

/-- A frame released outside DRAINING leaves its slot, and nothing drains (R62). -/
theorem releaseFrame_of_ne {u : State} {slot : Nat} (fate : Fate) (occupied : slotState u.ingest.slots slot ≠ .free)
    (going : u.sweep.state ≠ .draining) : releaseFrame slot fate u = { u with
      ingest := { u.ingest with
        slots := u.ingest.slots.modify slot fun x => { x with state := .free }
        queue := u.ingest.queue.filter fun k => decide (k ≠ slot) }
      sweep := { u.sweep with counters := countFate fate u.sweep.counters }
      place := { u.place with state := .ready, work := none } } := by
  simp only [releaseFrame, freeSlot, occupied, if_false]
  exact drainTest_of_ne _ going

/-- The completed frame is released as an early guide frame: FREE again and counted as guide (R82). -/
def releasedLast (i line : Nat) (words : List Half) (s : State) : State :=
  { engagedLast i line words s with
    ingest := { (engagedLast i line words s).ingest with
      slots := (engagedLast i line words s).ingest.slots.modify i fun x => { x with state := .free }
      queue := [] }
    sweep := { s.sweep with counters := { s.sweep.counters with guide := holdCount (s.sweep.counters.guide + 1) } }
    place := { s.place with state := .ready, work := none } }

section Take

variable {s t : State} {i line : Nat} {words : List Half} (h : LastLine s i line words)
include h

theorem LastLine.workingRecord_eq : workingRecord (queuedLast i line words s) i = takenRecord s i := by
  have info : slotInfo (queuedLast i line words s).ingest.slots i =
      { slotInfo s.ingest.slots i with opening := takesOpening s i } := h.slotInfo_completed ..
  simp only [workingRecord, info]
  rfl

theorem LastLine.takeFrame_eq (empty : s.ingest.queue = []) : takeFrame i (queuedLast i line words s) =
    if (takenRecord s i).cls = .earlyGuide then releaseFrame i .guide (engagedLast i line words s)
    else placeRun placeFuel (takenRecord s i) (engagedLast i line words s) := by
  rw [takeFrame, h.workingRecord_eq, h.engaged_eq empty]

/-- The opening mark changes no band time (R69). -/
theorem LastLine.bandTime_eq (k : Nat) (y : Int) :
    bandTime s.sweepCfg (slotInfo (engagedLast i line words s).ingest.slots i) k y =
      bandTime s.sweepCfg (slotInfo s.ingest.slots i) k y := by
  have info : slotInfo (engagedLast i line words s).ingest.slots i =
      { slotInfo s.ingest.slots i with opening := takesOpening s i } := h.slotInfo_completed ..
  rw [info]
  rfl

/-- The line closes, a free engine takes the frame, and it is placed until it rests. -/
theorem LastLine.exec_of_placed (free : ∀ j, slotState s.ingest.slots j ≠ .engaged) (empty : s.ingest.queue = [])
    (state : s.sweep.state = .opened ∨ s.sweep.state = .draining)
    (placed : takesOpening s i = false → s.place.originYaw.isSome = true)
    (run : placeRun placeFuel (takenRecord s i) (engagedLast i line words s) = t) (left : t.ingest.queue = []) :
    exec (.pixelLineClose words) s = .next (settle false false t) := by
  have taken : takeFrame i (queuedLast i line words s) = t := by
    rw [h.takeFrame_eq empty, if_neg (takenRecord_cls_ne_early placed), run]
  rw [h.exec_eq, h.engineGo_eq free empty state taken left]

/-! ## A busy engine, and an early guide frame -/

/-- A busy engine leaves the frame QUEUED. -/
theorem LastLine.exec_of_busy (busy : anySlot s.ingest.slots .engaged = true) :
    exec (.pixelLineClose words) s = .next (settle false false (queuedLast i line words s)) := by
  have still : anySlot (queuedLast i line words s).ingest.slots .engaged = true :=
    anySlot_modify (by decide) _ (by rw [h.filling]; decide) busy
  rw [h.exec_eq, engineGo_of_engaged _ _ still]

/-- An early guide frame is taken and released at once (R82). -/
theorem LastLine.exec_of_early (free : ∀ j, slotState s.ingest.slots j ≠ .engaged) (empty : s.ingest.queue = [])
    (opened : s.sweep.state = .opened) (guide : (slotInfo s.ingest.slots i).guide = true)
    (unplaced : s.place.originYaw = none) :
    exec (.pixelLineClose words) s = .next (settle false false (releasedLast i line words s)) := by
  have engaged : slotState (engagedLast i line words s).ingest.slots i = .engaged := h.slotState_completed ..
  have queue : (engagedLast i line words s).ingest.queue.filter (fun k => decide (k ≠ i)) = [] :=
    congrArg (List.filter _) empty
  have going : (engagedLast i line words s).sweep.state ≠ .draining := by simp [engagedLast, opened]
  have taken := h.takeFrame_eq empty
  rw [if_pos (takenRecord_of_early guide unplaced), releaseFrame_of_ne Fate.guide (by rw [engaged]; decide) going, queue]
    at taken
  rw [h.exec_eq, h.engineGo_eq free empty (.inl opened) taken rfl]
  rfl

end Take

/-! ## A frame that waits -/

/-- No answer for the reference time of a frame just taken: it waits (R72). -/
theorem placeRun_takenRecord_of_wait {s : State} {i line : Nat} {words : List Half} (kept : s.place.motionLost = false)
    (unanswered : lookupRing s.motion.ring (takenRecord s i).tRef = none) (limited : 0 < waitTicks s.sweepCfg)
    (near : waitTicks s.sweepCfg < 2147483648) :
    placeRun placeFuel (takenRecord s i) (engagedLast i line words s) = { engagedLast i line words s with
      place := { s.place with state := .waitMotion, work := some (takenRecord s i) } } :=
  placeRun_of_wait (s := engagedLast i line words s) kept rfl unanswered rfl
    (waitExpired_at_take (w := takenRecord s i) rfl limited near)

/-! ## The opening frame HELD (R78, R127) -/

/-- An opening frame in OPEN with the direction unknown is held as `heldOpening` says, for any record that agrees with
its own on what is saved and offered. -/
theorem holdOpening_eq_heldOpening {w v : Working} {s : State} {yaw : Int} {flags : FrameFlags}
    (opened : s.sweep.state = .opened) (unknown : s.place.direction = .unknown) (opening : w.cls = .opening)
    (slot : w.slot = v.slot) (seq : w.seq = v.seq) (yP : w.yP = v.yP) (refYaw : w.refYaw = v.refYaw)
    (yaws : w.bandYaws = v.bandYaws ++ [yaw]) (hflags : w.flags = flags) :
    holdOpening w s = heldOpening s v yaw flags := by
  have offer : placementOffer w 0 0 s =
      { s with comp := { s.comp with guide := (heldOpening s v yaw flags).comp.guide } } := by
    simp [placementOffer, opened, offerGuide, unknown, opening, speedStatus, heldOpening, seq, yP, hflags] <;> rfl
  have saved : (⟨w.refYaw, w.bandYaws, w.flags⟩ : SavedPoses) = ⟨v.refYaw, v.bandYaws ++ [yaw], flags⟩ := by
    rw [refYaw, yaws, hflags]
  have going : (heldOpening s v yaw flags).sweep.state ≠ .draining := by simp [heldOpening, opened]
  rw [holdOpening, offer, saved, slot]
  exact drainTest_of_ne (heldOpening s v yaw flags) going

/-! ## The flags of the lookups (R69, R75, R76) -/

theorem mergeFlags_clear (f : FrameFlags) : mergeFlags .clear f = f := by
  simp [mergeFlags, FrameFlags.clear]

/-- The pitch clamp's flag may be put in before the bands' flags or after them. -/
theorem bandFlags_pitchClamp (pose : Nat → PoseFound) (k : Nat) (f : FrameFlags) (bites : Bool) :
    bandFlags pose k { f with pitchClamp := f.pitchClamp || bites } =
      { bandFlags pose k f with pitchClamp := (bandFlags pose k f).pitchClamp || bites } := by
  induction k with
  | zero => rfl
  | succ k ih =>
    have succ (f : FrameFlags) : bandFlags pose (k + 1) f = mergeFlags (bandFlags pose k f) (pose k).flags := by
      simp [bandFlags, List.range_succ]
    rw [succ, succ, ih]
    simp [mergeFlags, Bool.or_right_comm]

/-- What the lookups leave a fresh record's flags at. -/
theorem atBand_atReference_flags {w : Working} (clear : w.flags = .clear) (pose : Nat → PoseFound) (ref : PoseFound)
    (y : Int) (times : List Time) (bites : Bool) (k : Nat) :
    (atBand pose k (atReference ref y times bites w)).flags =
      { bandFlags pose k ref.flags with pitchClamp := (bandFlags pose k ref.flags).pitchClamp || bites } := by
  rw [← bandFlags_pitchClamp, ← mergeFlags_clear ref.flags, ← clear]
  rfl

theorem clampPitch_eq (cfg : Configuration) (raw : Int) :
    clampPitch cfg raw = max (-(cfg.margin : Int)) (min cfg.margin raw) := clampInt_eq_max_min (by omega) raw

theorem clampShift_eq (v : Int) : clampShift v = max (-64) (min 64 v) := clampInt_eq_max_min (by decide) v

theorem clampShift_ne_iff (v : Int) : clampShift v ≠ v ↔ 64 < |v| := by
  rw [clampShift_eq, lt_abs]
  omega

/-! ## The column step (R76, R127) -/

/-- The record after the column step. -/
def columnPlaced (s : State) (w : Working) : Working :=
  { w with
    xC := predictedCentre s.sweepCfg s.place.direction w.refYaw w.trimYaw (s.place.originYaw.getD 0)
    shifts := bandShifts s.sweepCfg s.place.direction w.refYaw w.bandYaws
    flags := { w.flags with
      rsClamp := w.flags.rsClamp || shiftsClamp s.sweepCfg s.place.direction w.refYaw w.bandYaws }
    stage := .placed }

theorem columnStep_eq (w : Working) (s : State) : columnStep w s = offerAndRegister (columnPlaced s w) s := rfl

/-- The frame with its column makes its offer, as the guide record's mark says a GUIDE frame or not, and its search begins
(R93, R127). -/
def searchBegun (w : Working) (guideMark : Bool) (s : State) : State :=
  { s with
    place := { s.place with state := .passed, work := some w }
    reg := { s.reg with state := .searching }
    comp := { s.comp with
      guide := offerGuide s.sweepCfg s w guideMark
        (leastEnd s.sweepCfg (bandEdges s.sweepCfg w.xC w.shifts) - s.comp.front)
        (s.comp.front - minOf 0 (bandEdges s.sweepCfg w.xC w.shifts)) } }

/-- In OPEN with a patch in LEAD the column step leads to the search. -/
theorem columnStep_of_lead {w : Working} {s : State} (opened : s.sweep.state = .opened) (lead : s.reg.lead ≠ []) :
    columnStep w s = searchBegun (columnPlaced s w) (decide (w.cls = .guide)) s := by
  have same : (columnPlaced s w).cls = w.cls := rfl
  simp [columnStep_eq, offerAndRegister, placementOffer, opened, registerFrame, lead, same, searchBegun]

section ColumnPlaced

variable {s : State} {w : Working} {sign : Int} (hsign : dirSign s.place.direction = sign) {yaw : Nat → Int}
  (yaws : w.bandYaws = (List.range 8).map yaw)
include hsign yaws

theorem columnPlaced_shifts : (columnPlaced s w).shifts = (List.range 8).map fun k =>
    max (-64) (min 64 (sign * (yaw k - w.refYaw) / s.sweepCfg.columnAngle)) := by
  simp only [columnPlaced, bandShifts, yaws, List.map_map, rawShift, hsign, clampShift_eq]
  rfl

theorem columnPlaced_flags : (columnPlaced s w).flags = { w.flags with
    rsClamp := w.flags.rsClamp ||
      (List.range 8).any fun k => decide (64 < |sign * (yaw k - w.refYaw) / s.sweepCfg.columnAngle|) } := by
  simp only [columnPlaced, shiftsClamp, yaws, List.any_map, rawShift, hsign, clampShift_ne_iff]
  rfl

end ColumnPlaced

theorem dirSign_eq (dir : Direction) : dirSign dir = if dir = .minus then -1 else 1 := by
  cases dir <;> rfl

/-- The record with which a frame of known direction is searched. -/
def searchedRecord (s : State) (i : Nat) (ref : PoseFound) (pose : Nat → PoseFound) (y raw : Int) (times : List Time) :
    Working :=
  columnPlaced s (atBand pose 8 (atReference ref y times (pitchClamps s.sweepCfg raw) (takenRecord s i)))

theorem searchedRecord_flags {s : State} {i : Nat} {ref : PoseFound} {pose : Nat → PoseFound} {y raw sign : Int}
    {times : List Time} (hsign : dirSign s.place.direction = sign)
    (hy : y = max (-(s.sweepCfg.margin : Int)) (min s.sweepCfg.margin raw)) :
    (searchedRecord s i ref pose y raw times).flags = { bandFlags pose 8 ref.flags with
      pitchClamp := (bandFlags pose 8 ref.flags).pitchClamp || decide (y ≠ raw)
      rsClamp := (bandFlags pose 8 ref.flags).rsClamp ||
        (List.range 8).any fun k => decide (64 < |sign * ((pose k).yaw - ref.yaw) / s.sweepCfg.columnAngle|) } := by
  have clamps : pitchClamps s.sweepCfg raw = decide (y ≠ raw) := by rw [pitchClamps, clampPitch_eq, ← hy]
  rw [searchedRecord, columnPlaced_flags hsign (yaw := fun k => (pose k).yaw) rfl, atBand_atReference_flags rfl, clamps]
  rfl

/-! ## The outcomes of the last line -/

section Outcomes

variable {s : State} {i line : Nat} {words : List Half} (h : LastLine s i line words)
include h

/-- The early guide frame's slot is FREE again (R62). -/
theorem LastLine.slotState_released : slotState (releasedLast i line words s).ingest.slots i = .free := by
  obtain ⟨slot, at_i, -⟩ := h.slot
  refine slotState_modify_self (slot := { slot with
    state := .engaged, info := { slot.info with opening := takesOpening s i } }) _ ?_
  simp [engagedLast, completedIngest, at_i]

omit h in
theorem slotState_releasedLast_ne {j : Nat} (hj : j ≠ i) :
    slotState (releasedLast i line words s).ingest.slots j = slotState s.ingest.slots j :=
  (slotState_modify_ne _ _ hj.symm).trans (slotState_modify_ne _ _ hj.symm)

omit h in
/-- A GUIDE frame leaves the opening mark to a later frame (R57). -/
theorem openingAssigned_releasedLast (guide : (slotInfo s.ingest.slots i).guide = true) :
    (releasedLast i line words s).ingest.openingAssigned = s.ingest.openingAssigned := by
  simp [releasedLast, engagedLast, completedIngest, takesOpening_of_guide guide]

variable (empty : s.ingest.queue = []) (free : ∀ j, slotState s.ingest.slots j ≠ .engaged)
include empty free

variable (placed : takesOpening s i = false → s.place.originYaw.isSome = true) (kept : s.place.motionLost = false)
include placed kept

/-- The frame waits where the ring does not answer its reference time. -/
theorem LastLine.waits (state : s.sweep.state = .opened ∨ s.sweep.state = .draining)
    (unanswered : lookupRing s.motion.ring (takenRecord s i).tRef = none) (limited : 0 < waitTicks s.sweepCfg)
    (near : waitTicks s.sweepCfg < 2147483648) :
    ∃ t, exec (.pixelLineClose words) s = .next t ∧ t.place.work = some (takenRecord s i) ∧
      settlesTo { engagedLast i line words s with
        place := { s.place with state := .waitMotion, work := some (takenRecord s i) } } t := by
  have run := placeRun_takenRecord_of_wait (line := line) (words := words) kept unanswered limited near
  exact ⟨_, h.exec_of_placed free empty state placed run empty, by rw [settle_place], settle_settlesTo ..⟩

variable {ref : PoseFound} {pose : Nat → PoseFound} {y : Int} (opened : s.sweep.state = .opened)
  (answered : lookupRing s.motion.ring (takenRecord s i).tRef = some ref)
  (found : ∀ k, k < 8 →
    lookupRing s.motion.ring (bandTime s.sweepCfg (slotInfo s.ingest.slots i) k y) = some (pose k))
include opened answered found

/-- The opening frame sets the origin and is HELD. -/
theorem LastLine.held (opening : takesOpening s i = true) (level : y = 0) (unknown : s.place.direction = .unknown)
    {v : Working} (slot : v.slot = i) (seq : v.seq = (slotInfo s.ingest.slots i).seq) (yP : v.yP = 0)
    (refYaw : v.refYaw = ref.yaw) (yaws : v.bandYaws = (List.range 7).map fun k => (pose k).yaw) :
    ∃ t, exec (.pixelLineClose words) s = .next t ∧
      settlesTo (heldOpening (originSet ref (engagedLast i line words s)) v (pose 7).yaw (bandFlags pose 8 ref.flags))
        t := by
  have cls : (takenRecord s i).cls = .opening := by rw [takenRecord_cls placed, opening]; rfl
  obtain ⟨x, run⟩ := placeRun_of_opening (s := engagedLast i line words s) (w := takenRecord s i) kept rfl rfl answered
    (fun k hk => (congrArg _ (h.bandTime_eq k y)).trans (found k hk)) cls level
  have hold := holdOpening_eq_heldOpening (s := placing x (originSet ref (engagedLast i line words s))) (v := v)
    (w := atBand pose 8 (atReference ref 0 (bandTimesOf (engagedLast i line words s) (takenRecord s i).slot 0) false
      (takenRecord s i))) (yaw := (pose 7).yaw) (flags := bandFlags pose 8 ref.flags)
    opened unknown cls slot.symm seq.symm yP.symm refYaw.symm (by rw [yaws]; rfl)
    (by rw [atBand_atReference_flags rfl, Bool.or_false])
  exact ⟨_, h.exec_of_placed free empty (.inl opened) placed (run.trans hold) empty, settle_settlesTo ..⟩

/-- With the direction known the frame takes its column and is searched. -/
theorem LastLine.searched (other : takesOpening s i = false) (known : s.place.direction ≠ .unknown)
    (lead : s.reg.lead ≠ []) {raw : Int}
    (hraw : raw = rawPitchOffset s.sweepCfg ref.pitch s.comp.trimPitch (s.place.originPitch.getD 0))
    (hy : y = clampPitch s.sweepCfg raw) :
    exec (.pixelLineClose words) s = .next (settle false false
      (searchBegun (searchedRecord s i ref pose y raw (bandTimesOf (engagedLast i line words s) i y))
        (slotInfo s.ingest.slots i).guide (engagedLast i line words s))) := by
  have cls := takenRecord_cls placed
  rw [other] at cls
  have ordinary : (takenRecord s i).cls ≠ .opening := by rw [cls]; cases (slotInfo s.ingest.slots i).guide <;> decide
  have mark : decide ((takenRecord s i).cls = .guide) = (slotInfo s.ingest.slots i).guide := by
    rw [cls]; cases (slotInfo s.ingest.slots i).guide <;> rfl
  obtain ⟨x, run⟩ := placeRun_of_known (s := engagedLast i line words s) (w := takenRecord s i) kept rfl rfl answered
    (fun k hk => (congrArg _ (h.bandTime_eq k y)).trans (found k hk)) ordinary known hraw hy
  rw [columnStep_of_lead (s := placing x (engagedLast i line words s)) opened lead] at run
  rw [h.exec_of_placed free empty (.inl opened) placed run empty, ← mark]
  rfl

end Outcomes

/-- Settles O28: a busy engine leaves the frame QUEUED; a free one takes it, and the class of the frame and the ring's
answers decide among its release, its wait, the held opening frame and the search. -/
theorem lastLineCompletesTheFrame : Obligations.LastLineCompletesTheFrame := by
  refine ⟨?_, ?_, ?_⟩
  · intro s i line words opening port width last filling busy hopening
    have h : LastLine s i line words := ⟨port, width, last, filling⟩
    subst hopening
    exact ⟨_, h.exec_of_busy busy, settle_settlesTo ..⟩
  · intro s i line words port width last filling guide unplaced opened empty free
    have h : LastLine s i line words := ⟨port, width, last, filling⟩
    have run := h.exec_of_early free empty opened guide unplaced
    obtain ⟨_, _, _, _, _, _, _, settled⟩ := settle_only false false (releasedLast i line words s)
    rw [settled] at run
    exact ⟨_, run, h.slotState_released, rfl, fun j => slotState_releasedLast_ne, rfl,
      openingAssigned_releasedLast (line := line) (words := words) guide, rfl, rfl, rfl, rfl, rfl, rfl, rfl, rfl, rfl, rfl, rfl⟩
  · intro s i line words info opening tRef ingest port width last filling free empty hinfo hopening placed kept htRef
      hingest
    have h : LastLine s i line words := ⟨port, width, last, filling⟩
    subst hinfo hopening htRef hingest
    refine ⟨fun state unanswered limited near => ?_, fun ref pose y flags answered found hflags => ⟨?_, ?_⟩⟩
    · obtain ⟨t, run, work, settled⟩ := h.waits empty free placed kept state unanswered limited near
      exact ⟨t, takenRecord s i, run, work, settled, rfl, rfl, rfl, rfl, rfl, rfl, rfl, rfl, rfl, takenRecord_cls placed⟩
    · intro v opening level opened unknown slot seq yP refYaw yaws
      subst hflags
      exact h.held empty free placed kept opened answered found opening level unknown slot seq yP refYaw yaws
    · intro raw sign other opened known hsign lead hraw hy
      subst hflags
      have run := h.searched empty free placed kept opened answered found other known lead hraw
        (hy.trans (clampPitch_eq ..).symm)
      have sign' : dirSign s.place.direction = sign := (dirSign_eq _).trans hsign.symm
      refine ⟨_, _, run, by rw [settle_place]; rfl, ?_, ?_⟩
      · rw [settle_guide]; exact (settle_settlesTo ..).1
      · rw [settle_guide]
        refine ⟨rfl, rfl, rfl, rfl, ?_, columnPlaced_shifts sign' rfl, ?_, rfl, rfl, rfl, rfl, rfl, rfl, rfl, rfl, rfl⟩
        · rw [← sign']; rfl
        · rw [searchedRecord_flags sign' hy]; rfl

end Sys2Proof.Machine
end

section
/-! SUPPORT. What the release of a frame, the hand-over of a final placement and the direction step leave of the state
(R62, R79, R80, R105, R109). -/

namespace Sys2Proof.Machine

/-! ## The guide record's offer, and strip 0 (R80, R127) -/

theorem placementOffer_eq (w : Working) (advance overlap : Int) (s : State) : placementOffer w advance overlap s =
    { s with comp := { s.comp with guide :=
      if s.sweep.state = .opened then offerGuide s.sweepCfg s w (decide (w.cls = .guide)) advance overlap
      else s.comp.guide } } := by
  unfold placementOffer
  split <;> rfl

/-- Strip 0 handed over touches the compositor's state and work alone (R80). -/
theorem handStrip0_eq (s : State) : ∃ st job waiting todo, handStrip0 s =
    { s with comp := { s.comp with state := st, job := job, waiting := waiting, todo := todo } } := by
  unfold handStrip0
  split
  · split <;> exact ⟨_, _, _, _, rfl⟩
  · exact ⟨_, _, _, _, rfl⟩

/-! ## An empty queue stays empty -/

theorem drainTest_queue (s : State) : (drainTest s).ingest.queue = s.ingest.queue := by
  unfold drainTest
  split
  · split
    · obtain ⟨_, _, done⟩ := enterDone_eq s
      rw [done]
    · obtain ⟨_, _, _, _, handed⟩ := handStrip0_eq
        { s with place := { s.place with direction := .plus, state := .passed } }
      rw [drainHandOver, handed]
  · rfl

theorem releaseFrame_queue {s : State} (empty : s.ingest.queue = []) (slot : Nat) (fate : Fate) :
    (releaseFrame slot fate s).ingest.queue = [] := by
  rw [releaseFrame, drainTest_queue]
  unfold freeSlot
  split
  · exact empty
  · simp [empty]

theorem directionStep_queue {s : State} (empty : s.ingest.queue = []) (w : Working) :
    (directionStep w s).ingest.queue = [] := by
  have offered (delta : Int) : (placementOffer w delta 0 s).ingest.queue = [] := by rw [placementOffer_eq]; exact empty
  unfold directionStep
  dsimp only
  split
  · exact releaseFrame_queue (offered _) ..
  · split
    · exact releaseFrame_queue (offered _) ..
    · unfold decideDirection
      obtain ⟨_, _, _, _, handed⟩ := handStrip0_eq _
      rw [handed]
      exact empty

/-! ## A final placement handed over outside DRAINING (R108, R109) -/

/-- At most the slots and the queue, which stays empty if it was, the sweep record, the placement unit, and the
compositor's state, work and yaw trim differ. -/
def OnlyHandOver (s t : State) : Prop :=
  ∃ ig sw pl st job waiting todo trim pending, (s.ingest.queue = [] → ig.queue = []) ∧ t = { s with
    ingest := ig
    sweep := sw
    place := pl
    comp := { s.comp with
      state := st, job := job, waiting := waiting, todo := todo, trimYaw := trim, pendingReanchor := pending } }

theorem OnlyHandOver.trans {s t u : State} : OnlyHandOver s t → OnlyHandOver t u → OnlyHandOver s u := by
  rintro ⟨_, _, _, _, _, _, _, _, _, empty, rfl⟩ ⟨_, _, _, _, _, _, _, _, _, empty', rfl⟩
  exact ⟨_, _, _, _, _, _, _, _, _, fun h => empty' (empty h), rfl⟩

theorem OnlyHandOver.queue {s t : State} (only : OnlyHandOver s t) (empty : s.ingest.queue = []) :
    t.ingest.queue = [] := by
  obtain ⟨_, _, _, _, _, _, _, _, _, kept, rfl⟩ := only
  exact kept empty

theorem applyPending_eq (s : State) : ∃ trim pending, applyPending s =
    { s with comp := { s.comp with trimYaw := trim, pendingReanchor := pending } } := by
  unfold applyPending
  split <;> exact ⟨_, _, rfl⟩

theorem releaseFrame_handOver {s : State} {slot : Nat} (fate : Fate) (occupied : slotState s.ingest.slots slot ≠ .free)
    (going : s.sweep.state ≠ .draining) : OnlyHandOver s (releaseFrame slot fate s) := by
  rw [releaseFrame_of_ne fate occupied going]
  exact ⟨_, _, _, _, _, _, _, _, _, fun empty => by simp [empty], rfl⟩

theorem advanceTest_handOver {s : State} {job : StripJob} (occupied : slotState s.ingest.slots job.slot ≠ .free)
    (going : s.sweep.state ≠ .draining) : OnlyHandOver s (advanceTest job s) := by
  unfold advanceTest
  dsimp only
  split
  · exact ⟨_, _, _, _, _, _, _, _, _, id, rfl⟩
  · generalize left : applyPending _ = u
    obtain ⟨trim, pending, applied⟩ := applyPending_eq
      { s with comp := { s.comp with state := .ready, job := none, waiting := none, todo := [] } }
    have pool : u.ingest = s.ingest := by rw [← left, applied]
    have sweep : u.sweep = s.sweep := by rw [← left, applied]
    refine OnlyHandOver.trans ?_
      (releaseFrame_handOver .noAdvance (by rw [pool]; exact occupied) (by rw [sweep]; exact going))
    exact ⟨_, _, _, _, _, _, _, _, _, id, left.symm.trans applied⟩

theorem handOver_handOver {s : State} {job : StripJob} (occupied : slotState s.ingest.slots job.slot ≠ .free)
    (going : s.sweep.state ≠ .draining) : OnlyHandOver s (handOver job s) := by
  unfold handOver
  split
  · exact ⟨_, _, _, _, _, _, _, _, _, id, rfl⟩
  · exact advanceTest_handOver occupied going

/-! ## The direction step in OPEN (R79, R80) -/

theorem slotState_freed (slots : List Slot) (i : Nat) :
    slotState (slots.modify i fun slot => { slot with state := .free }) i = .free := by
  rw [slotState_modify, if_pos rfl]
  split <;> rfl

section DirectionStep

variable {s : State} {w : Working} {delta : Int}
  (hdelta : delta = directionDelta s.sweepCfg w.refYaw w.trimYaw (s.place.originYaw.getD 0))
include hdelta

/-- A GUIDE frame and a still one take the same course under their own fates. -/
theorem directionStep_of_release (stays : w.cls = .guide ∨ |delta| < 32) : directionStep w s =
    releaseFrame w.slot (if w.cls = .guide then .guide else .still) (placementOffer w delta 0 s) := by
  unfold directionStep
  rw [← hdelta]
  by_cases guide : w.cls = .guide
  · simp only [guide, if_true]
  · have still : delta.natAbs < 32 := by
      have near := stays.resolve_left guide
      rw [abs_lt] at near
      omega
    simp only [guide, still, if_false, if_true]

theorem directionStep_of_decide (other : w.cls ≠ .guide) (far : 32 ≤ |delta|) :
    directionStep w s = decideDirection delta w s := by
  have decides : ¬ delta.natAbs < 32 := by
    rw [le_abs] at far
    omega
  unfold directionStep
  rw [← hdelta]
  simp only [other, decides, if_false]

end DirectionStep

/-- A frame that makes its offer and leaves in OPEN. -/
theorem releaseFrame_placementOffer {s : State} {w : Working} (opened : s.sweep.state = .opened)
    (occupied : slotState s.ingest.slots w.slot ≠ .free) (fate : Fate) (advance overlap : Int) :
    releaseFrame w.slot fate (placementOffer w advance overlap s) = { s with
      ingest := { s.ingest with
        slots := s.ingest.slots.modify w.slot fun x => { x with state := .free }
        queue := s.ingest.queue.filter fun k => decide (k ≠ w.slot) }
      sweep := { s.sweep with counters := countFate fate s.sweep.counters }
      place := { s.place with state := .ready, work := none }
      comp := { s.comp with
        guide := offerGuide s.sweepCfg s w (decide (w.cls = .guide)) advance overlap } } := by
  rw [placementOffer_eq, if_pos opened, releaseFrame_of_ne fate (by exact occupied) (by simp [opened])]

/-- The deciding frame's strip 0, from the HELD slot, as the compositor gets it (R80, R110). -/
theorem handStrip0_of_held {s : State} {i : Nat} {saved : SavedPoses} (held : firstSlot s.ingest.slots .held = some i)
    (kept : s.place.saved = some saved) : handStrip0 s =
      if s.comp.state = .updating then
        { s with comp := { s.comp with waiting := some (strip0Job s i saved) } }
      else beginStrip (strip0Job s i saved) s := by
  rw [handStrip0, held, kept]

end Sys2Proof.Machine
end

section
/-! SUPPORT. Placement going on from any lookup with its frame's limit expired, at a loss and by the strip history
(R72 to R76, R83). -/

namespace Sys2Proof.Machine

/-! ## One lookup (R70 to R74) -/

theorem placeStep_of_answer {w : Working} {s : State} {answer : LookupAnswer}
    (stage : w.stage = .reference ∨ ∃ k, w.stage = .band k)
    (answered : lookupPose s.sweepCfg s w (lookupTime w) = answer) :
    placeStep w s = takeAnswer answer (meetLoss s w) s := by
  subst answered
  rcases stage with stage | ⟨k, stage⟩ <;> simp only [placeStep, stage]

/-- The answer to a lookup that does not wait: the ring's, or the extrapolated pose (R70, R73). -/
def poseAt (s : State) (t : Time) : PoseFound :=
  (lookupRing s.motion.ring t).getD (extrapolate s.sweepCfg s.motion.ring t)

theorem lookupPose_of_expired {w : Working} {s : State} (kept : s.place.motionLost = false) (expired : w.expired = true)
    (t : Time) : lookupPose s.sweepCfg s w t = .found (poseAt s t) := by
  cases ring : lookupRing s.motion.ring t <;> simp [lookupPose, poseAt, kept, waitExpired, expired, ring]

theorem lookupPose_of_lost {w : Working} {s : State} (lost : s.place.motionLost = true) (bare : s.comp.strips = [])
    (t : Time) : lookupPose s.sweepCfg s w t = .found (poseAt s t) := by
  cases ring : lookupRing s.motion.ring t <;> simp [lookupPose, poseAt, lost, bare, ring]

theorem meetLoss_of_lost {w : Working} {s : State} (lost : s.place.motionLost = true) (bare : s.comp.strips = []) :
    meetLoss s w = { w with metLoss := true } := by
  simp [meetLoss, lost, bare]

/-- A frame that has met the mark with the strip count at 0 never waits again (R74). -/
theorem lookupPose_meetLoss_ne_wait {s : State} (lost : s.place.motionLost = true) (bare : s.comp.strips = [])
    (u : State) (w : Working) (t : Time) : lookupPose u.sweepCfg u (meetLoss s w) t ≠ .wait := by
  rw [meetLoss_of_lost lost bare]
  unfold lookupPose
  split
  · simp
  · split <;> simp

/-- With the mark set and a strip in the table a frame is placed by the strip history at its next lookup (R74). -/
theorem placeStep_of_history {w : Working} {s : State} (stage : w.stage = .reference ∨ ∃ k, w.stage = .band k)
    (lost : s.place.motionLost = true) (strips : s.comp.strips ≠ []) : placeStep w s = .rest (historyPlace w s) := by
  have history : lookupPose s.sweepCfg s w (lookupTime w) = .history := by simp [lookupPose, lost, strips]
  have same : meetLoss s w = w := by simp [meetLoss, strips]
  rw [placeStep_of_answer stage history, same, takeAnswer]

theorem extrapolate_eq (cfg : Configuration) {ring : List PoseEntry} {n : PoseEntry} (newest : ring.getLast? = some n)
    (t : Time) : extrapolate cfg ring t =
      { yaw := max (-1099511627776) (min 1099511627776
          (n.yaw + n.rateYaw * cfg.fsr * (t - n.time).toInt * 3 / 40960000))
        pitch := max (-1099511627776) (min 1099511627776
          (n.pitch + n.ratePitch * cfg.fsr * (t - n.time).toInt * 3 / 40960000))
        flags := { FrameFlags.clear with extrapolated := true, gap := n.gap, rateSat := n.sat } } := by
  have sat (v : Int) : satAngle v = max (-1099511627776) (min 1099511627776 v) := clampInt_eq_max_min (by decide) v
  simp only [extrapolate, newest, extrapolateAxis, sat, usedFlags, List.any_cons, List.any_nil, Bool.or_false]
  rfl

/-! ## The bands from any of them on (R69, R75) -/

/-- The record once the lookups of `m` bands from band k on are answered. -/
def bandsAnswered (pose : Time → PoseFound) (k m : Nat) (w : Working) : Working :=
  { w with
    bandYaws := w.bandYaws ++ (List.range m).map fun i => (pose (w.bandTimes.getD (k + i) 0)).yaw
    flags := (List.range m).foldl (fun f i => mergeFlags f (pose (w.bandTimes.getD (k + i) 0)).flags) w.flags
    stage := .band (k + m) }

theorem bandsAnswered_bandsAnswered (pose : Time → PoseFound) (k m : Nat) (w : Working) :
    bandsAnswered pose (k + 1) m (bandsAnswered pose k 1 w) = bandsAnswered pose k (m + 1) w := by
  have shift (i : Nat) : k + 1 + i = k + (i + 1) := by omega
  simp [bandsAnswered, List.range_succ_eq_map, List.foldl_map, shift]

theorem afterBand_eq (pose : Time → PoseFound) (k : Nat) (w : Working) (s : State) :
    afterBand k (pose (w.bandTimes.getD k 0)) w s =
      if k + 1 < 8 then .goOn (bandsAnswered pose k 1 w) s
      else if w.cls = .opening then .rest (holdOpening (bandsAnswered pose k 1 w) s)
      else .rest (columnStep (bandsAnswered pose k 1 w) s) := rfl

theorem takeAnswer_found_band {w : Working} {k : Nat} (stage : w.stage = .band k) (pose : PoseFound) (s : State) :
    takeAnswer (.found pose) w s = afterBand k pose w s := by
  rw [takeAnswer, stage]

theorem takeAnswer_found_reference {w : Working} (stage : w.stage = .reference) (pose : PoseFound) (s : State) :
    takeAnswer (.found pose) w s = afterReference pose w s := by
  rw [takeAnswer, stage]

theorem lookupTime_band {w : Working} {k : Nat} (stage : w.stage = .band k) : lookupTime w = w.bandTimes.getD k 0 := by
  rw [lookupTime, stage]

theorem lookupTime_reference {w : Working} (stage : w.stage = .reference) : lookupTime w = w.tRef := by
  rw [lookupTime, stage]

section Expired

variable {w : Working} {s : State} (kept : s.place.motionLost = false) (expired : w.expired = true)
include kept expired

theorem placeStep_band_of_expired {k : Nat} (stage : w.stage = .band k) :
    placeStep w s = afterBand k (poseAt s (w.bandTimes.getD k 0)) w s := by
  rw [placeStep_of_answer (.inr ⟨k, stage⟩) (lookupPose_of_expired kept expired _), meetLoss_of_kept kept,
    takeAnswer_found_band stage, lookupTime_band stage]

theorem placeStep_reference_of_expired (stage : w.stage = .reference) :
    placeStep w s = afterReference (poseAt s w.tRef) w s := by
  rw [placeStep_of_answer (.inl stage) (lookupPose_of_expired kept expired _), meetLoss_of_kept kept,
    takeAnswer_found_reference stage, lookupTime_reference stage]

end Expired

/-- From band k on every band is answered, and the frame is held or takes its column. -/
theorem placeRun_bands_of_expired {s : State} (kept : s.place.motionLost = false) (m : Nat) :
    ∀ {k n : Nat} {w : Working}, w.expired = true → w.stage = .band k → k + m = 7 → m < n →
      ∃ v, placeRun n w s =
        if w.cls = .opening then holdOpening (bandsAnswered (poseAt s) k (m + 1) w) (placing v s)
        else columnStep (bandsAnswered (poseAt s) k (m + 1) w) (placing v s) := by
  induction m with
  | zero =>
    intro k n w expired stage last fuel
    obtain ⟨n, rfl⟩ : ∃ n', n = n' + 1 := ⟨n - 1, by omega⟩
    have step := (placeStep_band_of_expired (s := placing w s) kept expired stage).trans (afterBand_eq ..)
    rw [if_neg (by omega), ← apply_ite Course.rest] at step
    exact ⟨w, placeRun_of_rest step n⟩
  | succ m ih =>
    intro k n w expired stage last fuel
    obtain ⟨n, rfl⟩ : ∃ n', n = n' + 1 := ⟨n - 1, by omega⟩
    have step := (placeStep_band_of_expired (s := placing w s) kept expired stage).trans (afterBand_eq ..)
    rw [if_pos (by omega)] at step
    obtain ⟨v, run⟩ := ih (k := k + 1) (n := n) (w := bandsAnswered (poseAt s) k 1 w) expired rfl (by omega) (by omega)
    rw [bandsAnswered_bandsAnswered] at run
    exact ⟨v, (placeRun_of_goOn step n).trans ((placeRun_placing ..).trans run)⟩

/-! ## The reference lookup of a frame of unknown direction (R69, R79) -/

theorem afterReference_of_unknown {w : Working} {s : State} (other : w.cls ≠ .opening)
    (unknown : s.place.direction = .unknown) (ref : PoseFound) {raw y : Int}
    (hraw : raw = rawPitchOffset s.sweepCfg ref.pitch w.trimPitch (s.place.originPitch.getD 0))
    (hy : y = clampPitch s.sweepCfg raw) :
    afterReference ref w s =
      .rest (directionStep (atReference ref y (bandTimesOf s w.slot y) (pitchClamps s.sweepCfg raw) w) s) := by
  subst hy hraw
  simp [afterReference, other, unknown, atReference]

theorem pitchClamps_eq (cfg : Configuration) {raw y : Int} (hy : y = clampPitch cfg raw) :
    pitchClamps cfg raw = decide (y ≠ raw) := by
  rw [pitchClamps, hy]

/-! ## The search of a frame with its column (R76, R93, R127) -/

theorem bandShifts_eq (cfg : Configuration) (dir : Direction) (refYaw : Int) (yaws : List Int) :
    bandShifts cfg dir refYaw yaws =
      yaws.map fun v => max (-64) (min 64 (dirSign dir * (v - refYaw) / cfg.columnAngle)) := by
  simp only [bandShifts, clampShift_eq, rawShift]

theorem shiftsClamp_eq (cfg : Configuration) (dir : Direction) (refYaw : Int) (yaws : List Int) :
    shiftsClamp cfg dir refYaw yaws =
      yaws.any fun v => decide (64 < |dirSign dir * (v - refYaw) / cfg.columnAngle|) := by
  simp only [shiftsClamp, clampShift_ne_iff, rawShift]

/-- The guide record with the offer of a frame's predicted placement (R127). -/
def offerOf (w : Working) (s : State) : GuideRecord :=
  offerGuide s.sweepCfg s w (decide (w.cls = .guide))
    (leastEnd s.sweepCfg (bandEdges s.sweepCfg w.xC w.shifts) - s.comp.front)
    (s.comp.front - minOf 0 (bandEdges s.sweepCfg w.xC w.shifts))

/-- A frame with its column makes its offer and its search begins, with a patch in LEAD or the closure measurement due
(R93). -/
theorem offerAndRegister_of_search {w : Working} {s : State}
    (search : s.reg.lead ≠ [] ∨ frameClosureDue s w = true) : offerAndRegister w s = { s with
      place := { s.place with state := .passed, work := some w }
      reg := { s.reg with state := .searching }
      comp := { s.comp with guide := if s.sweep.state = .opened then offerOf w s else s.comp.guide } } := by
  have goes : (s.reg.lead.isEmpty && !frameClosureDue s w) = false := by
    rcases search with lead | due
    · simp [lead]
    · simp [due]
  rw [offerAndRegister, placementOffer_eq]
  unfold registerFrame
  rw [if_neg (by rw [Bool.not_eq_true]; exact goes)]
  rfl

/-- What then settles leaves the guide record with the offer, or without one outside OPEN. -/
theorem settle_offerAndRegister_of_search {w : Working} {s t : State}
    (search : s.reg.lead ≠ [] ∨ frameClosureDue s w = true) (settled : t = settle false false (offerAndRegister w s)) :
    restAs { s with
      place := { s.place with state := .passed, work := some w }
      reg := { s.reg with state := .searching }
      comp := { s.comp with guide := t.comp.guide } } t ∧
    (s.sweep.state ≠ .opened → t.comp.guide = s.comp.guide) ∧
    (s.sweep.state = .opened → t.comp.guide = offerOf w s) := by
  subst settled
  rw [offerAndRegister_of_search search, settle_guide]
  exact ⟨(settle_settlesTo ..).1, fun other => if_neg other, fun opened => if_pos opened⟩

/-! ## MOTION_ONLY in OPEN (R77, R105, R128) -/

/-- A frame that has made its offer in OPEN, its registration result taken into the guide record and its edge step
done. -/
def registered (r : RegResult) (w : Working) (s : State) : State :=
  { s with
    place := { s.place with state := .passed, work := some (edgeStep s.sweepCfg r w) }
    reg := { s.reg with state := .idle }
    comp := { s.comp with guide := { offerOf w s with
      count := s.comp.guide.count + 1 + 1
      last := some ⟨r.correction, r.confident, r.inliers⟩ } } }

/-- What registration brings when it finds no correction. -/
def noCorrection : RegResult := ⟨none, 0, 0, none⟩

/-- In OPEN, with LEAD empty and no closure measurement due, the frame is released or handed over at once. -/
theorem offerAndRegister_of_motionOnly {w : Working} {s : State} (opened : s.sweep.state = .opened)
    (lead : s.reg.lead = []) (undue : frameClosureDue s w = false) : offerAndRegister w s =
      if w.cls = .guide then releaseFrame w.slot .guide (registered noCorrection w s)
      else handOver (frameJob (edgeStep s.sweepCfg noCorrection w) noCorrection) (registered noCorrection w s) := by
  have goes : (s.reg.lead.isEmpty && !frameClosureDue s w) = true := by simp [lead, undue]
  have offered : offerAndRegister w s =
      registerFrame w { s with comp := { s.comp with guide := offerOf w s } } :=
    congrArg (registerFrame w) (if_pos opened)
  have taken : recordResult noCorrection { s with
      place := { s.place with state := .passed, work := some (edgeStep s.sweepCfg noCorrection w) }
      reg := { s.reg with state := .idle }
      comp := { s.comp with guide := offerOf w s } } = registered noCorrection w s := if_pos opened
  rw [← taken, offered]
  exact if_pos goes

/-- What MOTION_ONLY leaves as it is, whichever way the frame goes on. -/
theorem offerAndRegister_handOver {w : Working} {s : State} (opened : s.sweep.state = .opened)
    (lead : s.reg.lead = []) (undue : frameClosureDue s w = false) (occupied : slotState s.ingest.slots w.slot ≠ .free) :
    OnlyHandOver (registered noCorrection w s) (offerAndRegister w s) := by
  have going : (registered noCorrection w s).sweep.state ≠ .draining := by simp [registered, opened]
  rw [offerAndRegister_of_motionOnly opened lead undue]
  split
  · exact releaseFrame_handOver .guide occupied going
  · exact handOver_handOver (s := registered noCorrection w s) occupied going

/-! ## The history column (R83) -/

theorem historyColumn_append (rest : List StripRecord) (n : StripRecord) (t : Time) : historyColumn (rest ++ [n]) t =
    match rest.getLast? with
    | none => n.xC
    | some before =>
      if 0 < (n.tRef - before.tRef).toInt then
        n.xC + (n.xC - before.xC) * (t - n.tRef).toInt / (n.tRef - before.tRef).toInt
      else n.xC := by
  rcases List.eq_nil_or_concat rest with rfl | ⟨front, before, rfl⟩
  · rfl
  · simp [historyColumn, ticksSince]

/-- The record of a frame placed by the strip history at column x with the last strip's pitch offset. -/
def historyRecord (x y : Int) (w : Working) : Working :=
  { w with
    source := .history, xC := x, shifts := List.replicate 8 0, yP := y
    flags := { w.flags with extrapolated := true }, stage := .placed }

theorem historyPlace_eq {s : State} {rest : List StripRecord} {n : StripRecord} (strips : s.comp.strips = rest ++ [n])
    (w : Working) : historyPlace w s =
      offerAndRegister (historyRecord (historyColumn (rest ++ [n]) w.tRef) n.yP w) s := by
  have last : s.comp.strips.getLast? = some n := by simp [strips]
  unfold historyPlace
  rw [last, strips]
  rfl

end Sys2Proof.Machine
end

section
/-! SUPPORT. The three ends of a motion wait, at the limit, at a loss and at a good sample, and O34 from them (R39, R41,
R72 to R83). -/

namespace Sys2Proof.Machine

/-! ## The frame that waits, and what each event makes of it -/

/-- The frame w waits for motion, and no other is queued behind it. -/
structure Waits (s : State) (w : Working) : Prop where
  state : s.place.state = .waitMotion
  work : s.place.work = some w
  empty : s.ingest.queue = []

/-- The record of a frame whose limit has expired (R72). -/
def timedOut (w : Working) : Working := { w with expired := true }

/-- The state from which the frame's placement goes on at its limit (R72). -/
def atLimit (w : Working) (s : State) : State :=
  placing (timedOut w) { s with timeBase := advanceTo (waitDue s.sweepCfg w) s.timeBase }

/-- The state in which a loss at a window's end reaches the placement unit (R41, R74). -/
def atLoss (strobeTime : Time) (s : State) : State :=
  { s with
    timeBase := advanceTo (missDue s.sweepCfg strobeTime) s.timeBase
    motion := { s.motion with tx := .absent, goodCount := 0, missCount := 8, link := .lost }
    sweep := { s.sweep with counters := { s.sweep.counters with
      samplesMissed := holdCount (s.sweep.counters.samplesMissed + 1)
      motionLosses := holdCount (s.sweep.counters.motionLosses + 1) } }
    attn := { s.attn with pendingSet := s.attn.pendingSet ||| 4 }
    place := { s.place with motionLost := true } }

/-- The state in which a good sample's entry is announced to the placement unit (R39). -/
def atSample (sample start : Time) (bytes : BitVec 48) (s : State) : State :=
  { s with timeBase := advanceTo (readDue start) s.timeBase, motion := sampleMotion sample bytes s }

theorem resumePlacement_of_waiting {s : State} {w : Working} (state : s.place.state = .waitMotion)
    (work : s.place.work = some w) : resumePlacement s = placeRun placeFuel w s := by
  rw [resumePlacement, state, work]

theorem entryAnnounced_of_answer {s : State} {w : Working} {pose : PoseFound} (state : s.place.state = .waitMotion)
    (work : s.place.work = some w) (answered : lookupRing s.motion.ring (lookupTime w) = some pose) :
    entryAnnounced s = placeRun placeFuel w s := by
  simp only [entryAnnounced, state, work, answered]

section Waits

variable {s t : State} {w : Working} (h : Waits s w)
include h

/-- At the limit placement runs on, and no other frame is taken after it (R72). -/
theorem Waits.exec_expiry (run : placeRun placeFuel (timedOut w) (atLimit w s) = t)
    (left : t.ingest.queue = []) : exec .motionWaitExpiry s = .next (settle false false t) := by
  have runs : expireWait s = t := by
    rw [expireWait, h.state, h.work]
    exact (placeRun_placing ..).symm.trans run
  have same : exec .motionWaitExpiry s = execMotionWaitExpiry s := rfl
  rw [same, execMotionWaitExpiry, engineGo_eq_of_nil runs left]

/-- The eighth miss in a row reaches the waiting frame as a loss (R41, R74). -/
theorem Waits.exec_loss {strobeTime sample : Time} (window : s.motion.tx = .window strobeTime sample)
    (link : s.motion.link = .sampling) (seven : 7 ≤ s.motion.missCount)
    (run : placeRun placeFuel w (atLoss strobeTime s) = t) (left : t.ingest.queue = []) :
    exec .sampleMissed s = .next (settle false false t) := by
  have lost : loses s.motion = true := (loses_iff _).mpr ⟨link, seven⟩
  have same : loses { s.motion with tx := .absent } = true := lost
  have eight : min (s.motion.missCount + 1) 8 = 8 := by omega
  have runs := (resumePlacement_of_waiting (s := atLoss strobeTime s) h.state h.work).trans run
  rw [exec_sampleMissed]
  refine execSampleMissed_of_window window ?_
  rw [missSample, lost, missLink, same, eight]
  exact engineGo_eq_of_nil runs left

/-- A good sample that answers the frame's lookup, and is no regain, takes placement on (R39). -/
theorem Waits.exec_sample {sample start : Time} {bytes : BitVec 48} {pose : PoseFound}
    (reading : s.motion.tx = .reading sample start) (noRegain : regains s.motion = false)
    (answered : lookupRing (sampleMotion sample bytes s).ring (lookupTime w) = some pose)
    (run : placeRun placeFuel w (atSample sample start bytes s) = t) (left : t.ingest.queue = []) :
    exec (.goodSample bytes) s = .next (settle false false t) := by
  have runs := (entryAnnounced_of_answer (s := atSample sample start bytes s) h.state h.work answered).trans run
  have taken : goodSample sample bytes { s with timeBase := advanceTo (readDue start) s.timeBase } = t := by
    rw [goodSample, noRegain]
    exact engineGo_eq_of_nil runs left
  rw [exec_goodSample, execGoodSample, reading]
  dsimp only
  rw [taken]

end Waits

/-! ## The poses of an expired wait (R70, R73) -/

/-- The answers that the ring gives and the extrapolated ones are all there are. -/
theorem eq_poseAt {s : State} {pose : Time → PoseFound}
    (answered : ∀ t p, lookupRing s.motion.ring t = some p → pose t = p)
    (extrapolated : ∀ t n, lookupRing s.motion.ring t = none → s.motion.ring.getLast? = some n →
      pose t = extrapolate s.sweepCfg s.motion.ring t)
    (short : ∀ t, s.motion.ring = [] → pose t = extrapolate s.sweepCfg s.motion.ring t) : pose = poseAt s := by
  funext t
  cases ring : lookupRing s.motion.ring t with
  | some p => rw [answered t p ring, poseAt, ring]; rfl
  | none =>
    have next : pose t = extrapolate s.sweepCfg s.motion.ring t := by
      cases last : s.motion.ring.getLast? with
      | some n => exact extrapolated t n ring last
      | none => exact short t (List.getLast?_eq_none_iff.mp last)
    rw [next, poseAt, ring]
    rfl

/-! ## The opening frame's hold (R73, R78) -/

/-- The lookups of the bands from k on, at their times. -/
theorem bandsAnswered_of_times {w : Working} {k : Nat} {times : Nat → Time}
    (htimes : ∀ j, j < 8 → w.bandTimes.getD j 0 = times j) (pose : Time → PoseFound) :
    bandsAnswered pose k (8 - k) w = { w with
      bandYaws := w.bandYaws ++ (List.range (8 - k)).map fun i => (pose (times (k + i))).yaw
      flags := (List.range (8 - k)).foldl (fun f i => mergeFlags f (pose (times (k + i))).flags) w.flags
      stage := .band (k + (8 - k)) } := by
  have time (i : Nat) (hi : i ∈ List.range (8 - k)) : w.bandTimes.getD (k + i) 0 = times (k + i) :=
    htimes _ (by rw [List.mem_range] at hi; omega)
  rw [bandsAnswered, List.map_congr_left fun i hi => by rw [time i hi],
    List.foldl_ext _ _ _ fun f i hi => by rw [time i hi]]

section Hold

variable {s : State} {w : Working} {k : Nat} {times : Nat → Time} (opening : w.cls = .opening)
  (opened : s.sweep.state = .opened) (unknown : s.place.direction = .unknown)
include opening opened unknown

/-- With the lookups of the bands from k on answered the opening frame is held. -/
theorem placeRun_held_of_expired {n : Nat} (kept : s.place.motionLost = false) (expired : w.expired = true)
    (stage : w.stage = .band k) (hk : k < 8) (fuel : 8 - k ≤ n)
    (htimes : ∀ j, j < 8 → w.bandTimes.getD j 0 = times j) :
    placeRun n w s = heldOpening s
      { w with bandYaws := w.bandYaws ++ (List.range (7 - k)).map fun i => (poseAt s (times (k + i))).yaw }
      (poseAt s (times 7)).yaw
      ((List.range (8 - k)).foldl (fun f i => mergeFlags f (poseAt s (times (k + i))).flags) w.flags) := by
  have length : 8 - k = 7 - k + 1 := by omega
  have last : k + (7 - k) = 7 := by omega
  obtain ⟨v, run⟩ := placeRun_bands_of_expired (n := n) kept (7 - k) expired stage last (by omega)
  rw [run, if_pos opening, ← length, bandsAnswered_of_times htimes]
  refine holdOpening_eq_heldOpening (s := placing v s) opened unknown opening rfl rfl rfl rfl ?_ rfl
  dsimp only
  rw [length, List.range_succ, List.map_append, List.append_assoc, List.map_singleton, last]

/-- From the reference lookup on it sets the origin and is held. -/
theorem placeRun_origin_of_expired {ref : PoseFound} (kept : s.place.motionLost = false) (expired : w.expired = true)
    (stage : w.stage = .reference) (href : ref = poseAt s w.tRef)
    (htimes : ∀ j, times j = bandTime s.sweepCfg (slotInfo s.ingest.slots w.slot) j 0) :
    placeRun placeFuel w s = heldOpening (originSet ref s)
      { w with
        refYaw := ref.yaw, yP := 0
        bandYaws := w.bandYaws ++ (List.range 7).map fun i => (poseAt s (times i)).yaw }
      (poseAt s (times 7)).yaw
      ((List.range 8).foldl (fun f i => mergeFlags f (poseAt s (times i)).flags) (mergeFlags w.flags ref.flags)) := by
  have step : placeStep w (placing w s) =
      .goOn (atReference ref 0 (bandTimesOf s w.slot 0) false w) (placing w (originSet ref s)) := by
    rw [href]
    exact (placeStep_reference_of_expired (s := placing w s) kept expired stage).trans
      (afterReference_of_opening opening ..)
  have run := placeRun_held_of_expired (n := 8) (s := originSet ref s) (k := 0) (times := times)
    (w := atReference ref 0 (bandTimesOf s w.slot 0) false w) opening opened unknown kept expired rfl
    (by omega) le_rfl fun j hj => (bandTimesOf_getD hj ..).trans (htimes j).symm
  have level : (atReference ref 0 (bandTimesOf s w.slot 0) false w).flags = mergeFlags w.flags ref.flags := by
    simp [atReference]
  simp only [Nat.zero_add, Nat.sub_zero, level] at run
  rw [placeFuel, placeRun_of_goOn step, placeRun_placing, run]
  rfl

/-- The answer at the last band holds the opening frame. -/
theorem placeRun_held_of_answer {pose : PoseFound} (stage : w.stage = .band 7)
    (answered : lookupPose s.sweepCfg (placing w s) w (w.bandTimes.getD 7 0) = .found pose) :
    placeRun placeFuel w s = heldOpening s w pose.yaw (mergeFlags w.flags pose.flags) := by
  obtain ⟨met, hmet⟩ : ∃ met, meetLoss (placing w s) w = { w with metLoss := met } := by
    unfold meetLoss
    split <;> exact ⟨_, rfl⟩
  have step : placeStep w (placing w s) = .rest (holdOpening
      { w with
        metLoss := met
        bandYaws := w.bandYaws ++ [pose.yaw]
        flags := mergeFlags w.flags pose.flags
        stage := .band 8 } (placing w s)) := by
    rw [← lookupTime_band stage] at answered
    rw [placeStep_of_answer (s := placing w s) (.inr ⟨7, stage⟩) answered, hmet,
      takeAnswer_found_band (k := 7) (by exact stage)]
    simp [afterBand, opening]
  rw [placeFuel, placeRun_of_rest step]
  exact holdOpening_eq_heldOpening (s := placing w s) opened unknown opening rfl rfl rfl rfl rfl rfl

end Hold

/-- The flags of an extrapolated pose, taken into a frame's (R73, R75). -/
theorem mergeFlags_extrapolated (f : FrameFlags) (gap sat : Bool) :
    mergeFlags f { FrameFlags.clear with extrapolated := true, gap := gap, rateSat := sat } =
      { f with extrapolated := true, gap := f.gap || gap, rateSat := f.rateSat || sat } := by
  simp [mergeFlags, FrameFlags.clear]

/-! ## The other frames' course (R69, R76, R79) -/

section Others

variable {s : State} {w : Working} {raw y : Int} (other : w.cls ≠ .opening)
include other

/-- With the direction unknown the reference pose leads to the direction step. -/
theorem placeRun_directionStep {ref : PoseFound} (stage : w.stage = .reference) (kept : s.place.motionLost = false)
    (unknown : s.place.direction = .unknown)
    (answered : lookupPose s.sweepCfg (placing w s) w w.tRef = .found ref)
    (hraw : raw = rawPitchOffset s.sweepCfg ref.pitch w.trimPitch (s.place.originPitch.getD 0))
    (hy : y = clampPitch s.sweepCfg raw) :
    placeRun placeFuel w s =
      directionStep (atReference ref y (bandTimesOf s w.slot y) (decide (y ≠ raw)) w) (placing w s) := by
  rw [← lookupTime_reference stage] at answered
  have step := placeStep_of_answer (s := placing w s) (.inl stage) answered
  rw [meetLoss_of_kept (s := placing w s) kept, takeAnswer_found_reference stage,
    afterReference_of_unknown (s := placing w s) other unknown ref hraw hy] at step
  rw [placeFuel, placeRun_of_rest step, pitchClamps_eq _ (by exact hy)]
  rfl

variable (kept : s.place.motionLost = false) (expired : w.expired = true)
include kept expired

/-- From band k on an expired frame goes on to its column. -/
theorem placeRun_column_of_expired {k n : Nat} (stage : w.stage = .band k) (hk : k < 8) (fuel : 8 - k ≤ n) :
    ∃ v, placeRun n w s = offerAndRegister (columnPlaced s (bandsAnswered (poseAt s) k (8 - k) w)) (placing v s) := by
  have length : 7 - k + 1 = 8 - k := by omega
  obtain ⟨v, run⟩ := placeRun_bands_of_expired (n := n) kept (7 - k) expired stage (by omega) (by omega)
  rw [if_neg other, length] at run
  exact ⟨v, run⟩

/-- From the reference lookup on, with the direction known, it does so by way of band 0. -/
theorem placeRun_reference_of_expired (stage : w.stage = .reference) (known : s.place.direction ≠ .unknown)
    (hraw : raw = rawPitchOffset s.sweepCfg (poseAt s w.tRef).pitch w.trimPitch (s.place.originPitch.getD 0))
    (hy : y = clampPitch s.sweepCfg raw) :
    placeRun placeFuel w s =
      placeRun 8 (atReference (poseAt s w.tRef) y (bandTimesOf s w.slot y) (decide (y ≠ raw)) w) s := by
  have step := (placeStep_reference_of_expired (s := placing w s) kept expired stage).trans
    (afterReference_of_known (s := placing w s) other known (poseAt s w.tRef) hraw hy)
  rw [placeFuel, placeRun_of_goOn step, placeRun_placing, pitchClamps_eq _ (by exact hy)]
  rfl

omit expired in
/-- With the direction known, an expired wait at either kind of lookup stands at a band within the steps left. -/
theorem exists_placeRun_band {v placed : Working} {k : Nat} (known : s.place.direction ≠ .unknown)
    (hraw : raw = rawPitchOffset s.sweepCfg (poseAt s w.tRef).pitch w.trimPitch (s.place.originPitch.getD 0))
    (hy : y = clampPitch s.sweepCfg raw)
    (hplaced : placed = atReference (poseAt s w.tRef) y (bandTimesOf s w.slot y) (decide (y ≠ raw)) (timedOut w))
    (reached : (w.stage = .reference ∧ k = 0 ∧ v = placed) ∨ (w.stage = .band k ∧ v = timedOut w)) :
    ∃ n, placeRun placeFuel (timedOut w) s = placeRun n v s ∧ 8 - k ≤ n ∧ v.stage = .band k ∧ v.expired = true ∧
      v.seq = w.seq ∧ v.cls = w.cls ∧ v.trimYaw = w.trimYaw := by
  subst hplaced
  rcases reached with ⟨stage, rfl, rfl⟩ | ⟨stage, rfl⟩
  · exact ⟨8, placeRun_reference_of_expired (w := timedOut w) other kept rfl stage known hraw hy, le_rfl, rfl, rfl, rfl,
      rfl, rfl⟩
  · exact ⟨placeFuel, rfl, by rw [placeFuel]; omega, stage, rfl, rfl, rfl, rfl⟩

end Others

/-- The record with its column, its shifts and RS_CLAMP written out (R76). -/
theorem columnPlaced_eq {s : State} {sign : Int} (hsign : sign = dirSign s.place.direction) (w : Working) :
    columnPlaced s w = { w with
      xC := (s.sweepCfg.frameWidth / 2 + 64 : Nat) +
        sign * (w.refYaw + w.trimYaw - s.place.originYaw.getD 0) / s.sweepCfg.columnAngle
      shifts := w.bandYaws.map fun v => max (-64) (min 64 (sign * (v - w.refYaw) / s.sweepCfg.columnAngle))
      flags := { w.flags with rsClamp := (w.flags.rsClamp ||
        w.bandYaws.any fun v => decide (64 < |sign * (v - w.refYaw) / s.sweepCfg.columnAngle|)) }
      stage := .placed } := by
  rw [columnPlaced, bandShifts_eq, shiftsClamp_eq, hsign]
  rfl

theorem offerAndRegister_queue_of_search {w : Working} {s : State}
    (search : s.reg.lead ≠ [] ∨ frameClosureDue s w = true) :
    (offerAndRegister w s).ingest.queue = s.ingest.queue := by
  rw [offerAndRegister_of_search search]

/-! ## MOTION_ONLY of a frame placed by history (R83, R105) -/

/-- The offer and the result are two counts of the guide record (R127, R128). -/
theorem registered_count (r : RegResult) (w : Working) (s : State) :
    (registered r w s).comp.guide.count = s.comp.guide.count + 2 :=
  BitVec.add_assoc ..

/-- The corrected placement without a correction is the predicted one, its pitch offset clamped (R77). -/
theorem frameJob_noCorrection (cfg : Configuration) (w : Working) :
    (fun j : StripJob => (j.slot, j.xC, j.yP, j.edges)) (frameJob (edgeStep cfg noCorrection w) noCorrection) =
      (w.slot, w.xC, clampPitch cfg w.yP, bandEdges cfg w.xC w.shifts) := by
  simp [frameJob, edgeStep, noCorrection]

/-- A GUIDE frame that registration leaves without a correction is released (R62, R126). -/
theorem releaseFrame_registered {s : State} {w : Working} (opened : s.sweep.state = .opened)
    (occupied : slotState s.ingest.slots w.slot ≠ .free) :
    slotState (releaseFrame w.slot .guide (registered noCorrection w s)).ingest.slots w.slot = .free ∧
    (releaseFrame w.slot .guide (registered noCorrection w s)).place = { s.place with state := .ready, work := none } ∧
    (releaseFrame w.slot .guide (registered noCorrection w s)).sweep = { s.sweep with counters :=
      { s.sweep.counters with guide := holdCount (s.sweep.counters.guide + 1) } } := by
  have going : (registered noCorrection w s).sweep.state ≠ .draining := by simp [registered, opened]
  rw [releaseFrame_of_ne (u := registered noCorrection w s) _ occupied going]
  exact ⟨slotState_freed .., rfl, rfl⟩

/-! ## The direction step (R79, R80) -/

/-- A GUIDE frame or a still one makes its offer and is released. -/
theorem directionStep_released {s : State} {w : Working} {delta : Int} (unknown : s.place.direction = .unknown)
    (hdelta : delta = directionDelta s.sweepCfg w.refYaw w.trimYaw (s.place.originYaw.getD 0))
    (opened : s.sweep.state = .opened) (occupied : slotState s.ingest.slots w.slot ≠ .free) (stays : w.cls = .guide ∨ |delta| < 32) :
    directionStep w s = { s with
      ingest := { s.ingest with
        slots := s.ingest.slots.modify w.slot fun x => { x with state := .free }
        queue := s.ingest.queue.filter fun k => decide (k ≠ w.slot) }
      sweep := { s.sweep with counters :=
        if w.cls = .guide then { s.sweep.counters with guide := holdCount (s.sweep.counters.guide + 1) }
        else { s.sweep.counters with still := holdCount (s.sweep.counters.still + 1) } }
      place := { s.place with state := .ready, work := none }
      comp := { s.comp with guide :=
        { offerGuide s.sweepCfg s w (decide (w.cls = .guide)) delta 0 with
          speed := .still, direction := .unknown } } } := by
  have speed : offerGuide s.sweepCfg s w (decide (w.cls = .guide)) delta 0 =
      { offerGuide s.sweepCfg s w (decide (w.cls = .guide)) delta 0 with speed := .still, direction := .unknown } := by
    simp [offerGuide, speedStatus, unknown]
  have count : countFate (if w.cls = .guide then .guide else .still) s.sweep.counters =
      if w.cls = .guide then { s.sweep.counters with guide := holdCount (s.sweep.counters.guide + 1) }
      else { s.sweep.counters with still := holdCount (s.sweep.counters.still + 1) } := by
    split <;> rfl
  rw [directionStep_of_release hdelta stays, releaseFrame_placementOffer opened occupied, ← speed, count]

/-- Strip 0 from the HELD slot, handed over at once or held back during an update (R80, R108). -/
theorem handStrip0_handed {s : State} {i : Nat} {saved : SavedPoses} (held : firstSlot s.ingest.slots .held = some i)
    (kept : s.place.saved = some saved) :
    (s.comp.state ≠ .updating → (handStrip0 s).comp.state = .compositing ∧
      (handStrip0 s).comp.job = some (strip0Job s i saved)) ∧
    (s.comp.state = .updating → (handStrip0 s).comp.state = .updating ∧
      (handStrip0 s).comp.waiting = some (strip0Job s i saved)) := by
  rw [handStrip0_of_held held kept]
  refine ⟨fun free => ?_, fun updating => ?_⟩
  · rw [if_neg free]
    exact ⟨rfl, rfl⟩
  · rw [if_pos updating]
    exact ⟨updating, rfl⟩

/-- The deciding frame waits for strip 0's commit, its direction fixed by the sign (R80). -/
def decided (delta : Int) (w : Working) (s : State) : State :=
  { s with place := { s.place with
      direction := if delta < 0 then .minus else .plus
      state := .placing
      work := some { w with stage := .awaitStrip0 } } }

theorem decideDirection_eq (delta : Int) (w : Working) (s : State) :
    decideDirection delta w s = handStrip0 (decided delta w s) := rfl

/-- Beside the hand-over the deciding frame changes the placement unit alone. -/
theorem decideDirection_fields (delta : Int) (w : Working) (s : State) :
    (decideDirection delta w s).place = (decided delta w s).place ∧ (decideDirection delta w s).ingest = s.ingest ∧
    (decideDirection delta w s).sweep = s.sweep ∧ (decideDirection delta w s).store = s.store ∧
    (decideDirection delta w s).comp.guide = s.comp.guide := by
  obtain ⟨_, _, _, _, handed⟩ := handStrip0_eq (decided delta w s)
  rw [decideDirection_eq, handed]
  exact ⟨rfl, rfl, rfl, rfl, rfl⟩

/-! ## The ends of a wait -/

section Ends

variable {s : State} {w : Working} (h : Waits s w)
include h

section Limit

variable (kept : s.place.motionLost = false)
include kept

/-- At the limit a frame of known direction goes on to its column and its search (R73, R76, R93). -/
theorem Waits.expiry_searched (lead : s.reg.lead ≠ []) (other : w.cls ≠ .opening) {w0 w2 : Working} {k n : Nat}
    (reaches : placeRun placeFuel (timedOut w) (atLimit w s) = placeRun n w0 (atLimit w s))
    (cls : w0.cls = w.cls) (expired : w0.expired = true) (stage : w0.stage = .band k) (hk : k < 8) (fuel : 8 - k ≤ n)
    (hw2 : w2 = columnPlaced s (bandsAnswered (poseAt (atLimit w s)) k (8 - k) w0)) :
    ∃ t, exec .motionWaitExpiry s = .next t ∧
      restAs { atLimit w s with
        place := { s.place with state := .passed, work := some w2 }
        reg := { s.reg with state := .searching }
        comp := { s.comp with guide := t.comp.guide } } t ∧
      (s.sweep.state ≠ .opened → t.comp.guide = s.comp.guide) ∧
      (s.sweep.state = .opened → t.comp.guide = offerOf w2 s) := by
  obtain ⟨v, run⟩ := placeRun_column_of_expired (s := atLimit w s) (n := n) (w := w0) (by rw [cls]; exact other) kept
    expired stage hk fuel
  have search : (placing v (atLimit w s)).reg.lead ≠ [] ∨ frameClosureDue (placing v (atLimit w s)) w2 = true := .inl lead
  have left := (offerAndRegister_queue_of_search search).trans h.empty
  subst hw2
  have outcome := settle_offerAndRegister_of_search (s := placing v (atLimit w s)) search rfl
  exact ⟨_, h.exec_expiry (reaches.trans run) left, outcome⟩

end Limit

section Loss

variable {strobeTime sample : Time} (window : s.motion.tx = .window strobeTime sample) (link : s.motion.link = .sampling)
  (seven : 7 ≤ s.motion.missCount)
include window link seven

/-- At a loss with the strip count at 0 the opening frame's last lookup is extrapolated at once (R74). -/
theorem Waits.loss_held {n : PoseEntry} (opening : w.cls = .opening) (opened : s.sweep.state = .opened)
    (unknown : s.place.direction = .unknown) (stage : w.stage = .band 7) (bare : s.comp.strips = [])
    (newest : s.motion.ring.getLast? = some n) (unanswered : lookupRing s.motion.ring (w.bandTimes.getD 7 0) = .none) :
    ∃ t, exec .sampleMissed s = .next t ∧
      settlesTo (heldOpening (atLoss strobeTime s) w
        (extrapolate s.sweepCfg s.motion.ring (w.bandTimes.getD 7 0)).yaw
        { w.flags with
          extrapolated := true, gap := w.flags.gap || n.gap, rateSat := w.flags.rateSat || n.sat }) t := by
  have pose : poseAt (atLoss strobeTime s) (w.bandTimes.getD 7 0) =
      extrapolate s.sweepCfg s.motion.ring (w.bandTimes.getD 7 0) := congrArg (Option.getD · _) unanswered
  have answered := lookupPose_of_lost (w := w) (s := placing w (atLoss strobeTime s)) rfl bare (w.bandTimes.getD 7 0)
  have run := placeRun_held_of_answer (s := atLoss strobeTime s) opening opened unknown stage answered
  have same : poseAt (placing w (atLoss strobeTime s)) = poseAt (atLoss strobeTime s) := rfl
  rw [same, pose] at run
  have flags : mergeFlags w.flags (extrapolate s.sweepCfg s.motion.ring (w.bandTimes.getD 7 0)).flags =
      { w.flags with extrapolated := true, gap := w.flags.gap || n.gap, rateSat := w.flags.rateSat || n.sat } := by
    rw [extrapolate_eq _ newest, mergeFlags_extrapolated]
  rw [flags] at run
  exact ⟨_, h.exec_loss window link seven run h.empty, settle_settlesTo ..⟩

variable {rest : List StripRecord} {n : StripRecord} (stage : w.stage = .reference ∨ ∃ k, w.stage = .band k)
  (strips : s.comp.strips = rest ++ [n]) {w' : Working}
  (hw' : w' = historyRecord (historyColumn (rest ++ [n]) w.tRef) n.yP w)
include stage strips hw'

omit h window link seven in
/-- At a loss with strips in the table placement goes on by their history (R74, R83). -/
theorem placeRun_history : placeRun placeFuel w (atLoss strobeTime s) =
    offerAndRegister w' (placing w (atLoss strobeTime s)) := by
  have step := placeStep_of_history (s := placing w (atLoss strobeTime s)) stage rfl (by simp [placing, atLoss, strips])
  rw [placeFuel, placeRun_of_rest step, hw']
  exact historyPlace_eq (s := placing w (atLoss strobeTime s)) strips w

/-- The frame placed by history is searched (R93). -/
theorem Waits.loss_searched (search : s.reg.lead ≠ [] ∨ frameClosureDue s w' = true) :
    ∃ t, exec .sampleMissed s = .next t ∧
      restAs { atLoss strobeTime s with
        place := { s.place with motionLost := true, state := .passed, work := some w' }
        reg := { s.reg with state := .searching }
        comp := { s.comp with guide := t.comp.guide } } t ∧
      (s.sweep.state ≠ .opened → t.comp.guide = s.comp.guide) ∧
      (s.sweep.state = .opened → t.comp.guide = offerOf w' (atLoss strobeTime s)) := by
  have search' : (placing w (atLoss strobeTime s)).reg.lead ≠ [] ∨
    frameClosureDue (placing w (atLoss strobeTime s)) w' = true := search
  have left := (offerAndRegister_queue_of_search search').trans h.empty
  have outcome := settle_offerAndRegister_of_search (s := placing w (atLoss strobeTime s)) search' rfl
  exact ⟨_, h.exec_loss window link seven (placeRun_history stage strips hw') left, outcome⟩

/-- The frame placed by history goes on with MOTION_ONLY (R105). -/
theorem Waits.loss_motionOnly (opened : s.sweep.state = .opened) (lead : s.reg.lead = [])
    (undue : frameClosureDue s w' = false) (occupied : slotState s.ingest.slots w'.slot ≠ .free) :
    ∃ v, exec .sampleMissed s = .next (settle false false v) ∧
      v = (if w'.cls = .guide then
          releaseFrame w'.slot .guide (registered noCorrection w' (placing w (atLoss strobeTime s)))
        else handOver (frameJob (edgeStep s.sweepCfg noCorrection w') noCorrection)
          (registered noCorrection w' (placing w (atLoss strobeTime s)))) ∧
      OnlyHandOver (registered noCorrection w' (placing w (atLoss strobeTime s))) v := by
  have only := offerAndRegister_handOver (w := w') (s := placing w (atLoss strobeTime s)) opened lead undue occupied
  exact ⟨_, h.exec_loss window link seven (placeRun_history stage strips hw') (only.queue h.empty),
    offerAndRegister_of_motionOnly (s := placing w (atLoss strobeTime s)) opened lead undue, only⟩

end Loss

end Ends

/-- What the hand-over leaves as it is. -/
theorem OnlyHandOver.fields {s t : State} (only : OnlyHandOver s t) : t.motion = s.motion ∧ t.attn = s.attn ∧
    t.store = s.store ∧ t.comp.strips = s.comp.strips ∧ t.comp.front = s.comp.front ∧ t.reg = s.reg ∧
    t.comp.guide = s.comp.guide := by
  obtain ⟨_, _, _, _, _, _, _, _, _, -, rfl⟩ := only
  exact ⟨rfl, rfl, rfl, rfl, rfl, rfl, rfl⟩

/-- Settles O34: each end of a wait takes placement on from the lookup the frame waits at, and the class of the frame, the
direction and what registration has to search decide where it rests. -/
theorem waitExpiryExtrapolatesAndHolds : Obligations.WaitExpiryExtrapolatesAndHolds := by
  refine ⟨fun a b => rfl, ?_, ?_, fun s u w t lost bare => lookupPose_meetLoss_ne_wait lost bare u w t, ?_, ?_, ?_⟩
  · intro s u w due pose ref state work kept empty hdue hu ring newest short href
    have h : Waits s w := ⟨state, work, empty⟩
    obtain rfl : u = atLimit w s := by rw [hu, hdue]; rfl
    obtain rfl : pose = poseAt (atLimit w s) :=
      eq_poseAt ring (fun t n missing last => (newest t n missing last).trans (extrapolate_eq _ last t).symm)
        fun t nil => (short t nil).trans (by rw [nil]; rfl)
    refine ⟨?_, ?_, ?_⟩
    · intro k times opening opened unknown stage hk htimes
      have run := placeRun_held_of_expired (n := placeFuel) (s := atLimit w s) (w := timedOut w)
        opening opened unknown kept rfl stage hk (by rw [placeFuel]; omega) fun j _ => (htimes j).symm
      exact ⟨_, h.exec_expiry run h.empty, settle_settlesTo ..⟩
    · intro times opening opened unknown stage htimes
      have run := placeRun_origin_of_expired (s := atLimit w s) (w := timedOut w) opening opened unknown kept rfl stage
        href htimes
      exact ⟨_, h.exec_expiry run h.empty, settle_settlesTo ..⟩
    · intro raw y placed hraw hy hplaced
      have hy' := hy.trans (clampPitch_eq ..).symm
      obtain rfl : placed = atReference ref y (bandTimesOf s w.slot y) (decide (y ≠ raw)) (timedOut w) := hplaced
      subst href
      refine ⟨?_, ?_⟩
      · intro other unknown stage
        have answered := lookupPose_of_expired (w := timedOut w) (s := atLimit w s) kept rfl w.tRef
        have run := placeRun_directionStep (s := atLimit w s) (w := timedOut w) other stage kept unknown
          answered hraw hy'
        exact ⟨_, h.exec_expiry run (directionStep_queue (by exact empty) _), settle_settlesTo ..⟩
      · intro k w0 w1 yaws sign other known lead hk reached hsign hyaws hw1
        have hsign' : sign = dirSign s.place.direction := hsign.trans (dirSign_eq _).symm
        obtain ⟨n, reaches, fuel, stage, expired, seq, cls, trim⟩ :=
          exists_placeRun_band (s := atLimit w s) other kept known hraw hy' rfl reached
        obtain ⟨t, run, rest, closed, offer⟩ := h.expiry_searched kept lead other reaches cls expired stage hk fuel rfl
        have hw2 := columnPlaced_eq hsign' (bandsAnswered (poseAt (atLimit w s)) k (8 - k) w0)
        rw [← trim] at hw1
        subst hyaws hw1
        refine ⟨t, _, run, hw2, rest, closed, fun opened => ?_⟩
        rw [offer opened]
        exact ⟨rfl, seq, rfl, rfl, rfl, congrArg (fun c => decide (c = FrameClass.guide)) cls, rfl, rfl, rfl, rfl⟩
  · intro s u w n strobeTime sample due at7 yaw flags state work stage opening bare unknown opened empty newest
      unanswered hat window link seven hdue hyaw hflags hu
    have h : Waits s w := ⟨state, work, empty⟩
    subst hdue hu hflags hat
    have pose : (extrapolate s.sweepCfg s.motion.ring (w.bandTimes.getD 7 0)).yaw = yaw := by
      rw [extrapolate_eq _ newest, hyaw]
    rw [← pose]
    exact h.loss_held window link seven opening opened unknown stage bare newest unanswered
  · intro s u w w' rest n strobeTime sample due x edges state work stage strips empty window link seven hdue hu hx
      hedges hw'
    have h : Waits s w := ⟨state, work, empty⟩
    have column : x = historyColumn (rest ++ [n]) w.tRef := hx.trans (historyColumn_append ..).symm
    have record : w' = historyRecord (historyColumn (rest ++ [n]) w.tRef) n.yP w := by rw [hw', column]; rfl
    have due' : frameClosureDue s w' = closureDue s.sweepCfg w.cls s.reg.opening s.comp.clean edges := by
      rw [hw', hedges]; rfl
    subst hdue hu
    refine ⟨fun search => ?_, fun lead undue opened occupied => ?_⟩
    · rw [← due'] at search
      obtain ⟨t, run, rest, closed, offer⟩ := h.loss_searched window link seven stage strips record search
      refine ⟨t, run, rest, closed, fun opened => ?_⟩
      rw [offer opened, hw', hedges]
      exact ⟨rfl, rfl, rfl, rfl, rfl, rfl, rfl, rfl, rfl, rfl⟩
    · rw [← due'] at undue
      have slot : slotState s.ingest.slots w'.slot ≠ .free := by rw [hw']; exact occupied
      have cls : w'.cls = w.cls := by rw [hw']
      obtain ⟨v, run, course, only⟩ := h.loss_motionOnly window link seven stage strips record opened lead undue slot
      obtain ⟨motion, attn, store, table, front, reg, guide⟩ := only.fields
      refine ⟨_, run, by rw [settle_motion, motion]; rfl, by rw [settle_attn, attn]; rfl,
        by rw [settle_store, store]; rfl, by rw [settle_strips, table]; rfl, by rw [settle_front, front]; rfl, by rw [settle_reg, reg]; rfl,
        by rw [settle_guide, guide]; exact registered_count .., by rw [settle_guide, guide]; rfl, fun isGuide => ?_,
        fun other updating => ?_⟩
      · rw [if_pos (cls.trans isGuide)] at course
        obtain ⟨free, place, sweep⟩ := releaseFrame_registered (s := placing w (atLoss strobeTime s)) opened slot
        rw [settle_slots, settle_place, settle_sweep, course]
        rw [hw'] at free place sweep ⊢
        exact ⟨free, place, sweep⟩
      · rw [if_neg (by rw [cls]; exact other), handOver, if_pos (by exact updating)] at course
        rw [settle_place, settle_sweep, settle_slots, settle_compState, settle_waiting, course, hw', hedges]
        exact ⟨rfl, rfl, rfl, rfl, updating, congrArg some (frameJob_noCorrection ..)⟩
  · intro s u w bytes sample start pose state work kept unknown empty reading few hu answered
    have h : Waits s w := ⟨state, work, empty⟩
    have noRegain := regains_eq_false few
    obtain rfl : u = atSample sample start bytes s := hu
    have found := lookupPose_of_found (w := w) (s := placing w (atSample sample start bytes s)) kept answered
    refine ⟨fun stage opening opened => ?_, fun stage other raw y hraw hy => ?_⟩
    · rw [lookupTime_band stage] at found
      have run := placeRun_held_of_answer (s := atSample sample start bytes s) opening opened unknown stage found
      exact ⟨_, h.exec_sample reading noRegain answered run h.empty, settle_settlesTo ..⟩
    · rw [lookupTime_reference stage] at found
      have run := placeRun_directionStep (s := atSample sample start bytes s) other stage kept unknown found hraw
        (hy.trans (clampPitch_eq ..).symm)
      refine ⟨_, h.exec_sample reading noRegain answered run (directionStep_queue (by exact empty) _), ?_⟩
      rw [placing, ← work]
      exact settle_settlesTo ..
  · intro s t w delta ht unknown opened occupied hdelta
    refine ⟨fun stays => ?_, fun other far => ?_⟩
    · rw [ht, directionStep_released unknown hdelta opened occupied stays]
      exact ⟨slotState_freed .., rfl, rfl, rfl, rfl, rfl, rfl, rfl, rfl, rfl, rfl, rfl⟩
    · rw [ht, directionStep_of_decide hdelta other far]
      obtain ⟨place, ingest, sweep, store, guide⟩ := decideDirection_fields delta w s
      refine ⟨place, ingest, sweep, store, guide, fun i saved held kept => ?_⟩
      obtain ⟨atOnce, later⟩ := handStrip0_handed (s := decided delta w s) held kept
      refine ⟨fun free => ?_, fun updating => ?_⟩
      · obtain ⟨state, job⟩ := atOnce free
        exact ⟨state, congrArg (Option.map _) job⟩
      · obtain ⟨state, waiting⟩ := later updating
        exact ⟨state, congrArg (Option.map _) waiting⟩

end Sys2Proof.Machine
end

section
/-! SUPPORT. SEARCH_COMPLETE: the result of a search taken up in OPEN, with O39 from it (R77, R101, R108, R109, R126,
R128). -/

namespace Sys2Proof.Machine

/-! ## What settles leaves of a frame handed over -/

/-- A part of the frame in compositing that the seam choice does not change is as the command left it. -/
theorem settle_job_part {α : Type} (part : StripJob → α) (hp : ∀ j, part (jobPlacement j) = part j) (b m : Bool) (s : State) :
    (settle b m s).comp.job.map part = s.comp.job.map part := by
  have parts : part ∘ jobPlacement = part := funext hp
  have keep := congrArg (Option.map part) (settle_settlesTo b m s).1.2.2.1
  rwa [Option.map_map, Option.map_map, parts] at keep

/-! ## The advance test (R109) -/

theorem stripAdvances_iff (cfg : Configuration) (front : Int) (cls : StripClass) (newFront : Int) :
    stripAdvances cfg front false cls newFront = true ↔ cls ≠ .normal ∨ (cfg.minAdvance : Int) ≤ newFront - front := by
  simp [stripAdvances]

section AdvanceTest

variable {s : State} {job : StripJob} {cls : StripClass} {newFront : Int} (later : job.strip0 = false)
  (hcls : (cls, newFront) = classifyStrip s.sweepCfg (s.comp.clean.getD 0) (leastEnd s.sweepCfg job.edges))
include later hcls

theorem advanceTest_of_advance (advances : cls ≠ .normal ∨ (s.sweepCfg.minAdvance : Int) ≤ newFront - s.comp.front) :
    advanceTest job s = beginStrip { job with cls := cls, newFront := newFront, planned := false } s := by
  have clean : stripClean s.comp.clean job = s.comp.clean.getD 0 := by simp [stripClean, later]
  unfold advanceTest
  rw [clean, ← hcls, later, if_pos ((stripAdvances_iff ..).mpr advances)]

theorem advanceTest_of_noAdvance (normal : cls = .normal)
    (short : newFront - s.comp.front < (s.sweepCfg.minAdvance : Int)) :
    advanceTest job s = releaseFrame job.slot .noAdvance
      (applyPending { s with comp := { s.comp with state := .ready, job := none, waiting := none, todo := [] } }) := by
  have clean : stripClean s.comp.clean job = s.comp.clean.getD 0 := by simp [stripClean, later]
  have stays : ¬ (cls ≠ .normal ∨ (s.sweepCfg.minAdvance : Int) ≤ newFront - s.comp.front) := by
    rintro (other | far)
    · exact other normal
    · omega
  unfold advanceTest
  rw [clean, ← hcls, later, if_neg (mt (stripAdvances_iff ..).mp stays)]

/-- A frame that does not advance leaves its slot in OPEN, and the compositor and the placement unit are READY. -/
theorem advanceTest_released (opened : s.sweep.state = .opened) (occupied : slotState s.ingest.slots job.slot ≠ .free)
    (normal : cls = .normal) (short : newFront - s.comp.front < (s.sweepCfg.minAdvance : Int)) :
    slotState (advanceTest job s).ingest.slots job.slot = .free ∧ (advanceTest job s).comp.state = .ready ∧
    (advanceTest job s).place.work = none ∧
    (advanceTest job s).sweep = { s.sweep with counters := { s.sweep.counters with
      noAdvance := holdCount (s.sweep.counters.noAdvance + 1) } } := by
  obtain ⟨trim, pending, applied⟩ := applyPending_eq
    { s with comp := { s.comp with state := .ready, job := none, waiting := none, todo := [] } }
  rw [advanceTest_of_noAdvance later hcls normal short, applied,
    releaseFrame_of_ne _ (by exact occupied) (by simp [opened])]
  exact ⟨slotState_freed .., rfl, rfl, rfl⟩

end AdvanceTest

/-! ## The result taken up (R77, R101, R128) -/

/-- The registration unit IDLE, the edge step done and the result in the guide record. -/
def resultTaken (r : RegResult) (w : Working) (s : State) : State :=
  { s with
    place := { s.place with state := .passed, work := some (edgeStep s.sweepCfg r w) }
    reg := { s.reg with state := .idle }
    comp := { s.comp with guide := { s.comp.guide with
      count := s.comp.guide.count + 1, last := some ⟨r.correction, r.confident, r.inliers⟩ } } }

theorem finishRegistration_of_opened {s : State} (opened : s.sweep.state = .opened) (r : RegResult) (w : Working) :
    finishRegistration r w s =
      if w.cls = .guide then releaseFrame w.slot .guide (resultTaken r w s)
      else handOver (frameJob (edgeStep s.sweepCfg r w) r) (resultTaken r w s) := by
  have taken : recordResult r { s with
      place := { s.place with state := .passed, work := some (edgeStep s.sweepCfg r w) }
      reg := { s.reg with state := .idle } } = resultTaken r w s := if_pos opened
  rw [← taken]
  rfl

/-- Whichever way the frame goes on, the result stays taken up. -/
theorem finishRegistration_handOver {s : State} {w : Working} (opened : s.sweep.state = .opened)
    (occupied : slotState s.ingest.slots w.slot ≠ .free) (r : RegResult) :
    OnlyHandOver (resultTaken r w s) (finishRegistration r w s) := by
  have going : (resultTaken r w s).sweep.state ≠ .draining := by simp [resultTaken, opened]
  rw [finishRegistration_of_opened opened]
  split
  · exact releaseFrame_handOver .guide occupied going
  · exact handOver_handOver (s := resultTaken r w s) occupied going

/-- The parts of the final placement that the compositor gets: x_c − dx and the pitch offset clamped (R77). -/
theorem frameJob_edgeStep (cfg : Configuration) (r : RegResult) (w : Working) {dx dy : Int} {edges : List Int}
    (hd : (dx, dy) = r.correction.getD (0, 0)) (hedges : edges = bandEdges cfg (w.xC - dx) w.shifts) :
    (frameJob (edgeStep cfg r w) r).slot = w.slot ∧ (frameJob (edgeStep cfg r w) r).xC = w.xC - dx ∧
    (frameJob (edgeStep cfg r w) r).yP = clampPitch cfg (w.yP + dy) ∧ (frameJob (edgeStep cfg r w) r).edges = edges := by
  subst hedges
  simp only [frameJob, edgeStep, ← hd, and_self]

/-! ## SEARCH_COMPLETE (R101) -/

theorem exec_searchComplete (s : State) : exec .searchComplete s = .next (settle false false (completeSearch s)) := rfl

/-- With a word left to read the search goes on (R105). -/
theorem completeSearch_of_reads {s : State} (left : readsLeft s .registration ≠ []) : completeSearch s = s := by
  have reading : readsDone s .registration = false := by simp [readsDone, left]
  unfold completeSearch
  split
  · rw [reading]; rfl
  · rfl

theorem completeSearch_of_read {s : State} {w : Working} (searching : s.reg.state = .searching)
    (work : s.place.work = some w) (opened : s.sweep.state = .opened) (empty : s.ingest.queue = [])
    (read : readsLeft s .registration = [])
    (lines : s.sweepCfg.frameHeight ≤ (slotInfo s.ingest.slots w.slot).linesWritten)
    (occupied : slotState s.ingest.slots w.slot ≠ .free) {r : RegResult}
    (hr : r = searchResult s.sweepCfg s.store (searchFrame s w) s.reg.lead s.reg.opening (frameClosureDue s w)) :
    completeSearch s = finishRegistration r w (dropEngine .registration s) := by
  have done : readsDone s .registration = true := by simp [readsDone, read]
  have ready : linesReady s w.slot = true := decide_eq_true lines
  have only := finishRegistration_handOver (s := dropEngine .registration s) opened occupied r
  simp only [completeSearch, searching, work, done, ready, ← hr, Bool.true_or, Bool.and_self, if_true]
  exact engineGo_of_nil _ _ (only.queue empty)

/-- Settles O39: with its reads done the search's result is taken up, and the frame's class and the compositor's state
decide among the release, the advance test and the wait for the update's end; with a word left nothing ends. -/
theorem searchResultIsTakenUp : Obligations.SearchResultIsTakenUp := by
  refine ⟨?_, fun s left => ?_⟩
  · intro s w r dx dy edges searching work opened empty read lines engaged hr hd hedges
    have occupied : slotState s.ingest.slots w.slot ≠ .free := by rw [(engaged w.slot).mpr rfl]; decide
    have complete := completeSearch_of_read searching work opened empty read lines occupied hr
    have course := finishRegistration_of_opened (s := dropEngine .registration s) opened r w
    obtain ⟨slot, column, pitch, hjob⟩ := frameJob_edgeStep s.sweepCfg r w hd hedges
    have only := finishRegistration_handOver (s := dropEngine .registration s) opened occupied r
    obtain ⟨motion, attn, store, strips, front, reg, guide⟩ := only.fields
    have rest : (finishRegistration r w (dropEngine .registration s)).comp.trimPitch = s.comp.trimPitch ∧
        (finishRegistration r w (dropEngine .registration s)).ctl = s.ctl := by
      obtain ⟨_, _, _, _, _, _, _, _, _, -, left⟩ := only
      rw [left]
      exact ⟨rfl, rfl⟩
    rw [exec_searchComplete, complete]
    refine ⟨_, rfl, by rw [settle_reg, reg]; rfl, by rw [settle_guide, guide]; rfl, by rw [settle_motion, motion]; rfl,
      by rw [settle_store, store]; rfl, by rw [settle_front, front]; rfl, by rw [settle_strips, strips]; rfl,
      by rw [settle_trimPitch, rest.1], by rw [settle_attn, attn]; rfl, by rw [settle_ctl, rest.2], ?_, ?_, ?_⟩
    · intro isGuide
      rw [if_pos isGuide, releaseFrame_of_ne _ (by exact occupied) (by simp [resultTaken, opened])] at course
      rw [settle_slots, settle_place, settle_sweep, course]
      exact ⟨slotState_freed .., rfl, rfl, rfl⟩
    · intro ordinary ready cls newFront hcls
      rw [if_neg (by rw [ordinary]; decide), handOver, if_neg (by rw [resultTaken]; simp [ready])] at course
      have hcls' : (cls, newFront) = classifyStrip s.sweepCfg (s.comp.clean.getD 0)
          (leastEnd s.sweepCfg (frameJob (edgeStep s.sweepCfg r w) r).edges) := by rw [hjob]; exact hcls
      refine ⟨fun advances => ?_, fun normal short => ?_⟩
      · have begun := advanceTest_of_advance (s := resultTaken r w (dropEngine .registration s)) rfl hcls' advances
        rw [settle_compState, settle_sweep, settle_slots,
          settle_job_part (fun j => (j.slot, j.xC, j.yP, j.edges, j.cls, j.newFront)) fun _ => rfl, course.trans begun]
        refine ⟨rfl, rfl, rfl, ?_⟩
        rw [← slot, ← column, ← pitch, ← hjob]
        rfl
      · obtain ⟨free, state, none, sweep⟩ :=
          advanceTest_released (s := resultTaken r w (dropEngine .registration s)) rfl hcls' opened occupied normal short
        rw [settle_slots, settle_compState, settle_place, settle_sweep, course]
        exact ⟨free, state, none, sweep⟩
    · intro ordinary updating
      rw [if_neg (by rw [ordinary]; decide), handOver, if_pos (by exact updating)] at course
      rw [settle_compState, settle_sweep, settle_slots, settle_waiting, course, ← column, ← pitch, ← hjob]
      exact ⟨updating, rfl, rfl, rfl⟩
  · rw [exec_searchComplete, completeSearch_of_reads left]
    exact ⟨_, rfl, settle_settlesTo ..⟩

end Sys2Proof.Machine
end

section
/-! SUPPORT. The harvested table: a band's candidates, their samples and energies, and the one chosen of them (R69, R88 to
R90). -/

namespace Sys2Proof.Machine

/-! ## The rows of a candidate patch (R69, R87) -/

/-- The 16 rows about a band's centre lie in that band, for every geometry that R170 admits. -/
theorem patchRows_in_band {cfg : Configuration} (height : cfg.frameHeight % 8 = 0) (margin : cfg.margin % 4 = 0)
    (room : 2 * cfg.margin + 128 ≤ cfg.frameHeight) (k : Nat) :
    k * bandRows cfg + 8 ≤ bandCentre cfg k ∧ bandCentre cfg k + 8 ≤ (k + 1) * bandRows cfg := by
  obtain ⟨rows, hrows⟩ : ∃ rows, canvasHeight cfg = 8 * rows := ⟨canvasHeight cfg / 8, by rw [canvasHeight]; omega⟩
  have tall : 16 ≤ rows := by rw [canvasHeight] at hrows; omega
  have band : bandRows cfg = rows := by rw [bandRows, hrows]; omega
  have centre : bandCentre cfg k = (8 * (2 * (k * rows) + rows)) / 16 := by rw [bandCentre, hrows]; congr 1; ring
  rw [band, centre, Nat.add_mul, Nat.one_mul]
  omega

/-- A canvas row of a candidate patch is a row of its band (R87). -/
theorem bandOfRow_patchRow {cfg : Configuration} (height : cfg.frameHeight % 8 = 0) (margin : cfg.margin % 4 = 0)
    (room : 2 * cfg.margin + 128 ≤ cfg.frameHeight) (k : Nat) {r : Nat} (hr : r < 16) :
    bandOfRow cfg (patchRow cfg k + r) = k := by
  obtain ⟨low, high⟩ := patchRows_in_band height margin room k
  apply bandOfRow_of_row <;> rw [patchRow] <;> omega

/-! ## Samples and energy (R88, R89) -/

theorem eligible_iff (cfg : Configuration) (store : CanvasStore) (k : Nat) (x : Int) :
    eligible cfg store k x = true ↔
      ∀ j : Nat, j < 16 → k * 16384 + storedColumn cfg (x + (j : Int)) ∈ store.coverage := by
  simp only [eligible, flagSet, coverageIndex, List.all_eq_true, List.mem_range, List.contains_iff_mem]

/-- A block given by its samples. -/
def blockOf (f : Nat → Nat → Nat) : List (List Nat) := (List.range 16).map fun r => (List.range 16).map fun j => f r j

/-- The luma in the DRAM at a row and a column of a candidate patch (R87, R134). -/
def patchLuma (cfg : Configuration) (store : CanvasStore) (k : Nat) (x : Int) (r j : Nat) : Nat :=
  (memRead store.mem (cellAddress cfg (storedColumn cfg (x + (j : Int))) (bandCentre cfg k - 8 + r))).toNat

/-- Under an eligible candidate every cell is written, so the samples are the stored luma (R89, R139). -/
theorem patchSamples_of_eligible {cfg : Configuration} {store : CanvasStore} {k : Nat} {x : Int}
    (height : cfg.frameHeight % 8 = 0) (margin : cfg.margin % 4 = 0) (room : 2 * cfg.margin + 128 ≤ cfg.frameHeight)
    (covered : eligible cfg store k x = true) : patchSamples cfg store k x = blockOf (patchLuma cfg store k x) := by
  refine List.map_congr_left fun r hr => List.map_congr_left fun j hj => ?_
  rw [List.mem_range] at hr hj
  have written : flagSet store.coverage (coverageIndex k (storedColumn cfg (x + (j : Int)))) = true :=
    List.contains_iff_mem.mpr ((eligible_iff ..).mp covered j hj)
  rw [readCell, bandOfRow_patchRow height margin room k hr, if_pos written]
  rfl

theorem sampleAt_blockOf (f : Nat → Nat → Nat) {r c : Nat} (hr : r < 16) (hc : c < 16) :
    sampleAt (blockOf f) r c = f r c := by
  simp [sampleAt, blockOf, hr, hc]

/-- The energy of a block by its samples: the differences to the right and downward neighbours, at the last column and row
to the one before (R88). -/
theorem textureEnergy_blockOf (f : Nat → Nat → Nat) : textureEnergy (blockOf f) =
    ((List.range 16).map fun r => ((List.range 16).map fun c =>
      ((f r (if c = 15 then 14 else c + 1) : Int) - f r c).natAbs +
        ((f (if r = 15 then 14 else r + 1) c : Int) - f r c).natAbs).sum).sum := by
  refine congrArg List.sum (List.map_congr_left fun r hr => congrArg List.sum (List.map_congr_left fun c hc => ?_))
  rw [List.mem_range] at hr hc
  have right : (if c = 15 then 14 else c + 1) < 16 := by split <;> omega
  have below : (if r = 15 then 14 else r + 1) < 16 := by split <;> omega
  rw [sampleEnergy, lumaDiff, lumaDiff, sampleAt_blockOf f hr right, sampleAt_blockOf f below hc, sampleAt_blockOf f hr hc]

/-! ## The candidate chosen (R89) -/

/-- A candidate of band k with its energy. -/
def candidate (cfg : Configuration) (store : CanvasStore) (k : Nat) (x : Int) : Patch × Nat :=
  (⟨k, x, patchRow cfg k, patchSamples cfg store k x⟩, textureEnergy (patchSamples cfg store k x))

theorem harvestBand_eq (cfg : Configuration) (store : CanvasStore) (columns : List Int) (k : Nat) :
    harvestBand cfg store columns k =
      match ((columns.filter (eligible cfg store k)).map (candidate cfg store k)).foldl betterCandidate none with
      | some (patch, energy) => if cfg.textureThreshold ≤ energy then some patch else none
      | none => none := rfl

/-- The entry of a band is its best candidate, if that reaches the threshold. -/
theorem harvestBand_eq_some_iff {cfg : Configuration} {store : CanvasStore} {columns : List Int}
    (rising : columns.Pairwise (· < ·)) (k : Nat) (p : Patch) : harvestBand cfg store columns k = some p ↔
      ∃ energy, cfg.textureThreshold ≤ energy ∧
        (∃ x ∈ columns, eligible cfg store k x = true ∧ candidate cfg store k x = (p, energy)) ∧
        ∀ x ∈ columns, eligible cfg store k x = true →
          (candidate cfg store k x).2 < energy ∨ ((candidate cfg store k x).2 = energy ∧ x ≤ p.x) := by
  have order : ((columns.filter (eligible cfg store k)).map (candidate cfg store k)).Pairwise fun a c => a.1.x < c.1.x :=
    List.pairwise_map.mpr (rising.filter _)
  have chosen (energy : Nat) := (foldl_betterCandidate _ none order (by simp)).2 (p, energy)
  simp only [reduceCtorEq, or_false, List.mem_map, List.mem_filter, and_assoc, forall_exists_index, and_imp] at chosen
  have best : harvestBand cfg store columns k = some p ↔ ∃ energy, cfg.textureThreshold ≤ energy ∧
      ((columns.filter (eligible cfg store k)).map (candidate cfg store k)).foldl betterCandidate none =
        some (p, energy) := by
    rw [harvestBand_eq]
    cases ((columns.filter (eligible cfg store k)).map (candidate cfg store k)).foldl betterCandidate none with
    | none => simp
    | some found => grind
  rw [best]
  refine exists_congr fun energy => and_congr_right fun _ => ?_
  rw [chosen]
  refine and_congr_right fun _ => ⟨fun h x hx covered => h _ x hx covered rfl, ?_⟩
  rintro h _ x hx covered rfl
  exact h x hx covered

/-- Each entry of a table is of the band it was chosen for. -/
theorem harvestBand_band {cfg : Configuration} {store : CanvasStore} {columns : List Int}
    (rising : columns.Pairwise (· < ·)) {k : Nat} {p : Patch} (h : harvestBand cfg store columns k = some p) : p.band = k := by
  obtain ⟨_, -, ⟨_, -, -, chosen⟩, -⟩ := (harvestBand_eq_some_iff rising k p).mp h
  exact congrArg (fun c => c.1.band) chosen.symm

theorem mem_harvestTable {cfg : Configuration} {store : CanvasStore} {columns : List Int}
    (rising : columns.Pairwise (· < ·)) (p : Patch) :
    p ∈ harvestTable cfg store columns ↔ p.band < 8 ∧ harvestBand cfg store columns p.band = some p := by
  simp only [harvestTable, List.mem_filterMap, mem_bands]
  refine ⟨?_, fun h => ⟨_, h⟩⟩
  rintro ⟨k, hk, h⟩
  obtain rfl := harvestBand_band rising h
  exact ⟨hk, h⟩

/-- A table has the bands in order, at most one entry each (R89). -/
theorem harvestTable_pairwise {cfg : Configuration} {store : CanvasStore} {columns : List Int}
    (rising : columns.Pairwise (· < ·)) : ((harvestTable cfg store columns).map Patch.band).Pairwise (· < ·) := by
  have order : bands.Pairwise (· < ·) := by decide
  rw [List.pairwise_map, harvestTable, List.pairwise_filterMap]
  refine order.imp fun {k m} less p hp q hq => ?_
  rw [harvestBand_band rising hp, harvestBand_band rising hq]
  exact less

/-- The chosen candidate by its samples and its energy, in any geometry that R170 admits (R88, R89). -/
theorem mem_harvestTable_iff {cfg : Configuration} {store : CanvasStore} {columns : List Int}
    (height : cfg.frameHeight % 8 = 0) (margin : cfg.margin % 4 = 0) (room : 2 * cfg.margin + 128 ≤ cfg.frameHeight)
    (rising : columns.Pairwise (· < ·)) {energy : Nat → Int → Nat} {covered : Nat → Int → Prop}
    (henergy : ∀ k x, energy k x = textureEnergy (blockOf (patchLuma cfg store k x)))
    (hcovered : ∀ k x, covered k x ↔ x ∈ columns ∧ eligible cfg store k x = true) (p : Patch) :
    p ∈ harvestTable cfg store columns ↔
      p.band < 8 ∧ covered p.band p.x ∧ cfg.textureThreshold ≤ energy p.band p.x ∧
      (∀ x, covered p.band x →
        energy p.band x < energy p.band p.x ∨ (energy p.band x = energy p.band p.x ∧ x ≤ p.x)) ∧
      p.y = bandCentre cfg p.band - 8 ∧ p.samples = blockOf (patchLuma cfg store p.band p.x) := by
  have block {x : Int} (h : eligible cfg store p.band x = true) : candidate cfg store p.band x =
      (⟨p.band, x, patchRow cfg p.band, blockOf (patchLuma cfg store p.band x)⟩, energy p.band x) := by
    rw [candidate, patchSamples_of_eligible height margin room h, henergy]
  rw [mem_harvestTable rising, harvestBand_eq_some_iff rising]
  refine and_congr_right fun _ => ⟨?_, ?_⟩
  · rintro ⟨_, threshold, ⟨x, hx, eligible, chosen⟩, best⟩
    rw [block eligible, Prod.mk.injEq] at chosen
    obtain ⟨patch, rfl⟩ := chosen
    obtain rfl : x = p.x := congrArg Patch.x patch
    refine ⟨(hcovered ..).mpr ⟨hx, eligible⟩, threshold, fun v hv => ?_, (congrArg Patch.y patch).symm,
      (congrArg Patch.samples patch).symm⟩
    obtain ⟨inColumns, other⟩ := (hcovered ..).mp hv
    have better := best v inColumns other
    rwa [block other] at better
  · rintro ⟨own, threshold, best, top, samples⟩
    obtain ⟨hx, own⟩ := (hcovered ..).mp own
    refine ⟨_, threshold, ⟨p.x, hx, own, ?_⟩, fun v hv other => ?_⟩
    · rw [block own, patchRow, ← top, ← samples]
    · rw [block other]
      exact best v ((hcovered ..).mpr ⟨hv, other⟩)

end Sys2Proof.Machine
end

section
/-! SUPPORT. A stall of requester 0 tested again (R159) with more to follow before everything settles: `settle_retestStall`
for any later state that has the tested fetch port. -/

namespace Sys2Proof.Machine

/-- A part of requester 0's transfer that asking for bytes does not change is as its side stood. -/
theorem settle_transfer_part {α : Type} (part : Transfer → α) (hp : ∀ t, part (unasked t) = part t) {v : State}
    (h : noDataPosted v.fetch.p0) :
    (settle false false v).fetch.p0.transfer.map part = v.fetch.p0.transfer.map part := by
  have keep := congrArg (Option.map part) (settle_unasked .r0 v h)
  have parts : part ∘ unasked = part := funext hp
  rwa [Option.map_map, Option.map_map, parts] at keep

section AfterRetest

variable {u v : State} (fetch : v.fetch = (retestStall u).fetch)
include fetch

/-- The item is ready: its burst follows the WAITING header that is still to be sent, or is prepared at once. -/
theorem settle_after_retestStall_ready {x : Transfer} {start : Time} (hx : u.fetch.p0.transfer = some x)
    (hw : u.fetch.p0.waitStart = some start) (h : testItem u .r0 x = .ready) (t : State)
    (ht : t = settle false false v) :
    (∀ b, u.fetch.p0.posted = some b → b.status = .waiting → b.requester = .r0 →
      burstOf t.fetch .r0 = some b ∧ t.fetch.p0.transfer.map Transfer.tested = some true) ∧
    (u.fetch.p0.posted = none → waitingOnBus u.fetch = true → t.fetch.p0.transfer.map Transfer.tested = some true) ∧
    (u.fetch.p0.posted = none → waitingOnBus u.fetch = false →
      (memoryKind x.req.kind = true →
        t.fetch.p0.phase = .preparing ∧ t.fetch.p0.transfer.map Transfer.item = some x.item ∧
        t.fetch.p0.transfer.map Transfer.tested = some true) ∧
      (x.req.kind = .strips → burstOf t.fetch .r0 =
        some ⟨.r0, dataStatus u.sweepCfg x (stripItem u x.item).length, x.item, stripItem u x.item⟩)) := by
  subst ht
  refine ⟨fun b hb hs hr => ?_, fun hp hb => ?_, fun hp hb => ⟨fun hm => ?_, fun hk => ?_⟩⟩
  · have side : v.fetch.p0 = { u.fetch.p0 with
        waitStart := none, transfer := some { x with tested := true }, phase := .posted } := by
      rw [fetch, retestStall_of_ready_posted hx hw h hb hs]; rfl
    have posted : v.fetch.p0.posted = some b := by rw [side]; exact hb
    exact ⟨settle_burst false false posted hr, by
      rw [settle_transfer_part Transfer.tested (fun _ => rfl) (noDataPosted_of_waiting posted hs), side]; rfl⟩
  · have side : v.fetch.p0 = { u.fetch.p0 with waitStart := none, transfer := some { x with tested := true } } := by
      rw [fetch, retestStall_of_ready_onBus hx hw h hp hb]; rfl
    have posted : v.fetch.p0.posted = none := by rw [side]; exact hp
    rw [settle_transfer_part Transfer.tested (fun _ => rfl) (noDataPosted_of_none posted), side]
    rfl
  · have side : v.fetch.p0 = { u.fetch.p0 with
        waitStart := none, transfer := some { x with inHand := [], asked := 0, tested := true }, phase := .preparing } := by
      rw [fetch, retestStall_of_ready_sent hx hw h hp hb]
      cases hk : x.req.kind <;> simp_all [prepareBurst, memoryKind, setSide, sideOf]
    have posted : v.fetch.p0.posted = none := by rw [side]; exact hp
    have phase : (settle false false v).fetch.p0.phase = v.fetch.p0.phase := settle_phase .r0 v posted
    rw [phase, settle_transfer_part Transfer.item (fun _ => rfl) (noDataPosted_of_none posted),
      settle_transfer_part Transfer.tested (fun _ => rfl) (noDataPosted_of_none posted), side]
    exact ⟨rfl, rfl, rfl⟩
  · refine settle_burst false false ?_ rfl
    rw [fetch, retestStall_of_ready_sent hx hw h hp hb]
    simp [prepareBurst, hk, postData, stripItem]

/-- The item never comes: ERROR RANGE follows the WAITING header still posted, or is posted at once. -/
theorem settle_after_retestStall_range {x : Transfer} {start : Time} (hx : u.fetch.p0.transfer = some x)
    (hw : u.fetch.p0.waitStart = some start) (h : testItem u .r0 x = .range) (t : State)
    (ht : t = settle false false v) :
    (∀ b, u.fetch.p0.posted = some b → b.status = .waiting → b.requester = .r0 →
      burstOf t.fetch .r0 = some b ∧ t.fetch.p0.transfer.map Transfer.rangeAfter = some (some x.item)) ∧
    (u.fetch.p0.posted = none → burstOf t.fetch .r0 = some ⟨.r0, .errorRange, x.item, []⟩) := by
  subst ht
  refine ⟨fun b hb hs hr => ?_, fun hp => ?_⟩
  · have side : v.fetch.p0 = { u.fetch.p0 with
        waitStart := none, transfer := some { x with rangeAfter := some x.item }, phase := .posted } := by
      rw [fetch, retestStall_of_range_posted hx hw h hb hs]; rfl
    have posted : v.fetch.p0.posted = some b := by rw [side]; exact hb
    exact ⟨settle_burst false false posted hr, by
      rw [settle_transfer_part Transfer.rangeAfter (fun _ => rfl) (noDataPosted_of_waiting posted hs), side]; rfl⟩
  · refine settle_burst false false ?_ rfl
    rw [fetch, retestStall_of_range_sent hx hw h hp, sideOf_endWith, if_pos rfl]
    rfl

/-- What follows the test again, but for the fetch port, the canvas and the strips, takes nothing from it (R159). -/
theorem settle_after_retestStall (test : ∀ x, testItem v .r0 x = testItem u .r0 x)
    (item : ∀ i, stripItem v i = stripItem u i) : stallRetested u (settle false false v) := by
  have port := settle_only false false v
  have hs := settle_settlesTo false false v
  obtain ⟨p1, bus, held, line, req⟩ := retestStall_keeps u
  have side1 : sideAs u.fetch.p1 (settle false false v).fetch.p1 := p1 ▸ fetch ▸ hs.side .r1
  obtain ⟨req0, held0, wait0, limit0, line0⟩ := fetch ▸ hs.side .r0
  obtain ⟨-, -, -, keepsBus, -⟩ := hs
  rw [fetch, bus] at keepsBus
  refine ⟨side1, held0.trans held, line0.trans line, keepsBus, fun hn => ?_, fun x start hx hw => ?_⟩
  · have same := retestStall_none hn
    rw [same] at req0 held0 wait0 limit0 line0
    exact ⟨req0, held0, wait0, limit0, line0⟩
  · have wait := wait0.trans (retestStall_waitStart hx hw)
    rw [testItem_of_onlyPort port, stripItem_of_onlyPort port, test, item]
    refine ⟨req0.trans (req.trans (by rw [hx]; rfl)), fun h => ?_, fun h => ?_, fun h => ?_⟩
    · rw [if_pos h] at wait
      exact ⟨wait, limit0.trans (by rw [retestStall_of_stall hx hw h]; rfl)⟩
    · rw [if_neg (by rw [h]; decide)] at wait
      exact ⟨wait, settle_after_retestStall_ready fetch hx hw h _ rfl⟩
    · rw [if_neg (by rw [h]; decide)] at wait
      exact ⟨wait, settle_after_retestStall_range fetch hx hw h _ rfl⟩

end AfterRetest

end Sys2Proof.Machine
end

section
/-! SUPPORT. The commit of a strip in OPEN, up to the test of a stall (R90, R119 to R121, R62). -/

namespace Sys2Proof.Machine

/-! ## The steps of a commit -/

/-- The end requests of a commit (R120). -/
def commitEnds (cls : StripClass) (strips : Nat) : List EndReason :=
  if cls = .closing then [.closed] else if cls = .extent then [.extent] else if strips = 256 then [.stripsFull] else []

theorem commitEnd_eq (job : StripJob) (s : State) : commitEnd job s =
    { s with sweep := { s.sweep with endRequests := s.sweep.endRequests ++ commitEnds job.cls s.comp.strips.length } } := by
  unfold commitEnd commitRequest commitEnds
  cases job.cls with
  | closing => rfl
  | extent => rfl
  | normal =>
    by_cases full : s.comp.strips.length = 256
    · simp [full, sendEndRequest]
    · simp [full]

theorem commitCauses_eq (job : StripJob) (s : State) : commitCauses job s = { s with attn := { s.attn with
    pendingSet := s.attn.pendingSet ||| 64 ||| if job.frameFlags.pitchClamp then 16 else 0 } } := by
  unfold commitCauses
  cases job.frameFlags.pitchClamp with
  | true => rfl
  | false =>
    have none (marks : BitVec 7) : marks ||| (if false = true then 16 else 0) = marks := BitVec.or_zero
    rw [none]
    rfl

theorem freeSlot_of_occupied {s : State} {i : Nat} (fate : Fate) (occupied : slotState s.ingest.slots i ≠ .free) :
    freeSlot i fate s = { s with
      ingest := { s.ingest with
        slots := s.ingest.slots.modify i fun slot => { slot with state := .free }
        queue := s.ingest.queue.filter fun k => decide (k ≠ i) }
      sweep := { s.sweep with counters := countFate fate s.sweep.counters } } := if_neg occupied

/-- The record of the strip that the commit appends (R124). -/
def committedRecord (job : StripJob) (s : State) : StripRecord :=
  stripRecord s.sweepCfg s.comp.strips.length s.comp.front job

/-- A pending re-anchor sets the yaw trim and is used up (R84, R121). -/
theorem applyPending_trim (s : State) : applyPending s = { s with comp := { s.comp with
    trimYaw := match s.comp.pendingReanchor with
      | none => s.comp.trimYaw
      | some r => reanchorTrim s.sweepCfg s.place.direction s.comp.strips (s.place.originYaw.getD 0) r
    pendingReanchor := none } } := by
  unfold applyPending
  cases pending : s.comp.pendingReanchor with
  | none => exact congrArg (fun p => { s with comp := { s.comp with pendingReanchor := p } }) pending
  | some r => rfl

/-! ## The whole commit -/

/-- The compositor once the strip has committed and its preview update has begun (R119, R121, R122, R125). -/
def committedComp (job : StripJob) (s : State) : Compositor :=
  let trims := trimAfter s.sweepCfg s.place.direction job.result.correction s.comp.trimYaw s.comp.trimPitch
  let settled := settledAfter s.sweepCfg s.comp.settled job.newFront
  let clean := if job.strip0 then some (maxOf 0 job.edges) else s.comp.clean
  { s.comp with
    state := .updating
    front := job.newFront
    settled := settled
    clean := clean
    trimYaw := match s.comp.pendingReanchor with
      | none => trims.1
      | some r => reanchorTrim s.sweepCfg s.place.direction (s.comp.strips ++ [committedRecord job s])
          (s.place.originYaw.getD 0) r
    trimPitch := trims.2
    strips := s.comp.strips ++ [committedRecord job s]
    closureError := if job.cls = .closing then job.result.closure else s.comp.closureError
    closurePoor := if job.cls = .closing then closurePoor s.sweepCfg job.result.closure else s.comp.closurePoor
    pendingReanchor := none
    job := none
    todo := previewUnits s.sweepCfg s.store (updateColumns s.sweepCfg s.store settled clean) }

/-- The state that a commit leaves to the test of a stall and to the deciding frame. -/
def committed (job : StripJob) (s : State) : State :=
  { s with
    comp := committedComp job s
    place := (commitPlace job s).place
    ingest := { s.ingest with
      slots := s.ingest.slots.modify job.slot fun slot => { slot with state := .free }
      queue := s.ingest.queue.filter fun k => decide (k ≠ job.slot) }
    sweep := { s.sweep with
      counters := { s.sweep.counters with composited := holdCount (s.sweep.counters.composited + 1) }
      endRequests := s.sweep.endRequests ++ commitEnds job.cls (s.comp.strips.length + 1) }
    attn := { s.attn with
      pendingSet := s.attn.pendingSet ||| 64 ||| if job.frameFlags.pitchClamp then 16 else 0 } }

section Commit

variable {s : State} {job : StripJob} (occupied : slotState s.ingest.slots job.slot ≠ .free)
include occupied

theorem committed_eq : commitEnd job (commitCauses job
    (beginUpdate (commitPlace job (freeSlot job.slot .composited (applyPending (commitComp job s)))))) =
      committed job s := by
  have count : (s.comp.strips ++ [committedRecord job s]).length = s.comp.strips.length + 1 := by simp
  rw [applyPending_trim, freeSlot_of_occupied _ (by exact occupied), commitCauses_eq, commitEnd_eq, committed, ← count]
  rfl

/-- In OPEN nothing drains at a commit, so what follows is the stall's test and the deciding frame's course. -/
theorem commitStrip_eq (opened : s.sweep.state = .opened) :
    commitStrip job s = engineGo takeFuel (resumeDeciding (retestStall (committed job s))) := by
  have state : (retestStall (committed job s)).sweep.state = .opened := by
    obtain ⟨_, _, tested⟩ := retestStall_only (committed job s)
    rw [tested]
    exact opened
  have going (handedOver : Bool) : commitDrain job handedOver (retestStall (committed job s)) =
      retestStall (committed job s) := by
    unfold commitDrain
    split
    · rfl
    · exact drainTest_of_ne _ (by rw [state]; decide)
  unfold commitStrip
  dsimp only
  rw [committed_eq occupied, going]

end Commit

/-- The frame whose strip has committed leaves the placement unit, which is READY then (R67). -/
theorem committed_place_of_own {s : State} {job : StripJob}
    (own : s.place.work = none ∨ ∃ w, s.place.work = some w ∧ w.slot = job.slot) :
    (committed job s).place = { s.place with
      saved := if job.strip0 then none else s.place.saved, state := .ready, work := none } := by
  rcases own with none | ⟨w, work, slot⟩
  · simp [committed, commitPlace, none]
  · simp [committed, commitPlace, work, slot]

/-- Another frame in placement stays there (R80). -/
theorem committed_place_of_other {s : State} {job : StripJob} {w : Working} (work : s.place.work = some w)
    (other : w.slot ≠ job.slot) :
    (committed job s).place = { s.place with saved := if job.strip0 then none else s.place.saved } := by
  simp [committed, commitPlace, work, other]

end Sys2Proof.Machine
end

section
/-! SUPPORT. The deciding frame going on from its band lookups during a preview update in OPEN: what its course leaves as it
is, and where it rests (R72, R74, R76, R80, R83, R105). -/

namespace Sys2Proof.Machine

/-! ## What the course leaves as it is -/

/-- At most the placement unit's state and record, the registration unit's state, the guide record and the placement held
during the update differ. -/
def OnlyPlaced (s t : State) : Prop :=
  ∃ st work reg guide waiting, t = { s with
    place := { s.place with state := st, work := work }
    reg := { s.reg with state := reg }
    comp := { s.comp with guide := guide, waiting := waiting } }

theorem OnlyPlaced.refl (s : State) : OnlyPlaced s s := ⟨_, _, _, _, _, rfl⟩

theorem OnlyPlaced.trans {s t u : State} : OnlyPlaced s t → OnlyPlaced t u → OnlyPlaced s u := by
  rintro ⟨_, _, _, _, _, rfl⟩ ⟨_, _, _, _, _, rfl⟩
  exact ⟨_, _, _, _, _, rfl⟩

theorem placing_onlyPlaced (w : Working) (s : State) : OnlyPlaced s (placing w s) := ⟨_, _, _, _, _, rfl⟩

/-- The predicted placement of w stands in v: the edge step changes the corrected one and the pitch clamp's flag alone
(R77). -/
def SamePrediction (w v : Working) : Prop :=
  ∃ correction finalX finalY edges bites, v = { w with
    correction := correction, finalX := finalX, finalY := finalY, edges := edges
    flags := { w.flags with pitchClamp := bites } }

theorem SamePrediction.refl (w : Working) : SamePrediction w w := ⟨_, _, _, _, _, rfl⟩

theorem edgeStep_samePrediction (cfg : Configuration) (r : RegResult) (w : Working) :
    SamePrediction w (edgeStep cfg r w) := ⟨_, _, _, _, _, rfl⟩

section Updating

variable {s : State} (opened : s.sweep.state = .opened) (updating : s.comp.state = .updating)

include opened in
/-- With a patch in LEAD the frame's offer is made and its search begins (R93, R127). -/
theorem offerAndRegister_of_lead (lead : s.reg.lead ≠ []) (w : Working) :
    (offerAndRegister w s).reg.state = .searching ∧
    (offerAndRegister w s).comp.guide.count = s.comp.guide.count + 1 ∧ (offerAndRegister w s).comp.guide.seq = w.seq := by
  rw [offerAndRegister_of_search (.inl lead), if_pos opened]
  exact ⟨rfl, rfl, rfl⟩

include opened updating

/-- A placed ordinary frame is searched, or its final placement is held until the update ends (R93, R105, R108). -/
theorem offerAndRegister_updating {w : Working} (ordinary : w.cls = .ordinary) :
    OnlyPlaced s (offerAndRegister w s) ∧ (offerAndRegister w s).place.state = .passed ∧
    ∃ v, (offerAndRegister w s).place.work = some v ∧ SamePrediction w v := by
  by_cases search : s.reg.lead ≠ [] ∨ frameClosureDue s w = true
  · rw [offerAndRegister_of_search search]
    exact ⟨⟨_, _, _, _, _, rfl⟩, rfl, w, rfl, .refl w⟩
  · rw [not_or, not_not, Bool.not_eq_true] at search
    rw [offerAndRegister_of_motionOnly opened search.1 search.2, if_neg (by rw [ordinary]; decide), handOver,
      if_pos (by exact updating)]
    exact ⟨⟨_, _, _, _, _, rfl⟩, rfl, _, rfl, edgeStep_samePrediction ..⟩

/-- One lookup of an ordinary frame at a band takes it to the next band, or to its rest. -/
theorem placeStep_band_updating {w : Working} (ordinary : w.cls = .ordinary) {k : Nat} (stage : w.stage = .band k) :
    (∃ v, placeStep w s = .goOn v s ∧ v.cls = .ordinary ∧ v.stage = .band (k + 1)) ∨
    ∃ t, placeStep w s = .rest t ∧ OnlyPlaced s t := by
  obtain ⟨met, hmet⟩ : ∃ met, meetLoss s w = { w with metLoss := met } := by
    unfold meetLoss
    split <;> exact ⟨_, rfl⟩
  have step := placeStep_of_answer (s := s) (.inr ⟨k, stage⟩) rfl
  rw [hmet] at step
  cases answer : lookupPose s.sweepCfg s w (lookupTime w) with
  | wait => exact .inr ⟨_, by rw [step, answer]; rfl, _, _, _, _, _, rfl⟩
  | history =>
    exact .inr ⟨_, by rw [step, answer]; rfl, (offerAndRegister_updating opened updating (by exact ordinary)).1⟩
  | found pose =>
    rw [answer, takeAnswer_found_band (k := k) (by exact stage), afterBand] at step
    by_cases more : k + 1 < 8
    · exact .inl ⟨_, step.trans (if_pos more), ordinary, rfl⟩
    · rw [if_neg more, if_neg (by dsimp only; rw [ordinary]; decide)] at step
      exact .inr ⟨_, step, (offerAndRegister_updating opened updating (by exact ordinary)).1⟩

end Updating

/-- So it is over any number of lookups. -/
theorem placeRun_onlyPlaced (n : Nat) {w : Working} (ordinary : w.cls = .ordinary) {k : Nat} (stage : w.stage = .band k)
    {s : State} (opened : s.sweep.state = .opened) (updating : s.comp.state = .updating) :
    OnlyPlaced s (placeRun n w s) := by
  induction n generalizing w k with
  | zero => exact placing_onlyPlaced w s
  | succ n ih =>
    obtain ⟨v, step, cls, next⟩ | ⟨t, step, only⟩ :=
      placeStep_band_updating (s := placing w s) opened updating ordinary stage
    · rw [placeRun_of_goOn step, placeRun_placing]
      exact ih cls next
    · rw [placeRun_of_rest step]
      exact (placing_onlyPlaced w s).trans only

/-! ## Where the frame rests -/

section Rests

variable {s : State} {w : Working}

/-- The ring does not answer: the frame waits for motion (R72). -/
theorem placeRun_band_of_wait {k : Nat} (stage : w.stage = .band k) (kept : s.place.motionLost = false)
    (met : w.metLoss = false) (early : waitExpired s.sweepCfg s.timeBase w = false)
    (unanswered : lookupRing s.motion.ring (w.bandTimes.getD k 0) = none) :
    placeRun placeFuel w s = { s with place := { s.place with state := .waitMotion, work := some w } } := by
  have answer := lookupPose_of_wait (s := placing w s) kept unanswered met early
  rw [← lookupTime_band stage] at answer
  have step := placeStep_of_answer (.inr ⟨k, stage⟩) answer
  rw [meetLoss_of_kept (s := placing w s) kept] at step
  exact placeRun_of_rest step 8

/-- With the mark set the frame is placed by the strip history (R74, R83). -/
theorem placeRun_band_of_lost {k : Nat} (stage : w.stage = .band k) (lost : s.place.motionLost = true)
    {rest : List StripRecord} {n : StripRecord} (strips : s.comp.strips = rest ++ [n]) :
    placeRun placeFuel w s =
      offerAndRegister (historyRecord (historyColumn (rest ++ [n]) w.tRef) n.yP w) (placing w s) := by
  have step := placeStep_of_history (s := placing w s) (.inr ⟨k, stage⟩) lost (by simp [placing, strips])
  rw [placeFuel, placeRun_of_rest step, historyPlace_eq (s := placing w s) strips]

/-- The ring answers from band k on: with a step left for each band the frame takes its column (R70, R76). -/
theorem placeRun_bands_of_fuel {pose : Nat → PoseFound} (kept : s.place.motionLost = false)
    (found : ∀ k, k < 8 → lookupRing s.motion.ring (w.bandTimes.getD k 0) = some (pose k)) (other : w.cls ≠ .opening)
    (m : Nat) : ∀ {k n : Nat}, k + m = 7 → m < n →
      placeRun n (atBand pose k w) s =
        offerAndRegister (columnPlaced s (atBand pose 8 w)) (placing (atBand pose 7 w) s) := by
  induction m with
  | zero =>
    intro k n last fuel
    obtain ⟨n, rfl⟩ : ∃ n', n = n' + 1 := ⟨n - 1, by omega⟩
    obtain rfl : k = 7 := last
    have step := (placeStep_atBand kept found (by decide) (atBand pose 7 w)).trans (afterBand_seven ..)
    rw [if_neg other] at step
    exact placeRun_of_rest step n
  | succ m ih =>
    intro k n last fuel
    obtain ⟨n, rfl⟩ : ∃ n', n = n' + 1 := ⟨n - 1, by omega⟩
    have step := (placeStep_atBand kept found (k := k) (by omega) (atBand pose k w)).trans (afterBand_of_lt (by omega) ..)
    rw [placeRun_of_goOn step, placeRun_placing]
    exact ih (by omega) (by omega)

end Rests

end Sys2Proof.Machine
end

section
/-! SUPPORT. HARVEST_COMPLETE in OPEN with no frame queued, with O44 from it (R80, R89, R90, R119 to R122, R159). -/

namespace Sys2Proof.Machine

/-! ## The harvest's commit (R89, R119) -/

theorem exec_harvestComplete (s : State) : exec .harvestComplete s = .next (settle false false (completeHarvest s)) := rfl

/-- The state in which the strip commits: the tables harvested, the registration unit IDLE. -/
def harvested (job : StripJob) (s : State) : State := harvestTables job (dropEngine .registration s)

/-- The state that the harvest's commit leaves to the deciding frame. -/
def harvestCommitted (job : StripJob) (s : State) : State := retestStall (committed job (harvested job s))

section Fields

variable (job : StripJob) (s : State)

/-- The test of a stall touches the fetch port and the arbiter alone. -/
theorem harvestCommitted_eq : ∃ f a, harvestCommitted job s =
    { committed job (harvested job s) with fetch := f, arb := a } := retestStall_only _

@[simp] theorem harvestCommitted_timeBase : (harvestCommitted job s).timeBase = s.timeBase := by
  obtain ⟨_, _, h⟩ := harvestCommitted_eq job s; rw [h]; rfl
@[simp] theorem harvestCommitted_config : (harvestCommitted job s).config = s.config := by
  obtain ⟨_, _, h⟩ := harvestCommitted_eq job s; rw [h]; rfl
@[simp] theorem harvestCommitted_sweepCfg : (harvestCommitted job s).sweepCfg = s.sweepCfg := by
  obtain ⟨_, _, h⟩ := harvestCommitted_eq job s; rw [h]; rfl
@[simp] theorem harvestCommitted_sweep :
    (harvestCommitted job s).sweep = (committed job (harvested job s)).sweep := by
  obtain ⟨_, _, h⟩ := harvestCommitted_eq job s; rw [h]
@[simp] theorem harvestCommitted_motion : (harvestCommitted job s).motion = s.motion := by
  obtain ⟨_, _, h⟩ := harvestCommitted_eq job s; rw [h]; rfl
@[simp] theorem harvestCommitted_ingest :
    (harvestCommitted job s).ingest = (committed job (harvested job s)).ingest := by
  obtain ⟨_, _, h⟩ := harvestCommitted_eq job s; rw [h]
@[simp] theorem harvestCommitted_place :
    (harvestCommitted job s).place = (committed job (harvested job s)).place := by
  obtain ⟨_, _, h⟩ := harvestCommitted_eq job s; rw [h]
@[simp] theorem harvestCommitted_reg : (harvestCommitted job s).reg = (harvested job s).reg := by
  obtain ⟨_, _, h⟩ := harvestCommitted_eq job s; rw [h]; rfl
@[simp] theorem harvestCommitted_comp : (harvestCommitted job s).comp = committedComp job (harvested job s) := by
  obtain ⟨_, _, h⟩ := harvestCommitted_eq job s; rw [h]; rfl
@[simp] theorem harvestCommitted_store : (harvestCommitted job s).store = s.store := by
  obtain ⟨_, _, h⟩ := harvestCommitted_eq job s; rw [h]; rfl
@[simp] theorem harvestCommitted_ctl : (harvestCommitted job s).ctl = s.ctl := by
  obtain ⟨_, _, h⟩ := harvestCommitted_eq job s; rw [h]; rfl
@[simp] theorem harvestCommitted_attn :
    (harvestCommitted job s).attn = (committed job (harvested job s)).attn := by
  obtain ⟨_, _, h⟩ := harvestCommitted_eq job s; rw [h]

theorem harvestCommitted_opened {s : State} (opened : s.sweep.state = .opened) :
    (harvestCommitted job s).sweep.state = .opened := by rw [harvestCommitted_sweep]; exact opened

theorem harvestCommitted_updating : (harvestCommitted job s).comp.state = .updating := by
  rw [harvestCommitted_comp]; rfl

/-- The commit leaves the motion-lost mark as it is. -/
theorem harvestCommitted_motionLost : (harvestCommitted job s).place.motionLost = s.place.motionLost := by
  rw [harvestCommitted_place]; rfl

end Fields

theorem harvestsOpening_iff (cfg : Configuration) (job : StripJob) :
    harvestsOpening cfg job = true ↔ job.strip0 = true ∧ cfg.mode = .ring := by
  simp [harvestsOpening]

/-- The deciding frame, which waits for strip 0's commit (R80). -/
structure Deciding (s : State) (job : StripJob) (w : Working) : Prop where
  work : s.place.work = some w
  other : w.slot ≠ job.slot
  stage : w.stage = .awaitStrip0
  ordinary : w.cls = .ordinary

section Harvest

variable {s : State} {job : StripJob}

/-- Without a deciding frame nothing follows the commit. -/
theorem resumeDeciding_of_own (own : s.place.work = none ∨ ∃ w, s.place.work = some w ∧ w.slot = job.slot) :
    resumeDeciding (harvestCommitted job s) = harvestCommitted job s := by
  have none : (harvestCommitted job s).place.work = none := by
    rw [harvestCommitted_place, committed_place_of_own (s := harvested job s) own]
  rw [resumeDeciding, none]

theorem Deciding.resume_eq {w : Working} (h : Deciding s job w) : resumeDeciding (harvestCommitted job s) =
    placeRun placeFuel { w with stage := .band 0 } (harvestCommitted job s) := by
  have work : (harvestCommitted job s).place.work = some w := by
    rw [harvestCommitted_place, committed_place_of_other (s := harvested job s) h.work h.other]
    exact h.work
  simp only [resumeDeciding, work, h.stage, if_true]

/-- Whoever is in placement, its course after the commit leaves the commit as it is. -/
theorem resumeDeciding_onlyPlaced (opened : s.sweep.state = .opened)
    (inHand : (s.place.work = none ∨ ∃ w, s.place.work = some w ∧ w.slot = job.slot) ∨ ∃ w, Deciding s job w) :
    OnlyPlaced (harvestCommitted job s) (resumeDeciding (harvestCommitted job s)) := by
  rcases inHand with own | ⟨w, h⟩
  · rw [resumeDeciding_of_own own]
    exact .refl _
  · rw [h.resume_eq]
    exact placeRun_onlyPlaced (w := { w with stage := .band 0 }) _ h.ordinary rfl
      (harvestCommitted_opened job opened) (harvestCommitted_updating job s)

/-- The harvest's reads are done, so its strip commits, and no frame is taken after it. -/
theorem completeHarvest_eq (harvesting : s.reg.state = .harvesting) (compositing : s.comp.state = .harvesting)
    (hjob : s.comp.job = some job) (opened : s.sweep.state = .opened) (empty : s.ingest.queue = [])
    (occupied : slotState s.ingest.slots job.slot ≠ .free) (read : readsLeft s .registration = [])
    (only : OnlyPlaced (harvestCommitted job s) (resumeDeciding (harvestCommitted job s))) :
    completeHarvest s = resumeDeciding (harvestCommitted job s) := by
  have done : readsDone s .registration = true := by simp [readsDone, read]
  have queue : (resumeDeciding (harvestCommitted job s)).ingest.queue = [] := by
    obtain ⟨_, _, _, _, _, left⟩ := only
    rw [left]
    simp [committed, harvested, harvestTables, empty]
  simp only [completeHarvest, harvesting, compositing, hjob, done, if_true]
  exact (commitStrip_eq (s := harvested job s) occupied opened).trans (engineGo_of_nil _ _ queue)

end Harvest

/-- What settles after a commit keeps it, and the stall has been tested again with it (R159). -/
theorem settle_committed {s v t : State} {job : StripJob} (only : OnlyPlaced (harvestCommitted job s) v)
    (ht : t = settle false false v) :
    (∃ guide waiting, t.comp = { committedComp job (harvested job s) with guide := guide, waiting := waiting }) ∧
    (∃ st work, t.place = { (committed job (harvested job s)).place with state := st, work := work }) ∧
    (∃ st, t.reg = { (harvested job s).reg with state := st }) ∧
    t.ingest.slots = (committed job (harvested job s)).ingest.slots ∧ t.sweep = (committed job (harvested job s)).sweep ∧
    t.attn = (committed job (harvested job s)).attn ∧ t.motion = s.motion ∧ t.store = s.store ∧ t.ctl = s.ctl ∧
    t.config = s.config ∧ stallRetested s t := by
  subst ht
  obtain ⟨st, work, reg, guide, waiting, left⟩ := only
  have stall : stallRetested s (settle false false v) := by
    obtain ⟨_, _, tested⟩ := harvestCommitted_eq job s
    exact (settle_after_retestStall (u := committed job (harvested job s)) (by rw [left]; rfl)
      (fun x => by rw [left, tested]; rfl) (fun i => by rw [left, tested]; rfl)).from rfl rfl
  have comp : (settle false false v).comp = v.comp :=
    settle_comp_of_ne _ _ _ (by rw [left]; simp [committedComp])
  rw [comp, settle_place, settle_reg, settle_slots, settle_sweep, settle_attn, settle_motion, settle_store, settle_ctl,
    settle_config]
  refine ⟨⟨guide, waiting, ?_⟩, ⟨st, work, ?_⟩, ⟨reg, ?_⟩, ?_, ?_, ?_, ?_, ?_, ?_, ?_, stall⟩ <;> simp [left]

/-! ## The deciding frame (R80) -/

/-- A frame whose prediction is made during an update, once everything has settled. -/
theorem settle_offerAndRegister_updating {s t : State} (opened : s.sweep.state = .opened)
    (updating : s.comp.state = .updating) {w : Working} (ordinary : w.cls = .ordinary)
    (ht : t = settle false false (offerAndRegister w s)) :
    t.place.state = .passed ∧ ∃ v, t.place.work = some v ∧ SamePrediction w v ∧
      (t.reg.lead ≠ [] → t.reg.state = .searching ∧ t.comp.guide.count = s.comp.guide.count + 1 ∧
        t.comp.guide.seq = w.seq) := by
  subst ht
  obtain ⟨only, passed, v, work, same⟩ := offerAndRegister_updating opened updating ordinary
  have lead : (offerAndRegister w s).reg.lead = s.reg.lead := by
    obtain ⟨_, _, _, _, _, left⟩ := only
    rw [left]
  rw [settle_place, settle_reg, settle_guide, lead]
  exact ⟨passed, v, work, same, fun patches => offerAndRegister_of_lead opened patches w⟩

section Resume

variable {s t : State} {job : StripJob} {w : Working} (h : Deciding s job w)
  (ht : t = settle false false (resumeDeciding (harvestCommitted job s)))
include h ht

theorem Deciding.waits (kept : s.place.motionLost = false) (met : w.metLoss = false)
    (early : waitExpired s.sweepCfg s.timeBase w = false)
    (unanswered : lookupRing s.motion.ring (w.bandTimes.getD 0 0) = none) :
    t.place.state = .waitMotion ∧ t.place.work = some { w with stage := .band 0 } ∧ t.reg.state = .idle ∧
    t.comp.guide = s.comp.guide := by
  have run := placeRun_band_of_wait (s := harvestCommitted job s) (w := { w with stage := .band 0 }) rfl
    ((harvestCommitted_motionLost ..).trans kept) met
    (by rw [harvestCommitted_sweepCfg, harvestCommitted_timeBase]; exact early)
    (by rw [harvestCommitted_motion]; exact unanswered)
  rw [ht, settle_place, settle_reg, settle_guide, h.resume_eq, run]
  refine ⟨rfl, rfl, ?_, ?_⟩
  · rw [harvestCommitted_reg]; rfl
  · rw [harvestCommitted_comp]; rfl

variable (opened : s.sweep.state = .opened)
include opened

/-- Once its prediction is made, it is searched with a patch in LEAD (R93). -/
theorem Deciding.predicted {v x : Working}
    (run : placeRun placeFuel { w with stage := .band 0 } (harvestCommitted job s) =
      offerAndRegister v (placing x (harvestCommitted job s))) (cls : v.cls = w.cls) (seq : v.seq = w.seq) :
    t.place.state = .passed ∧ ∃ w', t.place.work = some w' ∧ SamePrediction v w' ∧
      (t.reg.lead ≠ [] → t.reg.state = .searching ∧ t.comp.guide.count = s.comp.guide.count + 1 ∧
        t.comp.guide.seq = w.seq) := by
  have guide : (placing x (harvestCommitted job s)).comp.guide = s.comp.guide := by
    rw [placing, harvestCommitted_comp]; rfl
  rw [h.resume_eq, run] at ht
  rw [← seq, ← guide]
  exact settle_offerAndRegister_updating (s := placing x (harvestCommitted job s)) (harvestCommitted_opened job opened)
    (harvestCommitted_updating job s) (cls.trans h.ordinary) ht

/-- With no strip before strip 0 its record gives the column and the pitch offset (R83). -/
theorem Deciding.historyPlaced (lost : s.place.motionLost = true) (bare : s.comp.strips = []) :
    t.place.state = .passed ∧ ∃ w', t.place.work = some w' ∧
      SamePrediction (historyRecord job.xC job.yP { w with stage := .band 0 }) w' ∧
      (t.reg.lead ≠ [] → t.reg.state = .searching ∧ t.comp.guide.count = s.comp.guide.count + 1 ∧
        t.comp.guide.seq = w.seq) := by
  have strips : (harvestCommitted job s).comp.strips = [] ++ [committedRecord job (harvested job s)] := by
    rw [harvestCommitted_comp]
    exact congrArg (· ++ [committedRecord job (harvested job s)]) bare
  have run := placeRun_band_of_lost (w := { w with stage := .band 0 }) (k := 0) rfl
    ((harvestCommitted_motionLost ..).trans lost) strips
  exact h.predicted ht opened run rfl rfl

/-- Answered by the ring it takes its column in the direction decided (R76). -/
theorem Deciding.columnTaken {pose : Nat → PoseFound} (kept : s.place.motionLost = false) (yaws : w.bandYaws = [])
    (found : ∀ k, k < 8 → lookupRing s.motion.ring (w.bandTimes.getD k 0) = some (pose k)) :
    t.place.state = .passed ∧ ∃ w', t.place.work = some w' ∧
      SamePrediction (columnPlaced s (atBand pose 8 { w with stage := .band 0 })) w' ∧
      (t.reg.lead ≠ [] → t.reg.state = .searching ∧ t.comp.guide.count = s.comp.guide.count + 1 ∧
        t.comp.guide.seq = w.seq) := by
  have run := placeRun_bands_of_fuel (s := harvestCommitted job s) (w := { w with stage := .band 0 }) (n := placeFuel)
    ((harvestCommitted_motionLost ..).trans kept) (by rw [harvestCommitted_motion]; exact found)
    (by rw [h.ordinary]; decide) 7 rfl (by decide)
  have column : columnPlaced (harvestCommitted job s) (atBand pose 8 { w with stage := .band 0 }) =
      columnPlaced s (atBand pose 8 { w with stage := .band 0 }) := by
    simp only [columnPlaced, harvestCommitted_place, harvestCommitted_sweepCfg]
    rfl
  rw [atBand_zero (w := { w with stage := .band 0 }) yaws rfl, column] at run
  exact h.predicted ht opened run rfl rfl

end Resume

/-- Settles O44: the table by `mem_harvestTable_iff`, the commit by `settle_committed`, and the deciding frame's three ends by
the lookup of band 0. -/
theorem harvestCommitsTheStrip : Obligations.HarvestCommitsTheStrip := by
  refine ⟨fun f g => ?_, ?_, ?_⟩
  · simp [leadColumns, openingColumns, List.range_succ]
    omega
  · intro cfg store columns sample energy covered height margin room rising hsample henergy hcovered
    obtain rfl : sample = patchLuma cfg store := by funext k x r j; exact hsample k x r j
    refine ⟨harvestTable_pairwise rising, mem_harvestTable_iff height margin room rising ?_ ?_⟩
    · intro k x
      rw [henergy, textureEnergy_blockOf]
    · intro k x
      rw [hcovered, eligible_iff]
  · intro s job record trims harvesting compositing hjob opened empty occupied read inHand hrecord htrims
    subst hrecord htrims
    have inPlacement : (s.place.work = none ∨ ∃ w, s.place.work = some w ∧ w.slot = job.slot) ∨ ∃ w, Deciding s job w := by
      rcases inHand with none | own | ⟨-, w, work, other, stage, ordinary, -⟩
      · exact .inl (.inl none)
      · exact .inl (.inr own)
      · exact .inr ⟨w, work, other, stage, ordinary⟩
    have deciding (w : Working) (work : s.place.work = some w) (other : w.slot ≠ job.slot) : Deciding s job w := by
      rcases inPlacement with (none | ⟨v, own, slot⟩) | ⟨v, h⟩
      · rw [work] at none; cases none
      · rw [work] at own; cases own; exact absurd slot other
      · have same := h.work
        rw [work] at same; cases same; exact h
    have only := resumeDeciding_onlyPlaced opened inPlacement
    have run := completeHarvest_eq harvesting compositing hjob opened empty occupied read only
    obtain ⟨t, ht⟩ : ∃ t, t = settle false false (resumeDeciding (harvestCommitted job s)) := ⟨_, rfl⟩
    obtain ⟨⟨guide, waiting, comp⟩, ⟨st, work, place⟩, ⟨reg, registration⟩, slots, sweep, attn, motion, store, ctl, config,
      stall⟩ := settle_committed only ht
    have opening : t.reg.opening = if job.strip0 ∧ s.sweepCfg.mode = .ring then
        harvestTable s.sweepCfg s.store (openingColumns (maxOf 0 job.edges)) else s.reg.opening := by
      rw [registration]
      exact if_congr (harvestsOpening_iff ..) rfl rfl
    rw [exec_harvestComplete, run, ← ht]
    refine ⟨t, rfl, by rw [comp]; rfl, by rw [comp]; rfl, by rw [comp]; rfl, by rw [comp]; rfl, by rw [comp]; rfl,
      by rw [comp]; rfl, by rw [comp]; rfl, by rw [comp]; rfl, by rw [comp]; rfl, by rw [comp]; rfl, by rw [comp]; rfl,
      by rw [comp]; rfl, by rw [registration]; rfl, opening, by rw [registration]; rfl, ?_, ?_, by rw [place]; rfl,
      by rw [place]; rfl, ?_, ?_, sweep, attn, motion, store, ctl, config, stall⟩
    · rw [slots]
      exact slotState_freed ..
    · intro j hj
      rw [slots]
      exact slotState_modify_ne _ _ (Ne.symm hj)
    · intro own
      rw [resumeDeciding_of_own own] at ht
      rw [ht, settle_place, settle_reg, settle_guide, settle_waiting, harvestCommitted_place,
        committed_place_of_own (s := harvested job s) own, harvestCommitted_reg, harvestCommitted_comp]
      exact ⟨rfl, rfl, rfl, rfl, rfl⟩
    · intro w work other
      have h := deciding w work other
      refine ⟨h.waits ht, fun lost bare => ?_, fun pose sign kept yaws hsign found => ?_⟩
      · obtain ⟨passed, v, work, ⟨_, _, _, _, _, rfl⟩, search⟩ := h.historyPlaced ht opened lost bare
        exact ⟨passed, _, work, rfl, rfl, rfl, rfl, rfl, rfl, search⟩
      · obtain ⟨passed, v, work, ⟨_, _, _, _, _, rfl⟩, search⟩ := h.columnTaken ht opened kept yaws found
        have sign' : dirSign s.place.direction = sign := (dirSign_eq _).trans hsign.symm
        refine ⟨passed, _, work, rfl, rfl, rfl, rfl, ?_, columnPlaced_shifts sign' rfl, search⟩
        rw [← sign']
        rfl

end Sys2Proof.Machine
end

section
/-! SUPPORT. PREVIEW_UPDATE_COMPLETE and CLOSING_WORK_COMPLETE: what holds an operation of the compositor back, the placement
held during an update and its advance test, with O45 from them (R108, R109, R121 to R123, R159). -/

namespace Sys2Proof.Machine

/-! ## What the end of an operation waits for -/

theorem readsDone_iff (s : State) (unit : EngineUnit) : readsDone s unit = true ↔ readsLeft s unit = [] :=
  List.isEmpty_iff

/-- Of the end requests, every one but FAULT is a commit's (R120). -/
theorem commitRequested_eq_false_iff (s : State) :
    commitRequested s = false ↔ ∀ reason ∈ s.sweep.endRequests, reason = .fault := by
  simp [commitRequested]

/-! ## The advance test of a held placement (R109, R121) -/

section HeldPlacement

variable {s : State} {job : StripJob} {cls : StripClass} {newFront : Int}

/-- Strip 0 advances, and so does a later strip that closes, reaches the extent or goes far enough (R109, R110). -/
theorem advanceTest_eq_beginStrip
    (hcls : (cls, newFront) = classifyStrip s.sweepCfg (stripClean s.comp.clean job) (leastEnd s.sweepCfg job.edges))
    (advances : job.strip0 = true ∨ cls ≠ .normal ∨ (s.sweepCfg.minAdvance : Int) ≤ newFront - s.comp.front) :
    advanceTest job s = beginStrip { job with cls := cls, newFront := newFront, planned := false } s := by
  have goes : stripAdvances s.sweepCfg s.comp.front job.strip0 cls newFront = true := by
    simpa [stripAdvances] using advances
  unfold advanceTest
  rw [← hcls, if_pos goes]

/-- The yaw trim once a pending re-anchor has been applied (R84, R121). -/
def trimReanchored (s : State) : Int :=
  match s.comp.pendingReanchor with
  | none => s.comp.trimYaw
  | some r => reanchorTrim s.sweepCfg s.place.direction s.comp.strips (s.place.originYaw.getD 0) r

theorem applyPending_trimReanchored (s : State) : applyPending s = { s with comp := { s.comp with
    trimYaw := trimReanchored s, pendingReanchor := none } } := applyPending_trim s

/-- The frame that does not advance has left: its slot FREE, no_advance counted, a pending re-anchor applied, and the
compositor and the placement unit READY (R62, R109, R121). -/
def notAdvanced (slot : Nat) (s : State) : State :=
  { s with
    comp := { s.comp with
      state := .ready, waiting := none, job := none, pendingReanchor := none
      trimYaw := trimReanchored s }
    ingest := { s.ingest with slots := s.ingest.slots.modify slot fun x => { x with state := .free } }
    sweep := { s.sweep with counters := { s.sweep.counters with
      noAdvance := holdCount (s.sweep.counters.noAdvance + 1) } }
    place := { s.place with state := .ready, work := none } }

/-- In OPEN, with nothing queued and nothing left to write, that is all that the release changes. -/
theorem advanceTest_eq_notAdvanced (later : job.strip0 = false)
    (hcls : (StripClass.normal, newFront) =
      classifyStrip s.sweepCfg (s.comp.clean.getD 0) (leastEnd s.sweepCfg job.edges))
    (short : newFront - s.comp.front < (s.sweepCfg.minAdvance : Int)) (opened : s.sweep.state = .opened)
    (occupied : slotState s.ingest.slots job.slot ≠ .free) (empty : s.ingest.queue = []) (written : s.comp.todo = []) :
    advanceTest job s = notAdvanced job.slot s := by
  rw [advanceTest_of_noAdvance later hcls rfl short, applyPending_trimReanchored,
    releaseFrame_of_ne _ (by exact occupied) (by simp [opened])]
  simp only [notAdvanced, trimReanchored, countFate, empty, written, List.filter_nil]

end HeldPlacement

/-! ## PREVIEW_UPDATE_COMPLETE (R122, R108) -/

theorem exec_previewUpdateComplete (s : State) :
    exec .previewUpdateComplete s = .next (settle false false (completeUpdate s)) := rfl

/-- The update has ended: the compositor is READY and reads nothing more. -/
def updateEnded (s : State) : State :=
  { dropEngine .compositor s with comp := { s.comp with state := .ready } }

/-- All that the end of an update waits for (R122, R129, log entries 26 and 43). -/
structure UpdateDone (s : State) : Prop where
  updating : s.comp.state = .updating
  running : s.comp.halted = false
  written : s.comp.todo = []
  read : readsLeft s .compositor = []
  faultsOnly : ∀ reason ∈ s.sweep.endRequests, reason = .fault

theorem completeUpdate_of_not_done {s : State} (h : ¬ UpdateDone s) : completeUpdate s = s := by
  refine if_neg fun ⟨updating, running, written, read, request⟩ => h ?_
  exact ⟨updating, running, written, (readsDone_iff ..).mp read, (commitRequested_eq_false_iff s).mp request⟩

namespace UpdateDone

variable {s : State} (h : UpdateDone s)
include h

theorem completeUpdate_eq : completeUpdate s =
    match s.comp.waiting with
    | some job => engineGo takeFuel (advanceTest job (updateEnded s))
    | none => updateEnded s :=
  if_pos ⟨h.updating, h.running, h.written, (readsDone_iff ..).mpr h.read, (commitRequested_eq_false_iff s).mpr h.faultsOnly⟩

theorem completeUpdate_of_none (none : s.comp.waiting = none) : completeUpdate s = updateEnded s := by
  rw [h.completeUpdate_eq, none]

theorem completeUpdate_of_held {job : StripJob} (held : s.comp.waiting = some job) :
    completeUpdate s = engineGo takeFuel (advanceTest job (updateEnded s)) := by
  rw [h.completeUpdate_eq, held]

/-- The held placement advances: its strip begins, and its frame, still ENGAGED, keeps the engine from taking another
(R66, R108). -/
theorem completeUpdate_of_advance {job : StripJob} {cls : StripClass} {newFront : Int} (held : s.comp.waiting = some job)
    (engaged : anySlot s.ingest.slots .engaged = true)
    (hcls : (cls, newFront) = classifyStrip s.sweepCfg (stripClean s.comp.clean job) (leastEnd s.sweepCfg job.edges))
    (advances : job.strip0 = true ∨ cls ≠ .normal ∨ (s.sweepCfg.minAdvance : Int) ≤ newFront - s.comp.front) :
    completeUpdate s = beginStrip { job with cls := cls, newFront := newFront, planned := false } (updateEnded s) := by
  rw [h.completeUpdate_of_held held, advanceTest_eq_beginStrip (s := updateEnded s) hcls advances]
  exact engineGo_of_engaged _ _ engaged

/-- The held placement does not advance: its frame leaves in OPEN, and with nothing queued none is taken after it. -/
theorem completeUpdate_of_noAdvance {job : StripJob} {newFront : Int} (held : s.comp.waiting = some job)
    (opened : s.sweep.state = .opened) (empty : s.ingest.queue = [])
    (occupied : slotState s.ingest.slots job.slot ≠ .free) (later : job.strip0 = false)
    (hcls : classifyStrip s.sweepCfg (s.comp.clean.getD 0) (leastEnd s.sweepCfg job.edges) = (.normal, newFront))
    (short : newFront - s.comp.front < (s.sweepCfg.minAdvance : Int)) :
    completeUpdate s = notAdvanced job.slot (updateEnded s) := by
  rw [h.completeUpdate_of_held held,
    advanceTest_eq_notAdvanced (s := updateEnded s) later hcls.symm short opened occupied empty h.written]
  exact engineGo_of_nil _ _ empty

end UpdateDone

/-! ## CLOSING_WORK_COMPLETE (R123, R16, R159) -/

theorem exec_closingWorkComplete (s : State) :
    exec .closingWorkComplete s = .next (settle false false (completeClosing s)) := rfl

/-- The closing work has ended, up to the test of a stall: the compositor is READY and SWEEP_END raised. -/
def closingEnded (s : State) : State := raiseCause .sweepEnd (updateEnded s)

theorem completeClosing_of_done {s : State} (closing : s.comp.state = .closing) (written : s.comp.todo = [])
    (read : readsLeft s .compositor = []) : completeClosing s = retestStall (closingEnded s) :=
  if_pos ⟨closing, written, (readsDone_iff ..).mpr read⟩

/-- With a word left to read the closing work goes on. -/
theorem completeClosing_of_reads {s : State} (left : readsLeft s .compositor ≠ []) : completeClosing s = s :=
  if_neg fun ⟨_, _, read⟩ => left ((readsDone_iff ..).mp read)

/-- Beside the fetch port and the arbiter, the compositor's state and the cause alone change. -/
theorem retestStall_closingEnded_only (s : State) :
    OnlyFetch { s with
      comp := { s.comp with state := .ready }
      attn := { s.attn with pendingSet := s.attn.pendingSet ||| 2 } } (retestStall (closingEnded s)) :=
  OnlyFetch.trans ⟨_, _, rfl⟩ (retestStall_only _)

/-- Settles O45: an update ends by `UpdateDone` and what its held placement's advance test decides, the closing work by
`completeClosing_of_done` with the stall tested by `settle_retestStall`. -/
theorem previewUpdateAndClosingWorkComplete : Obligations.PreviewUpdateAndClosingWorkComplete := by
  have stays {s : State} (h : ¬ UpdateDone s) : ∃ t, exec .previewUpdateComplete s = .next t ∧ settlesTo s t := by
    rw [exec_previewUpdateComplete, completeUpdate_of_not_done h]
    exact ⟨_, rfl, settle_settlesTo ..⟩
  refine ⟨?_, ?_, ?_, ?_, ?_, ?_⟩
  · intro s updating running written none read faults
    have done : UpdateDone s := ⟨updating, running, written, read, faults⟩
    rw [exec_previewUpdateComplete, done.completeUpdate_of_none none]
    exact ⟨_, rfl, settle_settlesTo ..⟩
  · intro s job cls newFront updating running written held read faults engaged hcls advances
    have done : UpdateDone s := ⟨updating, running, written, read, faults⟩
    rw [exec_previewUpdateComplete, done.completeUpdate_of_advance held engaged hcls advances]
    exact ⟨_, rfl, settle_settlesTo ..⟩
  · intro s job newFront updating running written held read faults opened empty occupied later hcls short
    have done : UpdateDone s := ⟨updating, running, written, read, faults⟩
    rw [exec_previewUpdateComplete, done.completeUpdate_of_noAdvance held opened empty occupied later hcls short]
    exact ⟨_, rfl, settle_settlesTo ..⟩
  · intro s closing written read
    rw [exec_closingWorkComplete, completeClosing_of_done closing written read]
    exact ⟨_, rfl, (retestStall_closingEnded_only s).rest.trans (settle_settlesTo ..).1,
      (settle_retestStall (closingEnded s)).from rfl rfl⟩
  · intro s reason waits commits
    exact stays fun done => commits (done.faultsOnly reason waits)
  · intro s left
    refine ⟨stays fun done => left done.read, ?_⟩
    rw [exec_closingWorkComplete, completeClosing_of_reads left]
    exact ⟨_, rfl, settle_settlesTo ..⟩

end Sys2Proof.Machine
end

section
/-! SUPPORT. MEMORY_BURST_COMPLETE up to the arbiter's next grant: which moves it takes, what a completion keeps of the
service, and which burst is in progress once everything has settled (R131, R132, R142, R143). -/

namespace Sys2Proof.Machine

/-! ## MEMORY_BURST_COMPLETE -/

theorem exec_memoryBurstComplete (move : EngineMove) (e : MemErrors) (s : State) :
    exec (.memoryBurstComplete move e) s = execMemoryBurstComplete move e s := rfl

section Completion

variable {s : State} {burst : InFlight} {move : EngineMove} {e : MemErrors}

/-- The burst in progress can have moved this: of an engine burst, a move within the DRAM that its operation can have made
(R131, R142); the operand is not looked at for the other clients. -/
def Movable (burst : InFlight) (move : EngineMove) (s : State) : Prop :=
  ∀ unit live late areas, burst = .engine unit live late areas →
    moveInDram move = true ∧ moveWellFormed move = true ∧ moveFits unit live late areas move s = true

theorem exec_burst_of_movable (inProgress : s.arb.inProgress = some burst) (movable : Movable burst move s) :
    exec (.memoryBurstComplete move e) s = .next (settle false true (completeBurst burst move e s)) := by
  rw [exec_memoryBurstComplete, execMemoryBurstComplete, inProgress]
  cases burst with
  | engine unit live late areas =>
    obtain ⟨dram, formed, fits⟩ := movable unit live late areas rfl
    simp only [dram, formed, fits, Bool.and_self, if_true]
  | ingest | fetch | selfTest => rfl

theorem movable_ingest (b : IngestBurst) (live : Bool) : Movable (.ingest b live) move s := nofun

theorem exec_burst_of_unfit {unit : EngineUnit} {live : Bool} {late : List WriteUnit} {areas : List MoveArea}
    (inProgress : s.arb.inProgress = some (.engine unit live late areas)) (dram : moveInDram move = true)
    (unfit : moveFits unit live late areas move s = false) : exec (.memoryBurstComplete move e) s = .next s := by
  simp only [exec_memoryBurstComplete, execMemoryBurstComplete, inProgress, dram, unfit, Bool.and_false, if_true,
    Bool.false_eq_true, if_false]

theorem exec_burst_outsideDram {unit : EngineUnit} {live : Bool} {late : List WriteUnit} {areas : List MoveArea}
    (inProgress : s.arb.inProgress = some (.engine unit live late areas)) (beyond : moveInDram move = false) :
    exec (.memoryBurstComplete move e) s = .fault .outsideDram := by
  simp only [exec_memoryBurstComplete, execMemoryBurstComplete, inProgress, beyond, Bool.false_eq_true, if_false]

end Completion

/-! ## What a completion keeps of the service -/

/-- From `s` to `t` no burst comes in progress, and the ingest unit's request, the last-served mark, the sweep's state
and its configuration stay. -/
structure KeepsService (s t : State) : Prop where
  free : s.arb.inProgress = none → t.arb.inProgress = none
  ingestWait : t.arb.ingestWait = s.arb.ingestWait
  lastServed : t.arb.lastServed = s.arb.lastServed
  sweepState : t.sweep.state = s.sweep.state
  sweepCfg : t.sweepCfg = s.sweepCfg

theorem KeepsService.of_arb {s t : State} (arb : t.arb = s.arb) (state : t.sweep.state = s.sweep.state)
    (cfg : t.sweepCfg = s.sweepCfg) : KeepsService s t :=
  ⟨fun h => arb ▸ h, arb ▸ rfl, arb ▸ rfl, state, cfg⟩

theorem KeepsService.refl (s : State) : KeepsService s s := .of_arb rfl rfl rfl

theorem KeepsService.trans {s t u : State} (h : KeepsService s t) (k : KeepsService t u) : KeepsService s u :=
  ⟨k.free ∘ h.free, k.ingestWait.trans h.ingestWait, k.lastServed.trans h.lastServed, k.sweepState.trans h.sweepState,
    k.sweepCfg.trans h.sweepCfg⟩

/-- A turn to OPENING changes the registration unit alone (R89 to R91). -/
theorem turnToOpening_eq (s : State) : turnToOpening s = { s with reg := (turnToOpening s).reg } := by
  unfold turnToOpening
  repeat' split
  all_goals rfl

theorem turnToOpening_keepsService (s : State) : KeepsService s (turnToOpening s) := by
  rw [turnToOpening_eq]
  exact .of_arb rfl rfl rfl

theorem countRead_keepsService (unit : EngineUnit) (words : List Nat) (s : State) :
    KeepsService s (countRead unit words s) := by
  cases unit <;> exact ⟨id, rfl, rfl, rfl, rfl⟩

theorem dropEngine_keepsService (unit : EngineUnit) (s : State) : KeepsService s (dropEngine unit s) :=
  ⟨fun free => by simp [dropEngine, free], rfl, rfl, rfl, rfl⟩

theorem dropFetch_keepsService (r : Requester) (s : State) : KeepsService s (dropFetch r s) :=
  ⟨fun free => by simp [dropFetch, free], rfl, rfl, rfl, rfl⟩

theorem reportFault_keepsService (s : State) : KeepsService s (reportFault s) := .of_arb rfl rfl rfl

theorem dropStrip_keepsService (s : State) : KeepsService s (dropStrip s) :=
  (dropEngine_keepsService .compositor s).trans (.of_arb rfl rfl rfl)

theorem faultRegistration_keepsService (s : State) : KeepsService s (faultRegistration s) := by
  have reported : KeepsService s (reportFault (dropEngine .registration s)) :=
    (dropEngine_keepsService ..).trans (reportFault_keepsService _)
  unfold faultRegistration
  dsimp only
  split
  · refine KeepsService.trans ?_ (dropStrip_keepsService _)
    exact reported.trans (.of_arb rfl rfl rfl)
  · exact reported.trans (.of_arb rfl rfl rfl)
  · exact reported

theorem faultCompositor_keepsService (addr len : Nat) (s : State) : KeepsService s (faultCompositor addr len s) := by
  have reported := reportFault_keepsService s
  unfold faultCompositor
  dsimp only
  split
  · exact reported.trans (dropStrip_keepsService _)
  · exact reported.trans (dropStrip_keepsService _)
  · exact (reported.trans (dropEngine_keepsService .compositor _)).trans (.of_arb rfl rfl rfl)
  · exact reported.trans (.of_arb rfl rfl rfl)
  · exact reported

theorem completeEngineRead_keepsService (unit : EngineUnit) (addr len : Nat) (e : MemErrors) (s : State) :
    KeepsService s (completeEngineRead unit addr len e s) := by
  cases unit with
  | registration =>
    have turned := turnToOpening_keepsService s
    have read := (turned.trans (countRead_keepsService .registration (touchedWords addr len) _)).trans
      (.of_arb (checkWords_arb _ (touchedWords addr len) e) rfl rfl)
    unfold completeEngineRead
    dsimp only
    split
    · exact read
    · exact read.trans (faultRegistration_keepsService _)
  | compositor =>
    have read := (countRead_keepsService .compositor (touchedWords addr len) s).trans
      (.of_arb (checkWords_arb _ (touchedWords addr len) e) rfl rfl)
    unfold completeEngineRead
    dsimp only
    split
    · exact read
    · exact read.trans (faultCompositor_keepsService ..)

theorem completeEngineWrite_keepsService (addr len : Nat) (e : MemErrors) (s : State) :
    KeepsService s (completeEngineWrite addr len e s) := by
  have written (units done left : List WriteUnit) : KeepsService s (finishUnits done left (writePixels units e s)) :=
    .of_arb rfl rfl rfl
  unfold completeEngineWrite
  dsimp only
  repeat' split
  · exact written ..
  · exact (written ..).trans (reportFault_keepsService _)
  all_goals exact (written ..).trans (faultCompositor_keepsService ..)

theorem completeEngine_keepsService (unit : EngineUnit) (live : Bool) (late : List WriteUnit) (move : EngineMove)
    (e : MemErrors) (s : State) : KeepsService s (completeEngine unit live late move e s) := by
  unfold completeEngine completeLate
  repeat' split
  · exact completeEngineRead_keepsService ..
  · exact completeEngineWrite_keepsService ..
  · exact .refl s
  · exact .of_arb rfl rfl rfl
  · exact .of_arb rfl rfl rfl

theorem completeFetch_keepsService (b : FetchRead) (data : List Byte) (live : Bool) (e : MemErrors) (s : State) :
    KeepsService s (completeFetch b data live e s) := by
  have checked : KeepsService s (checkWords (touchedWords b.addr b.len) e s) := .of_arb rfl rfl rfl
  unfold completeFetch fetchData fetchError postData endWith
  dsimp only
  repeat' split
  · exact checked
  · exact checked.trans (.of_arb (setSide_arb ..) (by rw [setSide_sweep]) (setSide_sweepCfg ..))
  · exact checked.trans (.of_arb (setSide_arb ..) (by rw [setSide_sweep]) (setSide_sweepCfg ..))
  · exact checked
  · exact (checked.trans (dropFetch_keepsService ..)).trans
      (.of_arb (setSide_arb ..) (by rw [setSide_sweep]) (setSide_sweepCfg ..))
  · exact checked

theorem completeIngest_keepsService (b : IngestBurst) (live : Bool) (s : State) :
    KeepsService s (completeIngest b live s) := by
  unfold completeIngest lineWritten
  dsimp only
  repeat' split
  all_goals exact .of_arb rfl rfl rfl

theorem completeSelf_keepsService (b : SelfBurst) (live : Bool) (e : MemErrors) (s : State) :
    KeepsService s (completeSelf b live e s) := by
  unfold completeSelf
  dsimp only
  repeat' split
  all_goals exact ⟨id, rfl, rfl, rfl, rfl⟩

/-- The burst in progress has ended, and nothing has come of it yet. -/
def memoryFreed (s : State) : State := { s with arb := { s.arb with inProgress := none } }

/-- A completed burst leaves the memory free, and the service as it was (R142, R143). -/
theorem completeBurst_keepsService (burst : InFlight) (move : EngineMove) (e : MemErrors) (s : State) :
    KeepsService (memoryFreed s) (completeBurst burst move e s) := by
  unfold completeBurst
  dsimp only
  split
  · exact completeIngest_keepsService ..
  · exact completeEngine_keepsService ..
  · exact completeFetch_keepsService ..
  · exact completeSelf_keepsService ..

/-! ## The requests then waiting -/

/-- The state in which the arbiter grants at a completion: a strip prepared, the reads planned, and the engine's request
withdrawn if its unit has nothing more to move. -/
def requestsStanding (s : State) : State := engineWithdraw (planReads (prepareStrip s))

theorem prepareStrip_arb (s : State) : (prepareStrip s).arb = s.arb := by
  unfold prepareStrip
  repeat' split
  all_goals rfl

theorem engineWithdraw_eq (s : State) : engineWithdraw s =
    { s with arb := { s.arb with engineWait := s.arb.engineWait.filter (unitWants s) } } := by
  unfold engineWithdraw
  split
  · rename_i unit waits
    by_cases wants : unitWants s unit = true
    · rw [if_pos wants, waits, Option.filter_some_pos wants, ← waits]
    · rw [if_neg wants, waits, Option.filter_some_neg (by simpa using wants)]
  · rename_i waits
    rw [waits, Option.filter_none, ← waits]

theorem requestsStanding_arb (s : State) : (requestsStanding s).arb = { s.arb with
    engineWait := s.arb.engineWait.filter (unitWants (planReads (prepareStrip s)))
    regReads := plannedReads (prepareStrip s) .registration
    compReads := plannedReads (prepareStrip s) .compositor } := by
  rw [requestsStanding, engineWithdraw_eq]
  simp only [planReads, prepareStrip_arb]

theorem requestsStanding_only (s : State) : OnlyPort s (requestsStanding s) :=
  ((prepareStrip_only s).trans (planReads_only _)).trans (engineWithdraw_only _)

theorem requestsStanding_config (s : State) : (requestsStanding s).config = s.config := by
  obtain ⟨_, _, _, _, _, _, _, port⟩ := requestsStanding_only s
  rw [port]

theorem requestsStanding_store (s : State) : (requestsStanding s).store = s.store := by
  obtain ⟨_, _, _, _, _, _, _, port⟩ := requestsStanding_only s
  rw [port]

theorem requestsStanding_keepsService (s : State) : KeepsService s (requestsStanding s) := by
  obtain ⟨_, _, _, _, _, _, _, port⟩ := requestsStanding_only s
  refine ⟨?_, ?_, ?_, by rw [port], by rw [port]⟩ <;> rw [requestsStanding_arb]
  · exact id

/-! ## The burst in progress once everything has settled -/

/-- At most the clients' requests and the engine's turn differ. -/
def OnlyAsked (a b : Arbiter) : Prop :=
  ∃ ingest engine fetch self turn, b = { a with
    ingestWait := ingest, engineWait := engine, fetchWait := fetch, selfWait := self, engineTurn := turn }

theorem OnlyAsked.refl (a : Arbiter) : OnlyAsked a a := ⟨_, _, _, _, _, rfl⟩

theorem OnlyAsked.trans {a b c : Arbiter} : OnlyAsked a b → OnlyAsked b c → OnlyAsked a c := by
  rintro ⟨_, _, _, _, _, rfl⟩ ⟨_, _, _, _, _, rfl⟩
  exact ⟨_, _, _, _, _, rfl⟩

theorem askAll_asked (s : State) : OnlyAsked s.arb (askAll s).arb := by
  have ingest (x : State) : OnlyAsked x.arb (ingestAsk x).arb := by
    unfold ingestAsk; repeat' split
    all_goals exact ⟨_, _, _, _, _, rfl⟩
  have engine (x : State) : OnlyAsked x.arb (engineAsk x).arb := by
    unfold engineAsk; repeat' split
    all_goals exact ⟨_, _, _, _, _, rfl⟩
  have fetch (x : State) : OnlyAsked x.arb (fetchAskNext x).arb := by
    unfold fetchAskNext; repeat' split
    · exact .refl _
    · rw [fetchAsk_arb]; exact ⟨_, _, _, _, _, rfl⟩
    · rw [fetchAsk_arb]; exact ⟨_, _, _, _, _, rfl⟩
    · exact .refl _
  have self (x : State) : OnlyAsked x.arb (selfAsk x).arb := by
    unfold selfAsk; repeat' split
    all_goals exact ⟨_, _, _, _, _, rfl⟩
  exact (((ingest s).trans (engine _)).trans (fetch _)).trans (self _)

theorem grantArrived_of_busy {s : State} (busy : s.arb.inProgress.isSome = true) : grantArrived s = s := if_pos busy

/-- A burst in progress stays, with the mark of who was last served, while the clients ask (R142, R143). -/
theorem settle_keeps_burst {s : State} {burst : InFlight} (b : Bool) (busy : s.arb.inProgress = some burst) :
    (askAll (grantArrived (askAll (settleBus b s)))).arb.inProgress = some burst ∧
      (askAll (grantArrived (askAll (settleBus b s)))).arb.lastServed = s.arb.lastServed := by
  obtain ⟨_, _, _, _, _, asked⟩ := askAll_asked (settleBus b s)
  rw [settleBus_arb] at asked
  have busy' : (askAll (settleBus b s)).arb.inProgress = some burst := by rw [asked]; exact busy
  obtain ⟨_, _, _, _, _, again⟩ := askAll_asked (askAll (settleBus b s))
  rw [grantArrived_of_busy (by rw [busy', Option.isSome_some]), again]
  exact ⟨busy', by rw [asked]⟩

theorem grantWaiting_of_choice {s : State} {c : Client} (free : s.arb.inProgress = none)
    (choice : arbiterChoice s = some c) : grantWaiting s = grantClient c s := by
  simp [grantWaiting, free, choice]

/-- At a completion the burst put in progress is that of the client chosen among the requests then waiting, and it stays
(R142, R143). -/
theorem settle_grants {s : State} {c : Client} {burst : InFlight} (b : Bool) (free : s.arb.inProgress = none)
    (choice : arbiterChoice (requestsStanding s) = some c)
    (granted : (grantClient c (requestsStanding s)).arb.inProgress = some burst) :
    (settle b true s).arb.inProgress = some burst ∧
      (settle b true s).arb.lastServed = (grantClient c (requestsStanding s)).arb.lastServed := by
  rw [settle, if_pos rfl]
  change (askAll (grantArrived (askAll (settleBus b (grantWaiting (requestsStanding s)))))).arb.inProgress = _ ∧
    (askAll (grantArrived (askAll (settleBus b (grantWaiting (requestsStanding s)))))).arb.lastServed = _
  rw [grantWaiting_of_choice ((requestsStanding_keepsService s).free free) choice]
  exact settle_keeps_burst b granted

end Sys2Proof.Machine
end

section
/-! SUPPORT. The arbiter's choice by state and service order, at arrivals and at a completion, and the engine's request
behind a burst of the ingest unit, with O50 from them (R132, R142, R143). -/

namespace Sys2Proof.Machine

/-! ## The choice among the waiting requests (R132, R143) -/

theorem engineOrFetch_eq (order : ServiceOrder) (mark : LastServed) :
    engineOrFetch order mark = if order = .fixed ∨ mark = .engine then .fetch else .engine := by
  cases order <;> cases mark <;> rfl

theorem arbiterChoice_of_test {s : State} (test : s.sweep.state = .test) (c : Client) :
    arbiterChoice s = some c ↔ c = .selfTest ∧ s.arb.selfWait.isSome = true := by
  by_cases asked : s.arb.selfWait.isSome = true <;> simp [arbiterChoice, test, waits, asked, eq_comm]

section Running

variable {s : State} (init : s.sweep.state ≠ .init) (test : s.sweep.state ≠ .test)
include init test

theorem arbiterChoice_of_running : arbiterChoice s =
    if s.arb.ingestWait.isSome then some .ingest
    else if s.arb.engineWait.isSome && s.arb.fetchWait.isSome then
      some (engineOrFetch s.config.serviceOrder s.arb.lastServed)
    else if s.arb.engineWait.isSome then some .engine
    else if s.arb.fetchWait.isSome then some .fetch
    else none := by
  unfold arbiterChoice
  split
  · contradiction
  · contradiction
  all_goals rfl

theorem arbiterChoice_ingest (ingest : s.arb.ingestWait.isSome = true) : arbiterChoice s = some .ingest := by
  rw [arbiterChoice_of_running init test, if_pos ingest]

theorem arbiterChoice_both (ingest : s.arb.ingestWait = none) (engine : s.arb.engineWait.isSome = true)
    (fetch : s.arb.fetchWait.isSome = true) : arbiterChoice s =
      some (if s.config.serviceOrder = .fixed ∨ s.arb.lastServed = .engine then .fetch else .engine) := by
  simp [arbiterChoice_of_running init test, ingest, engine, fetch, engineOrFetch_eq]

theorem arbiterChoice_engine (ingest : s.arb.ingestWait = none) (engine : s.arb.engineWait.isSome = true)
    (fetch : s.arb.fetchWait = none) : arbiterChoice s = some .engine := by
  simp [arbiterChoice_of_running init test, ingest, engine, fetch]

theorem arbiterChoice_fetch (ingest : s.arb.ingestWait = none) (engine : s.arb.engineWait = none)
    (fetch : s.arb.fetchWait.isSome = true) : arbiterChoice s = some .fetch := by
  simp [arbiterChoice_of_running init test, ingest, engine, fetch]

/-- The fetch port goes first under FIXED and when the engine was last served (R143). -/
theorem arbiterChoice_fetch_first (ingest : s.arb.ingestWait = none) (fetch : s.arb.fetchWait.isSome = true)
    (first : s.arb.engineWait = none ∨ s.config.serviceOrder = .fixed ∨ s.arb.lastServed = .engine) :
    arbiterChoice s = some .fetch := by
  rcases first with none | order
  · exact arbiterChoice_fetch init test ingest none fetch
  · cases engine : s.arb.engineWait with
    | none => exact arbiterChoice_fetch init test ingest engine fetch
    | some unit => rw [arbiterChoice_both init test ingest (by rw [engine]; rfl) fetch, if_pos order]

/-- The engine goes first under ROTATE when the fetch port was last served (R143). -/
theorem arbiterChoice_engine_first (ingest : s.arb.ingestWait = none) (engine : s.arb.engineWait.isSome = true)
    (first : s.arb.fetchWait = none ∨ (s.config.serviceOrder = .rotate ∧ s.arb.lastServed = .fetch)) :
    arbiterChoice s = some .engine := by
  rcases first with none | ⟨rotate, mark⟩
  · exact arbiterChoice_engine init test ingest engine none
  · cases fetch : s.arb.fetchWait with
    | none => exact arbiterChoice_engine init test ingest engine fetch
    | some b => simp [arbiterChoice_both init test ingest engine (by rw [fetch]; rfl), rotate, mark]

end Running

/-! ## What a grant puts in progress (R143) -/

section Grants

variable {s : State}

theorem grantClient_ingest {b : IngestBurst} (ingest : s.arb.ingestWait = some b) : grantClient .ingest s =
    { s with arb := { s.arb with ingestWait := none, inProgress := some (.ingest b true) } } := by
  simp only [grantClient, ingest]

theorem grantClient_engine {unit : EngineUnit} (engine : s.arb.engineWait = some unit) : grantClient .engine s =
    { s with arb := { s.arb with
      engineWait := none, inProgress := some (.engine unit true [] (engineAreas s unit)), lastServed := .engine } } := by
  simp only [grantClient, engine]

theorem grantClient_fetch_eq {b : FetchRead} (fetch : s.arb.fetchWait = some b) : grantClient .fetch s =
    { s with arb := { s.arb with
      fetchWait := none, inProgress := some (.fetch b (fetchBytes s.sweepCfg s.store b) true), lastServed := .fetch } } := by
  simp only [grantClient, fetch]

theorem grantClient_selfTest {b : SelfBurst} (self : s.arb.selfWait = some b) : grantClient .selfTest s =
    { s with arb := { s.arb with selfWait := none, inProgress := some (.selfTest b true) } } := by
  simp only [grantClient, self]

theorem grantClient_ingest_lastServed : (grantClient .ingest s).arb.lastServed = s.arb.lastServed := by
  unfold grantClient; dsimp only; split <;> rfl

theorem grantClient_selfTest_lastServed : (grantClient .selfTest s).arb.lastServed = s.arb.lastServed := by
  unfold grantClient; dsimp only; split <;> rfl

end Grants

/-! ## Arrivals at a free memory (R142) -/

theorem mem_arrivedClients (s : State) (c : Client) :
    c ∈ arrivedClients s ↔ waits s.arb c = true ∧ s.sweep.state ≠ .init ∧ (c = .selfTest ↔ s.sweep.state = .test) := by
  unfold arrivedClients
  split <;> rename_i state <;> rw [state] <;> cases c <;> simp

theorem arrivedClients_nodup (s : State) : (arrivedClients s).Nodup := by
  unfold arrivedClients
  split
  · exact List.nodup_nil
  all_goals exact List.Nodup.filter _ (by decide)

/-- Of several that arrive together one is chosen. -/
theorem exists_arrivalChoice : ∀ (i : Nat) (c : Client) (rest : List Client),
    ∃ d ∈ c :: rest, arrivalChoice i (c :: rest) = some d
  | i, c, [] => ⟨c, List.mem_singleton_self c, rfl⟩
  | i, c, d :: rest => by
    obtain ⟨x, mem, chosen⟩ := exists_arrivalChoice (i + 1) d rest
    by_cases first : Config.firstTaken i = true
    · exact ⟨c, List.mem_cons_self .., by rw [arrivalChoice, if_pos first]; simp⟩
    · exact ⟨x, List.mem_cons_of_mem c mem, by rw [arrivalChoice, if_neg first, chosen]; simp⟩

section Arrivals

variable {s : State} (free : s.arb.inProgress = none)

theorem grantArrived_of_none (none : arrivedClients s = []) : grantArrived s = s := by
  simp [grantArrived, none]

include free

theorem grantArrived_of_single {c : Client} (single : arrivedClients s = [c]) : grantArrived s = grantClient c s := by
  simp [grantArrived, free, single]

theorem grantArrived_of_several {c d : Client} {rest : List Client} (several : arrivedClients s = c :: d :: rest) :
    ∃ x ∈ arrivedClients s, grantArrived s = grantClient x { s with freeIndex := s.freeIndex + 2 } := by
  obtain ⟨x, mem, chosen⟩ := exists_arrivalChoice s.freeIndex c (d :: rest)
  exact ⟨x, several ▸ mem, by simp [grantArrived, free, several, chosen]⟩

theorem grantArrived_of_only {c : Client} (arrived : c ∈ arrivedClients s) (only : ∀ d ∈ arrivedClients s, d = c) :
    grantArrived s = grantClient c s := by
  have single : arrivedClients s = [c] :=
    List.perm_singleton.mp ((List.perm_ext_iff_of_nodup (arrivedClients_nodup s) (List.nodup_singleton c)).mpr fun d => by
      rw [List.mem_singleton]
      exact ⟨only d, fun h => h ▸ arrived⟩)
  exact grantArrived_of_single free single

/-- One of those that have arrived is granted, and no other (R142, log entry 7). -/
theorem exists_grantArrived {c : Client} (arrived : c ∈ arrivedClients s) :
    ∃ d n, d ∈ arrivedClients s ∧ grantArrived s = grantClient d { s with freeIndex := n } := by
  match clients : arrivedClients s with
  | [] => rw [clients] at arrived; cases arrived
  | [d] => exact ⟨d, s.freeIndex, List.mem_singleton_self d, grantArrived_of_single free clients⟩
  | d :: d' :: rest =>
    obtain ⟨x, mem, granted⟩ := grantArrived_of_several free clients
    exact ⟨x, _, clients ▸ mem, granted⟩

end Arrivals

/-! ## The engine's request behind a burst of the ingest unit -/

/-- The engine's operations are the same in `s` and `t`, and no line written in `s` is missing in `t`. -/
structure SameOperations (s t : State) : Prop where
  sweepCfg : t.sweepCfg = s.sweepCfg
  place : t.place = s.place
  reg : t.reg = s.reg
  comp : t.comp = s.comp
  coverage : t.store.coverage = s.store.coverage
  reads : readsAs s t
  lines : ∀ i, (slotInfo s.ingest.slots i).linesWritten ≤ (slotInfo t.ingest.slots i).linesWritten

theorem linesWritten_le_countLine (l : BufferedLine) (slots : List Slot) (i : Nat) :
    (slotInfo slots i).linesWritten ≤ (slotInfo (countLine l slots) i).linesWritten := by
  unfold slotInfo countLine
  rw [List.getElem?_modify]
  cases slots[i]? with
  | none => exact le_rfl
  | some slot =>
    by_cases here : l.slot = i
    · by_cases next : slot.info.linesWritten = l.line <;> simp [here, next]
    · simp [here]

theorem completeIngest_sameOperations (b : IngestBurst) (live : Bool) (s : State) :
    SameOperations s (completeIngest b live s) := by
  unfold completeIngest lineWritten
  dsimp only
  repeat' split
  · exact ⟨rfl, rfl, rfl, rfl, rfl, .refl _, linesWritten_le_countLine _ _⟩
  · exact ⟨rfl, rfl, rfl, rfl, rfl, .refl _, fun _ => le_rfl⟩
  · exact ⟨rfl, rfl, rfl, rfl, rfl, .refl _, fun _ => le_rfl⟩

/-- A completed burst of the ingest unit leaves the other clients' requests and the service order (R142, R143). -/
theorem completeIngest_requests (b : IngestBurst) (live : Bool) (s : State) :
    (completeIngest b live s).arb = s.arb ∧ (completeIngest b live s).config = s.config := by
  unfold completeIngest lineWritten
  dsimp only
  repeat' split
  all_goals exact ⟨rfl, rfl⟩

/-- The preparation of a strip changes what the seam choice adds to its job, and the pixels to write (R111 to R117). -/
theorem prepareStrip_eq (s : State) : ∃ job todo,
    prepareStrip s = { s with comp := { s.comp with job := job, todo := todo } } ∧
      job.map jobPlacement = s.comp.job.map jobPlacement := by
  unfold prepareStrip
  split
  · rename_i job _ held
    split
    · exact ⟨_, _, rfl, rfl⟩
    · exact ⟨_, _, rfl, by rw [held]; rfl⟩
  · exact ⟨_, _, rfl, rfl⟩

/-- A compositor on an operation has no strip to prepare. -/
theorem prepareStrip_of_operates {s : State} (on : operates s .compositor = true) : prepareStrip s = s := by
  unfold prepareStrip
  split
  · rename_i job state held
    have planned : job.planned = true := by simpa [operates, state, held] using on
    rw [planned, Bool.true_or, if_pos rfl]
  · rfl

theorem operates_prepareStrip {s : State} {unit : EngineUnit} (on : operates s unit = true) :
    operates (prepareStrip s) unit = true := by
  cases unit with
  | registration =>
    obtain ⟨_, _, prepared, _⟩ := prepareStrip_eq s
    rw [prepared]
    exact on
  | compositor => rwa [prepareStrip_of_operates on]

/-- A unit goes on with what it has left to read of its operation (R142). -/
theorem readsLeft_planReads {s : State} {unit : EngineUnit} (on : operates s unit = true)
    (planned : engineReads s.arb unit ≠ none) : readsLeft (planReads s) unit = readsLeft s unit := by
  obtain ⟨left, reads⟩ := Option.ne_none_iff_exists'.mp planned
  have kept : plannedReads s unit = some left := by simp only [plannedReads, on, reads, if_true]
  rw [readsLeft, readsLeft, reads]
  cases unit <;> exact congrArg (·.getD []) kept

theorem eligible_congr {cfg : Configuration} {store store' : CanvasStore} (coverage : store'.coverage = store.coverage) :
    eligible cfg store' = eligible cfg store := by
  funext k x
  rw [eligible, eligible, coverage]

theorem harvestWords_congr {cfg : Configuration} {store store' : CanvasStore}
    (coverage : store'.coverage = store.coverage) : harvestWords cfg store' = harvestWords cfg store := by
  funext columns
  rw [harvestWords, harvestWords, eligible_congr coverage]

theorem harvestAreas_congr {cfg : Configuration} {store store' : CanvasStore}
    (coverage : store'.coverage = store.coverage) : harvestAreas cfg store' = harvestAreas cfg store := by
  funext columns
  rw [harvestAreas, harvestAreas, eligible_congr coverage]

/-- What the harvest takes of a job, the seam choice does not change (R89 to R91). -/
theorem harvestFields_of_placement {job job' : StripJob} (same : jobPlacement job' = jobPlacement job) :
    job'.strip0 = job.strip0 ∧ job'.newFront = job.newFront ∧ job'.edges = job.edges :=
  have part {α : Type} (f : StripJob → α) : f (jobPlacement job') = f (jobPlacement job) := congrArg f same
  ⟨part StripJob.strip0, part StripJob.newFront, part StripJob.edges⟩

/-- Which table a harvest is at does not depend on the seam choice (R91). -/
theorem onOpening_congr {s t : State} {job job' : StripJob} (cfg : t.sweepCfg = s.sweepCfg)
    (coverage : t.store.coverage = s.store.coverage) (reads : readsLeft t .registration = readsLeft s .registration)
    (placement : jobPlacement job' = jobPlacement job) : onOpening t job' = onOpening s job := by
  obtain ⟨strip0, newFront, -⟩ := harvestFields_of_placement placement
  simp only [onOpening, harvestsOpening, leadWords, cfg, reads, harvestWords_congr coverage, strip0, newFront]

/-- The areas that the registration unit reads do not depend on the seam choice or on the bytes stored (R91, R105). -/
theorem engineAreas_registration_congr {s t : State} (cfg : t.sweepCfg = s.sweepCfg) (place : t.place = s.place)
    (reg : t.reg = s.reg) (coverage : t.store.coverage = s.store.coverage)
    (reads : readsLeft t .registration = readsLeft s .registration)
    (placement : t.comp.job.map jobPlacement = s.comp.job.map jobPlacement) :
    engineAreas t .registration = engineAreas s .registration := by
  simp only [engineAreas, reg, place, cfg, harvestAreas_congr coverage]
  cases old : s.comp.job with
  | none =>
    rw [old, Option.map_none, Option.map_eq_none_iff] at placement
    rw [placement]
  | some job =>
    rw [old, Option.map_some, Option.map_eq_some_iff] at placement
    obtain ⟨job', new, same⟩ := placement
    obtain ⟨-, newFront, edges⟩ := harvestFields_of_placement same
    simp only [new, onOpening_congr cfg coverage reads same, newFront, edges]

/-- More lines written do not end what the registration unit has to ask for (R57, R142). -/
theorem unitWants_registration_mono {s t : State} (cfg : t.sweepCfg = s.sweepCfg) (place : t.place = s.place)
    (reg : t.reg = s.reg) (reads : readsLeft t .registration = readsLeft s .registration)
    (lines : ∀ i, (slotInfo s.ingest.slots i).linesWritten ≤ (slotInfo t.ingest.slots i).linesWritten)
    (wants : unitWants s .registration = true) : unitWants t .registration = true := by
  have ready : workLinesReady s = true → workLinesReady t = true := by
    unfold workLinesReady
    rw [place]
    split
    · rename_i w _
      simp only [linesReady, decide_eq_true_eq, cfg]
      exact fun h => h.trans (lines w.slot)
    · exact id
  simp only [unitWants, readsDone, reg, reads] at wants ⊢
  split at wants
  · rw [Bool.and_eq_true] at wants ⊢
    exact ⟨ready wants.1, wants.2⟩
  · exact wants
  · exact wants

namespace SameOperations

variable {s t : State} (h : SameOperations s t)
include h

theorem operates_eq (unit : EngineUnit) : operates t unit = operates s unit := by
  cases unit <;> simp only [operates, h.reg, h.comp]

theorem engineReads_eq (unit : EngineUnit) : engineReads t.arb unit = engineReads s.arb unit := by
  cases unit
  · exact h.reads.1
  · exact h.reads.2

/-- What a unit has left to read stays left while everything settles (R142). -/
theorem readsLeft_standing {unit : EngineUnit} (planned : engineReads s.arb unit ≠ none) (on : operates s unit = true) :
    readsLeft (planReads (prepareStrip t)) unit = readsLeft s unit := by
  have reads : engineReads (prepareStrip t).arb unit = engineReads s.arb unit := by
    rw [prepareStrip_arb, h.engineReads_eq]
  rw [readsLeft_planReads (operates_prepareStrip ((h.operates_eq unit).trans on)) (reads ▸ planned), readsLeft, reads,
    readsLeft]

theorem unitWants_standing {unit : EngineUnit} (wants : unitWants s unit = true) (planned : engineReads s.arb unit ≠ none)
    (on : operates s unit = true) : unitWants (planReads (prepareStrip t)) unit = true := by
  have reads := h.readsLeft_standing planned on
  cases unit with
  | registration =>
    obtain ⟨_, _, prepared, _⟩ := prepareStrip_eq t
    rw [prepared] at reads ⊢
    exact unitWants_registration_mono h.sweepCfg h.place h.reg reads h.lines wants
  | compositor =>
    rw [prepareStrip_of_operates ((h.operates_eq _).trans on)] at reads ⊢
    have comp : (planReads t).comp = s.comp := h.comp
    simpa only [unitWants, readsDone, reads, comp] using wants

theorem engineAreas_standing {unit : EngineUnit} (planned : engineReads s.arb unit ≠ none) (on : operates s unit = true) :
    engineAreas (requestsStanding t) unit = engineAreas s unit := by
  have reads := h.readsLeft_standing planned on
  rw [requestsStanding, engineWithdraw_eq]
  cases unit with
  | registration =>
    obtain ⟨_, _, prepared, placement⟩ := prepareStrip_eq t
    rw [prepared] at reads ⊢
    exact engineAreas_registration_congr h.sweepCfg h.place h.reg h.coverage reads (placement.trans (by rw [h.comp]))
  | compositor =>
    rw [prepareStrip_of_operates ((h.operates_eq _).trans on)]
    simp only [engineAreas, planReads, h.comp, h.sweepCfg]

/-- A waiting request of an engine unit that has words to read or pixels to write stands (R142). -/
theorem request_standing {unit : EngineUnit} (waiting : t.arb.engineWait = some unit) (wants : unitWants s unit = true)
    (planned : engineReads s.arb unit ≠ none) (on : operates s unit = true) :
    (requestsStanding t).arb.engineWait = some unit := by
  rw [requestsStanding_arb, waiting]
  exact Option.filter_some_pos (h.unitWants_standing wants planned on)

end SameOperations

/-! ## What a completion puts in progress (R142, R143) -/

section CompletionGrants

variable {s : State} (bus : Bool) (free : s.arb.inProgress = none)
include free

theorem settle_grants_ingest {b : IngestBurst} (choice : arbiterChoice (requestsStanding s) = some .ingest)
    (ingest : (requestsStanding s).arb.ingestWait = some b) :
    (settle bus true s).arb.inProgress = some (.ingest b true) ∧
      (settle bus true s).arb.lastServed = s.arb.lastServed := by
  obtain ⟨burst, served⟩ := settle_grants bus free choice (by rw [grantClient_ingest ingest])
  exact ⟨burst, served.trans (grantClient_ingest_lastServed.trans (requestsStanding_keepsService s).lastServed)⟩

theorem settle_grants_engine {unit : EngineUnit} (choice : arbiterChoice (requestsStanding s) = some .engine)
    (engine : (requestsStanding s).arb.engineWait = some unit) :
    (settle bus true s).arb.inProgress = some (.engine unit true [] (engineAreas (requestsStanding s) unit)) ∧
      (settle bus true s).arb.lastServed = .engine := by
  obtain ⟨burst, served⟩ := settle_grants bus free choice (by rw [grantClient_engine engine])
  exact ⟨burst, served.trans (by rw [grantClient_engine engine])⟩

theorem settle_grants_fetch {b : FetchRead} (choice : arbiterChoice (requestsStanding s) = some .fetch)
    (fetch : (requestsStanding s).arb.fetchWait = some b) :
    (settle bus true s).arb.inProgress = some (.fetch b (fetchBytes s.sweepCfg (settle bus true s).store b) true) ∧
      (settle bus true s).arb.lastServed = .fetch := by
  obtain ⟨burst, served⟩ := settle_grants bus free choice (by rw [grantClient_fetch_eq fetch])
  refine ⟨?_, served.trans (by rw [grantClient_fetch_eq fetch])⟩
  rw [burst, (requestsStanding_keepsService s).sweepCfg, requestsStanding_store, settle_store]

theorem settle_grants_selfTest {b : SelfBurst} (choice : arbiterChoice (requestsStanding s) = some .selfTest)
    (self : (requestsStanding s).arb.selfWait = some b) :
    (settle bus true s).arb.inProgress = some (.selfTest b true) ∧
      (settle bus true s).arb.lastServed = s.arb.lastServed := by
  obtain ⟨burst, served⟩ := settle_grants bus free choice (by rw [grantClient_selfTest self])
  exact ⟨burst, served.trans (grantClient_selfTest_lastServed.trans (requestsStanding_keepsService s).lastServed)⟩

end CompletionGrants

/-! ## Behind a burst of the ingest unit (R142) -/

section BehindIngest

variable {s : State} (b : IngestBurst) (live : Bool) (move : EngineMove) (e : MemErrors)

theorem completeBurst_ingest_sameOperations : SameOperations s (completeBurst (.ingest b live) move e s) :=
  have h := completeIngest_sameOperations b live (memoryFreed s)
  ⟨h.sweepCfg, h.place, h.reg, h.comp, h.coverage, h.reads, h.lines⟩

theorem completeBurst_ingest_arb :
    (completeBurst (.ingest b live) move e s).arb = { s.arb with inProgress := none } :=
  (completeIngest_requests b live _).1

/-- Behind a burst of the ingest unit the fetch port's request waits as before, in the same service order. -/
theorem requestsStanding_ingest :
    (requestsStanding (completeBurst (.ingest b live) move e s)).arb.fetchWait = s.arb.fetchWait ∧
      (requestsStanding (completeBurst (.ingest b live) move e s)).config = s.config := by
  rw [requestsStanding_arb, requestsStanding_config, completeBurst_ingest_arb]
  exact ⟨rfl, (completeIngest_requests b live _).2⟩

end BehindIngest

/-! ## The obligation -/

/-- Settles O50: the choice by `arbiterChoice_of_running`, arrivals by `exists_grantArrived`, a completion by
`settle_grants` in the state that `completeBurst_keepsService` leaves, and behind a burst of the ingest unit with the
engine's request kept by `SameOperations`. -/
theorem arbiterChoosesByTheServiceOrder : Obligations.ArbiterChoosesByTheServiceOrder := by
  refine ⟨fun s => ⟨?_, ?_, ?_, ?_, ?_, ?_, ?_⟩, ?_, ?_, ?_⟩
  · intro init
    simp only [arbiterChoice, init]
  · exact arbiterChoice_of_test
  · rintro ⟨init, test⟩
    exact ⟨arbiterChoice_ingest init test, arbiterChoice_both init test, arbiterChoice_engine init test,
      arbiterChoice_fetch init test⟩
  · intro engine
    obtain ⟨unit, engine⟩ := Option.isSome_iff_exists.mp engine
    rw [grantClient_engine engine]
  · intro fetch
    obtain ⟨b, fetch⟩ := Option.isSome_iff_exists.mp fetch
    rw [grantClient_fetch_eq fetch]
  · exact grantClient_ingest_lastServed
  · exact grantClient_selfTest_lastServed
  · intro s allowed hallowed
    have arrived (c : Client) : allowed c ↔ c ∈ arrivedClients s := (hallowed c).trans (mem_arrivedClients s c).symm
    simp only [arrived]
    refine ⟨grantArrived_of_busy, fun none => grantArrived_of_none (List.eq_nil_iff_forall_not_mem.mpr none), ?_⟩
    exact fun free c asked => ⟨grantArrived_of_only free asked, exists_grantArrived free asked⟩
  · rintro s u burst move e inProgress movable rfl
    have kept := completeBurst_keepsService burst move e s
    have standing := kept.trans (requestsStanding_keepsService _)
    have free := kept.free rfl
    refine ⟨_, exec_burst_of_movable inProgress movable, ?_, ?_, ?_, ?_, standing.ingestWait, standing.sweepState⟩
    · intro b choice ingest
      obtain ⟨granted, served⟩ := settle_grants_ingest false free choice ingest
      exact ⟨granted, served.trans kept.lastServed⟩
    · intro unit choice engine
      exact settle_grants_engine false free choice engine
    · intro b choice fetch
      rw [← show _ = s.sweepCfg from kept.sweepCfg]
      exact settle_grants_fetch false free choice fetch
    · intro b choice self
      obtain ⟨granted, served⟩ := settle_grants_selfTest false free choice self
      exact ⟨granted, served.trans kept.lastServed⟩
  · intro s b live move e inProgress init test
    have kept := completeBurst_keepsService (.ingest b live) move e s
    have standing := kept.trans (requestsStanding_keepsService _)
    have free := kept.free rfl
    have same := completeBurst_ingest_sameOperations (s := s) b live move e
    obtain ⟨fetchWait, config⟩ := requestsStanding_ingest (s := s) b live move e
    rw [← show _ = s.sweep.state from standing.sweepState] at init test
    rw [← show _ = s.arb.ingestWait from standing.ingestWait, ← show _ = s.arb.lastServed from standing.lastServed,
      ← fetchWait, ← config]
    refine ⟨_, exec_burst_of_movable inProgress (movable_ingest b live), ?_, ?_, ?_⟩
    · intro next ingest
      exact (settle_grants_ingest false free (arbiterChoice_ingest init test (by rw [ingest]; rfl)) ingest).1
    · intro read ingest fetch order
      rw [← show _ = s.sweepCfg from kept.sweepCfg]
      refine settle_grants_fetch false free (arbiterChoice_fetch_first init test ingest (by rw [fetch]; rfl) ?_) fetch
      exact order.imp_left fun none => by rw [requestsStanding_arb, completeBurst_ingest_arb, none, Option.filter_none]
    · intro unit ingest engine wants planned on order
      have waiting := (congrArg Arbiter.engineWait (completeBurst_ingest_arb b live move e)).trans engine
      have request := same.request_standing waiting wants planned on
      rw [← same.engineAreas_standing planned on]
      exact settle_grants_engine false free
        (arbiterChoice_engine_first init test ingest (by rw [request]; rfl) order) request

end Sys2Proof.Machine
end

section
/-! SUPPORT. A read burst of an engine unit: the words it touches, what the check data show of them, and what becomes of the
operation without and with an uncorrectable word, with O47 from them (R91, R102, R122, R123, R129, R142 to R146). -/

namespace Sys2Proof.Machine

/-! ## Words and check data (R144) -/

theorem mem_touchedWords {addr len : Nat} (bytes : 0 < len) (w : Nat) :
    w ∈ touchedWords addr len ↔ addr < 8 * w + 8 ∧ 8 * w < addr + len := by
  simp only [touchedWords, if_neg (Nat.ne_of_gt bytes), List.mem_map, List.mem_range]
  constructor
  · rintro ⟨i, hi, rfl⟩
    omega
  · rintro ⟨low, high⟩
    exact ⟨w - addr / 8, by omega, by omega⟩

section Check

variable (words : List Nat) (e : MemErrors)

theorem uncorrectable_iff (store : CanvasStore) (w : Nat) : uncorrectable store e w = true ↔ wordFails store e w := by
  simp [uncorrectable, flagSet, wordFails]

theorem mem_badWords (store : CanvasStore) (w : Nat) :
    w ∈ badWords words e store ↔ w ∈ words ∧ wordFails store e w := by
  rw [badWords, List.mem_filter, uncorrectable_iff]

theorem mem_correctedWords (store : CanvasStore) (w : Nat) : w ∈ correctedWords words e store ↔
    w ∈ words ∧ ¬wordFails store e w ∧ (w ∈ store.singleFlaws ∨ w ∈ e.single) := by
  rw [← uncorrectable_iff]
  simp [correctedWords, correctable, flagSet]

theorem badWords_isEmpty_iff (store : CanvasStore) :
    (badWords words e store).isEmpty = true ↔ ∀ w ∈ words, ¬wordFails store e w := by
  rw [List.isEmpty_iff, List.eq_nil_iff_forall_not_mem]
  simp only [mem_badWords, not_and]

variable (s : State) (w : Nat)

theorem mem_multiFlaws_checkWords : w ∈ (checkWords words e s).store.multiFlaws ↔
    w ∈ s.store.multiFlaws ∨ (w ∈ words ∧ w ∈ e.multi) := by
  simp only [checkWords, mem_foldl_setFlag, mem_badWords, wordFails]
  tauto

theorem mem_singleFlaws_checkWords : w ∈ (checkWords words e s).store.singleFlaws ↔
    (w ∈ s.store.singleFlaws ∨ (w ∈ words ∧ w ∈ e.single)) ∧ ¬(w ∈ words ∧ wordFails s.store e w) := by
  simp only [checkWords, List.mem_filter, mem_foldl_setFlag, mem_correctedWords, Bool.not_eq_true', List.contains_eq_mem,
    decide_eq_false_iff_not, mem_badWords]
  tauto

end Check

/-! ## The two tables of a harvest (R89 to R91) -/

theorem onOpening_iff (s : State) (job : StripJob) : onOpening s job = true ↔
    job.strip0 = true ∧ s.sweepCfg.mode = .ring ∧ ∀ w ∈ readsLeft s .registration, w ∉ leadWords s job := by
  simp [onOpening, harvestsOpening, and_assoc]

/-- The harvest of a job goes on from LEAD to OPENING at its next read. -/
structure Turns (s : State) (job : StripJob) : Prop where
  harvesting : s.reg.state = .harvesting
  held : s.comp.job = some job
  first : s.reg.openingHarvest = false
  onOpening : onOpening s job = true

theorem Turns.turnToOpening_eq {s : State} {job : StripJob} (h : Turns s job) :
    turnToOpening s = { s with reg := { s.reg with
      lead := harvestTable s.sweepCfg s.store (leadColumns job.newFront), openingHarvest := true } } := by
  simp [turnToOpening, h.harvesting, h.held, h.first, h.onOpening]

theorem turnToOpening_of_not_turns {s : State} (h : ¬∃ job, Turns s job) : turnToOpening s = s := by
  unfold turnToOpening
  split
  · rename_i job harvesting held
    refine if_neg fun turns => h ⟨job, ?_⟩
    rw [Bool.and_eq_true, Bool.not_eq_true'] at turns
    exact ⟨harvesting, held, turns.1, turns.2⟩
  · rfl

theorem turnToOpening_of_ne {s : State} (other : s.reg.state ≠ .harvesting) : turnToOpening s = s :=
  turnToOpening_of_not_turns fun ⟨_, turns⟩ => other turns.harvesting

theorem turnToOpening_state (s : State) : (turnToOpening s).reg.state = s.reg.state := by
  unfold turnToOpening
  repeat' split
  all_goals rfl

/-- The end of the burst itself does not turn a harvest. -/
theorem turnToOpening_memoryFreed (s : State) : turnToOpening (memoryFreed s) = memoryFreed (turnToOpening s) := by
  have same (job : StripJob) : Turns (memoryFreed s) job ↔ Turns s job :=
    ⟨fun ⟨h, held, first, on⟩ => ⟨h, held, first, on⟩, fun ⟨h, held, first, on⟩ => ⟨h, held, first, on⟩⟩
  by_cases turns : ∃ job, Turns s job
  · obtain ⟨job, turns⟩ := turns
    rw [turns.turnToOpening_eq, ((same job).mpr turns).turnToOpening_eq]
    rfl
  · rw [turnToOpening_of_not_turns turns, turnToOpening_of_not_turns (by simpa only [same] using turns)]

/-! ## What a read brings its operation (R142, R144) -/

/-- The registration unit as a read of a unit finds it: a harvest may turn to OPENING at its own read (log entry 27). -/
def readRegistration (unit : EngineUnit) (s : State) : Registration :=
  (if unit = .registration then turnToOpening s else s).reg

/-- A unit has read these words, and they have been checked. -/
def wordsRead (unit : EngineUnit) (words : List Nat) (e : MemErrors) (s : State) : State :=
  { s with
    store := (checkWords words e s).store
    reg := readRegistration unit s
    arb := setReads unit ((engineReads s.arb unit).map fun left => left.filter fun w => !words.contains w) s.arb }

/-- An uncorrectable read of a unit. -/
def unitFaults (unit : EngineUnit) (addr len : Nat) (s : State) : State :=
  match unit with
  | .registration => faultRegistration s
  | .compositor => faultCompositor addr len s

theorem completeEngineRead_eq (unit : EngineUnit) (addr len : Nat) (e : MemErrors) (s : State) :
    completeEngineRead unit addr len e s =
      if (badWords (touchedWords addr len) e s.store).isEmpty then wordsRead unit (touchedWords addr len) e s
      else unitFaults unit addr len (wordsRead unit (touchedWords addr len) e s) := by
  cases unit with
  | registration =>
    simp only [completeEngineRead, unitFaults]
    rw [turnToOpening_eq]
    rfl
  | compositor => rfl

section Complete

variable {s : State} {unit : EngineUnit} {addr len : Nat} {e : MemErrors}

theorem completeEngineRead_of_sound (sound : ∀ w ∈ touchedWords addr len, ¬wordFails s.store e w) :
    completeEngineRead unit addr len e s = wordsRead unit (touchedWords addr len) e s := by
  rw [completeEngineRead_eq, if_pos ((badWords_isEmpty_iff ..).mpr sound)]

theorem completeEngineRead_of_fault (fault : ∃ w ∈ touchedWords addr len, wordFails s.store e w) :
    completeEngineRead unit addr len e s =
      unitFaults unit addr len (wordsRead unit (touchedWords addr len) e s) := by
  obtain ⟨w, mem, fails⟩ := fault
  rw [completeEngineRead_eq, if_neg fun sound => (badWords_isEmpty_iff ..).mp sound w mem fails]

end Complete

theorem readRegistration_state (unit : EngineUnit) (s : State) : (readRegistration unit s).state = s.reg.state := by
  cases unit with
  | registration => exact turnToOpening_state s
  | compositor => rfl

theorem readRegistration_memoryFreed (unit : EngineUnit) (s : State) :
    readRegistration unit (memoryFreed s) = readRegistration unit s := by
  cases unit with
  | registration =>
    simp only [readRegistration, if_true, turnToOpening_memoryFreed]
    rfl
  | compositor => rfl

theorem readRegistration_of_ne {s : State} (other : s.reg.state ≠ .harvesting) (unit : EngineUnit) :
    readRegistration unit s = s.reg := by
  rw [readRegistration, turnToOpening_of_ne other, ite_self]

section Read

variable {s : State} {unit : EngineUnit} {words : List Nat} {e : MemErrors}

theorem operates_wordsRead : operates (wordsRead unit words e s) unit = operates s unit := by
  cases unit with
  | registration => simp only [operates, wordsRead, readRegistration_state]
  | compositor => rfl

theorem engineReads_wordsRead : engineReads (wordsRead unit words e s).arb unit =
    (engineReads s.arb unit).map fun left => left.filter fun w => decide (w ∉ words) := by
  cases unit <;> simp [wordsRead, setReads, engineReads]

end Read

/-- A unit goes on with what it has left to read of its operation, once everything has settled. -/
theorem settle_engineReads {s : State} {unit : EngineUnit} {left : List Nat} (b m : Bool) (on : operates s unit = true)
    (reads : engineReads s.arb unit = some left) : engineReads (settle b m s).arb unit = some left := by
  have planned : plannedReads (prepareStrip s) unit = some left := by
    simp only [plannedReads, operates_prepareStrip on, prepareStrip_arb, reads, if_true]
  cases unit with
  | registration => exact (settle_reads b m s).1.trans planned
  | compositor => exact (settle_reads b m s).2.trans planned

/-- Once everything has settled, the words read are left to read no more (R142). -/
theorem settle_wordsRead_reads {s : State} {unit : EngineUnit} {words left : List Nat} {e : MemErrors} (b m : Bool)
    (on : operates s unit = true) (reads : engineReads s.arb unit = some left) :
    engineReads (settle b m (wordsRead unit words e s)).arb unit = some (left.filter fun w => decide (w ∉ words)) :=
  settle_engineReads b m (operates_wordsRead.trans on) (by rw [engineReads_wordsRead, reads, Option.map_some])

/-! ## What an uncorrectable word does to the operation (R145) -/

/-- At most the registration unit, the compositor's operation and the arbiter differ, but that FAULT is raised and a FAULT
end request sent. -/
def OnlyFault (s t : State) : Prop :=
  ∃ reg state job pending todo halted arb, t = { s with
    reg := reg
    comp := { s.comp with state := state, job := job, pendingReanchor := pending, todo := todo, halted := halted }
    arb := arb
    attn := { s.attn with pendingSet := s.attn.pendingSet ||| 1 }
    sweep := { s.sweep with endRequests := s.sweep.endRequests ++ [.fault] } }

theorem faultRegistration_of_searching {s : State} (searching : s.reg.state = .searching) : faultRegistration s =
    { reportFault (dropEngine .registration s) with reg := { s.reg with state := .idle } } := by
  have state : (reportFault (dropEngine .registration s)).reg.state = .searching := searching
  simp only [faultRegistration, state]
  rfl

theorem faultRegistration_of_harvesting {s : State} (harvesting : s.reg.state = .harvesting) : faultRegistration s =
    dropStrip { reportFault (dropEngine .registration s) with reg := dropTable s.reg } := by
  have state : (reportFault (dropEngine .registration s)).reg.state = .harvesting := harvesting
  simp only [faultRegistration, state]
  rfl

theorem faultRegistration_of_idle {s : State} (idle : s.reg.state = .idle) :
    faultRegistration s = reportFault (dropEngine .registration s) := by
  have state : (reportFault (dropEngine .registration s)).reg.state = .idle := idle
  simp only [faultRegistration, state]

section FaultCompositor

variable {s : State} (addr len : Nat)

theorem faultCompositor_of_strip (strip : s.comp.state = .compositing ∨ s.comp.state = .harvesting) :
    faultCompositor addr len s = dropStrip (reportFault s) := by
  have state : (reportFault s).comp.state = s.comp.state := rfl
  rcases strip with strip | strip <;> simp only [faultCompositor, state, strip]

theorem faultCompositor_of_updating (updating : s.comp.state = .updating) : faultCompositor addr len s =
    { dropEngine .compositor (reportFault s) with comp := { s.comp with todo := [], halted := true } } := by
  have state : (reportFault s).comp.state = .updating := updating
  simp only [faultCompositor, state]
  rfl

theorem faultCompositor_of_closing (closing : s.comp.state = .closing) : faultCompositor addr len s =
    { reportFault s with
      comp := { s.comp with todo := s.comp.todo.map (fillBlock s.sweepCfg s.store.fill addr len) } } := by
  have state : (reportFault s).comp.state = .closing := closing
  simp only [faultCompositor, state]
  rw [← closing]
  rfl

theorem faultCompositor_of_ready (ready : s.comp.state = .ready) : faultCompositor addr len s = reportFault s := by
  have state : (reportFault s).comp.state = .ready := ready
  simp only [faultCompositor, state]

end FaultCompositor

theorem reportFault_only (s : State) : OnlyFault s (reportFault s) := ⟨_, _, _, _, _, _, _, rfl⟩

theorem OnlyFault.drop {s t : State} (h : OnlyFault s t) : OnlyFault s (dropStrip t) := by
  obtain ⟨_, _, _, _, _, _, _, rfl⟩ := h
  exact ⟨_, _, _, _, _, _, _, rfl⟩

theorem unitFaults_only (unit : EngineUnit) (addr len : Nat) (s : State) : OnlyFault s (unitFaults unit addr len s) := by
  cases unit with
  | registration =>
    rw [unitFaults]
    cases state : s.reg.state with
    | idle => rw [faultRegistration_of_idle state]; exact ⟨_, _, _, _, _, _, _, rfl⟩
    | searching => rw [faultRegistration_of_searching state]; exact ⟨_, _, _, _, _, _, _, rfl⟩
    | harvesting => rw [faultRegistration_of_harvesting state]; exact OnlyFault.drop ⟨_, _, _, _, _, _, _, rfl⟩
  | compositor =>
    rw [unitFaults]
    cases state : s.comp.state with
    | ready => exact faultCompositor_of_ready addr len state ▸ reportFault_only s
    | compositing => exact faultCompositor_of_strip addr len (.inl state) ▸ (reportFault_only s).drop
    | harvesting => exact faultCompositor_of_strip addr len (.inr state) ▸ (reportFault_only s).drop
    | updating => rw [faultCompositor_of_updating addr len state]; exact ⟨_, _, _, _, _, _, _, rfl⟩
    | closing => rw [faultCompositor_of_closing addr len state]; exact ⟨_, _, _, _, _, _, _, rfl⟩

/-- What an uncorrectable read of an engine unit keeps and reports, whatever its operation (R91, R122, R129, R145). -/
structure FaultReported (s t : State) : Prop where
  store : t.store = s.store
  attn : t.attn = { s.attn with pendingSet := s.attn.pendingSet ||| 1 }
  sweep : t.sweep = { s.sweep with endRequests := s.sweep.endRequests ++ [.fault] }
  front : t.comp.front = s.comp.front
  settled : t.comp.settled = s.comp.settled
  clean : t.comp.clean = s.comp.clean
  strips : t.comp.strips = s.comp.strips
  trimYaw : t.comp.trimYaw = s.comp.trimYaw
  trimPitch : t.comp.trimPitch = s.comp.trimPitch
  guide : t.comp.guide = s.comp.guide
  slots : t.ingest.slots = s.ingest.slots
  queue : t.ingest.queue = s.ingest.queue
  motion : t.motion = s.motion
  place : t.place = s.place
  ctl : t.ctl = s.ctl

theorem OnlyFault.settle {s t : State} (h : OnlyFault s t) (b m : Bool) : FaultReported s (settle b m t) := by
  obtain ⟨_, _, _, _, _, _, _, rfl⟩ := h
  exact ⟨settle_store .., settle_attn .., settle_sweep .., settle_front .., settle_settled .., settle_clean ..,
    settle_strips .., settle_trimYaw .., settle_trimPitch .., settle_guide .., settle_slots .., settle_queue ..,
    settle_motion .., settle_place .., settle_ctl ..⟩

/-! ## The operation once a fault has settled (R91, R122, R123, R129) -/

section SettledFault

variable {s : State} (b m : Bool) (addr len : Nat)

theorem settle_fault_searching (searching : s.reg.state = .searching) :
    (settle b m (faultRegistration s)).reg = { s.reg with state := .idle } ∧
      (settle b m (faultRegistration s)).comp.state = s.comp.state := by
  rw [faultRegistration_of_searching searching, settle_reg, settle_compState]
  exact ⟨rfl, rfl⟩

theorem settle_fault_harvesting (harvesting : s.reg.state = .harvesting) :
    (settle b m (faultRegistration s)).reg = dropTable s.reg ∧
      (settle b m (faultRegistration s)).comp.state = .ready ∧ (settle b m (faultRegistration s)).comp.job = none := by
  rw [faultRegistration_of_harvesting harvesting, settle_reg, settle_comp_of_ne b m _ (by simp [dropStrip])]
  exact ⟨rfl, rfl, rfl⟩

theorem settle_fault_compositing (compositing : s.comp.state = .compositing) :
    (settle b m (faultCompositor addr len s)).reg = s.reg ∧
      (settle b m (faultCompositor addr len s)).comp.state = .ready ∧
      (settle b m (faultCompositor addr len s)).comp.job = none ∧
      (settle b m (faultCompositor addr len s)).comp.pendingReanchor = none := by
  rw [faultCompositor_of_strip addr len (.inl compositing), settle_reg, settle_comp_of_ne b m _ (by simp [dropStrip])]
  exact ⟨rfl, rfl, rfl, rfl⟩

theorem settle_fault_updating (updating : s.comp.state = .updating) :
    (settle b m (faultCompositor addr len s)).reg = s.reg ∧
      (settle b m (faultCompositor addr len s)).comp.state = .updating ∧
      (settle b m (faultCompositor addr len s)).comp.halted = true ∧
      (settle b m (faultCompositor addr len s)).comp.todo = [] := by
  rw [faultCompositor_of_updating addr len updating, settle_reg, settle_comp_of_ne b m _ (by simp [updating])]
  exact ⟨rfl, updating, rfl, rfl⟩

theorem settle_fault_closing (closing : s.comp.state = .closing) :
    (settle b m (faultCompositor addr len s)).reg = s.reg ∧
      (settle b m (faultCompositor addr len s)).comp.state = .closing ∧
      (settle b m (faultCompositor addr len s)).comp.todo =
        s.comp.todo.map (fillBlock s.sweepCfg s.store.fill addr len) := by
  rw [faultCompositor_of_closing addr len closing, settle_reg, settle_comp_of_ne b m _ (by simp [closing])]
  exact ⟨rfl, closing, rfl⟩

end SettledFault

/-! ## The blocks that the closing work fills (R123, R134) -/

theorem blockMeets_iff (cfg : Configuration) (addr len j q : Nat) : blockMeets cfg addr len j q = true ↔
    ∃ dr, dr < 8 ∧ cellAddress cfg (8 * j) (8 * q + dr) < addr + len ∧
      addr < cellAddress cfg (8 * j) (8 * q + dr) + 16 := by
  simp [blockMeets]

section Fill

variable {cfg : Configuration} {addr len j q : Nat} {u : WriteUnit} (fill : FillPixel)

theorem fillBlock_of_meets (target : u.target = .preview j q)
    (meets : ∃ dr, dr < 8 ∧ cellAddress cfg (8 * j) (8 * q + dr) < addr + len ∧
      addr < cellAddress cfg (8 * j) (8 * q + dr) + 16) :
    fillBlock cfg fill addr len u = { u with y := fill.y, c := fillChroma fill j } := by
  simp only [fillBlock, target, (blockMeets_iff ..).mpr meets, if_true]

theorem fillBlock_of_apart (target : u.target = .preview j q)
    (apart : ∀ dr, dr < 8 → addr + len ≤ cellAddress cfg (8 * j) (8 * q + dr) ∨
      cellAddress cfg (8 * j) (8 * q + dr) + 16 ≤ addr) : fillBlock cfg fill addr len u = u := by
  have missed : ¬ blockMeets cfg addr len j q = true := by
    rw [blockMeets_iff]
    rintro ⟨dr, row, low, high⟩
    have := apart dr row
    omega
  simp only [fillBlock, target, if_neg missed]

/-- The pixels of the closing work once an uncorrectable burst has read some of their blocks (R123, R145). -/
theorem closing_filled {s t : State}
    (todo : t.comp.todo = s.comp.todo.map (fillBlock s.sweepCfg s.store.fill addr len)) :
    t.comp.todo.length = s.comp.todo.length ∧
    ∀ (i : Nat) (u : WriteUnit) (j q : Nat), s.comp.todo[i]? = some u → u.target = .preview j q →
      ((∃ dr, dr < 8 ∧ cellAddress s.sweepCfg (8 * j) (8 * q + dr) < addr + len ∧
          addr < cellAddress s.sweepCfg (8 * j) (8 * q + dr) + 16) →
        t.comp.todo[i]? = some { u with y := s.store.fill.y, c := fillChroma s.store.fill j }) ∧
      ((∀ dr, dr < 8 → addr + len ≤ cellAddress s.sweepCfg (8 * j) (8 * q + dr) ∨
          cellAddress s.sweepCfg (8 * j) (8 * q + dr) + 16 ≤ addr) →
        t.comp.todo[i]? = some u) := by
  refine ⟨by rw [todo, List.length_map], fun i u j q at_i target => ?_⟩
  have filled : t.comp.todo[i]? = some (fillBlock s.sweepCfg s.store.fill addr len u) := by
    rw [todo, List.getElem?_map, at_i, Option.map_some]
  exact ⟨fun meets => by rw [filled, fillBlock_of_meets _ target meets],
    fun apart => by rw [filled, fillBlock_of_apart _ target apart]⟩

end Fill

/-! ## What a burst of an engine unit can have moved (R102, R131, R142) -/

theorem moveInDram_of_wellFormed {move : EngineMove} (formed : moveWellFormed move = true) : moveInDram move = true := by
  cases move with
  | read addr len =>
    obtain ⟨-, -, within⟩ := of_decide_eq_true formed
    exact decide_eq_true within
  | write addr len =>
    obtain ⟨-, -, within, -⟩ := of_decide_eq_true formed
    exact decide_eq_true within

theorem moveInDram_read_iff (addr len : Nat) : moveInDram (.read addr len) = true ↔ addr + len ≤ 67108864 :=
  decide_eq_true_iff

theorem movable_engine {s : State} {unit : EngineUnit} {live : Bool} {late : List WriteUnit} {areas : List MoveArea}
    {move : EngineMove} (formed : moveWellFormed move = true) (fits : moveFits unit live late areas move s = true) :
    Movable (.engine unit live late areas) move s := by
  rintro _ _ _ _ ⟨⟩
  exact ⟨moveInDram_of_wellFormed formed, formed, fits⟩

section Unfit

variable {s : State} {unit : EngineUnit} {late : List WriteUnit} {areas : List MoveArea} {addr len : Nat}

/-- No area that the operation reads holds the bytes. -/
theorem moveFits_read_of_apart (live : Bool)
    (apart : ∀ a ∈ areas, a.reads = true → addr < a.base ∨ a.base + a.size < addr + len) :
    moveFits unit live late areas (.read addr len) s = false := by
  have none : areas.any (fun a => a.reads && areaHolds a addr len) = false := by
    rw [List.any_eq_false]
    intro a mem holds
    rw [Bool.and_eq_true, areaHolds, decide_eq_true_eq] at holds
    have := apart a mem holds.1
    omega
  rw [moveFits, none, Bool.false_and]

/-- A word that the registration unit does not need now is no word of its reads (R91, R105). -/
theorem moveFits_read_of_notAtHand (notAtHand : ∃ word ∈ touchedWords addr len, word ∉ wordsAtHand s) :
    moveFits .registration true late areas (.read addr len) s = false := by
  have refused : readAtHand .registration addr len s = false := by
    simpa [readAtHand] using notAtHand
  rw [moveFits, refused, Bool.not_true, Bool.false_or, Bool.and_false]

end Unfit

section Search

variable {s : State} {w : Working} (searching : s.reg.state = .searching) (work : s.place.work = some w)
include searching work

/-- A search reads LEAD's windows while a word of them is left to read or no closure measurement is due (R102). -/
theorem wordsAtHand_of_lead
    (lead : frameClosureDue s w = false ∨ ∃ word ∈ readsLeft s .registration, word ∈ leadWindows s w) :
    wordsAtHand s = leadWindows s w := by
  have first : searchesOpening s w = false := by simpa [searchesOpening, ← Bool.not_eq_true, imp_iff_not_or] using lead
  simp [wordsAtHand, searching, work, first]

/-- With a closure measurement due and no word of LEAD's windows left to read, a search reads OPENING's (R102). -/
theorem wordsAtHand_of_opening (due : frameClosureDue s w = true)
    (read : ∀ word ∈ readsLeft s .registration, word ∉ leadWindows s w) : wordsAtHand s = openingWindows s w := by
  have second : searchesOpening s w = true := by simpa [searchesOpening, due] using read
  simp [wordsAtHand, searching, work, second]

end Search

/-! ## A read burst completes -/

/-- The compositor is on an operation in an update, in the closing work and on a strip whose seams are chosen (R108). -/
theorem operates_compositor {s : State} (working : s.comp.state = .updating ∨ s.comp.state = .closing ∨
    (s.comp.state = .compositing ∧ s.comp.job.map StripJob.planned = some true)) : operates s .compositor = true := by
  rcases working with state | state | ⟨state, planned⟩ <;> simp only [operates, state]
  rw [planned, Option.getD_some]

section EngineRead

variable {s : State} {unit : EngineUnit} {late : List WriteUnit} {areas : List MoveArea} {addr len : Nat} {e : MemErrors}
  (inProgress : s.arb.inProgress = some (.engine unit true late areas)) (formed : moveWellFormed (.read addr len) = true)
  (fits : moveFits unit true late areas (.read addr len) s = true)
include inProgress formed fits

theorem exec_engineRead_of_sound (sound : ∀ w ∈ touchedWords addr len, ¬wordFails s.store e w) :
    exec (.memoryBurstComplete (.read addr len) e) s =
      .next (settle false true (wordsRead unit (touchedWords addr len) e (memoryFreed s))) := by
  rw [exec_burst_of_movable inProgress (movable_engine formed fits)]
  exact congrArg (Host.Outcome.next <| settle false true ·) (completeEngineRead_of_sound (s := memoryFreed s) sound)

theorem exec_engineRead_of_fault (fault : ∃ w ∈ touchedWords addr len, wordFails s.store e w) :
    exec (.memoryBurstComplete (.read addr len) e) s =
      .next (settle false true (unitFaults unit addr len (wordsRead unit (touchedWords addr len) e (memoryFreed s)))) := by
  rw [exec_burst_of_movable inProgress (movable_engine formed fits)]
  exact congrArg (Host.Outcome.next <| settle false true ·) (completeEngineRead_of_fault (s := memoryFreed s) fault)

end EngineRead

theorem wordsRead_reg (unit : EngineUnit) (words : List Nat) (e : MemErrors) (s : State) :
    (wordsRead unit words e (memoryFreed s)).reg = readRegistration unit s := readRegistration_memoryFreed unit s

theorem wordsRead_state (unit : EngineUnit) (words : List Nat) (e : MemErrors) (s : State) :
    (wordsRead unit words e (memoryFreed s)).reg.state = s.reg.state := readRegistration_state unit (memoryFreed s)

/-- A read of a unit changes, beside the arbiter, the check data's record and what the registration unit turns to. -/
theorem wordsRead_only (unit : EngineUnit) (words : List Nat) (e : MemErrors) (s : State) :
    OnlyFetch { s with store := (checkWords words e s).store, reg := readRegistration unit s }
      (wordsRead unit words e (memoryFreed s)) := by
  rw [wordsRead, readRegistration_memoryFreed]
  exact ⟨_, _, rfl⟩

/-! ## The obligation -/

/-- Settles O47: a read burst that fits completes by `exec_engineRead_of_sound`, which leaves `wordsRead` to settle, or by
`exec_engineRead_of_fault`, which leaves `unitFaults`: `FaultReported` says what every fault keeps, and the `settle_fault_`
lemmas what becomes of each operation. A move that does not fit is refused by `moveFits_read_of_notAtHand` and
`moveFits_read_of_apart`. -/
theorem engineReadErrors : Obligations.EngineReadErrors := by
  refine ⟨fun addr len w bytes => mem_touchedWords bytes w, ?_, ?_, ?_, ?_, ?_⟩
  · rintro s u words e rfl
    refine ⟨rfl, ⟨correctedWords words e s.store, List.filter_sublist, rfl, fun w mem => ?_⟩, fun w =>
      ⟨mem_multiFlaws_checkWords words e s w, mem_singleFlaws_checkWords words e s w⟩⟩
    rw [mem_correctedWords, and_iff_right mem]
  · intro s job harvesting held
    refine ⟨fun first turns => ?_, onOpening_iff s job, fun stays => turnToOpening_of_not_turns ?_⟩
    · exact congrArg State.reg (Turns.turnToOpening_eq ⟨harvesting, held, first, turns⟩)
    · rintro ⟨job', turns⟩
      obtain rfl : job = job' := Option.some.inj (held.symm.trans turns.held)
      rcases stays with second | stays
      · simp [turns.first] at second
      · simp [turns.onOpening] at stays
  · rintro s unit late areas addr len e words reg inProgress formed fits rfl hreg
    obtain rfl : reg = readRegistration unit s := hreg
    constructor
    · intro sound
      refine ⟨_, exec_engineRead_of_sound inProgress formed fits sound,
        (wordsRead_only ..).rest.trans (settle_settlesTo ..).1, ?_, ?_⟩
      · rintro rfl busy left reads
        exact settle_wordsRead_reads (unit := .registration) false true (decide_eq_true busy) reads
      · rintro rfl working left reads
        exact settle_wordsRead_reads (unit := .compositor) false true (operates_compositor working) reads
    · intro fault
      have kept := (unitFaults_only unit addr len
        (wordsRead unit (touchedWords addr len) e (memoryFreed s))).settle false true
      refine ⟨_, exec_engineRead_of_fault inProgress formed fits fault, kept.store, kept.attn, kept.sweep, kept.front,
        kept.settled, kept.clean, kept.strips, kept.trimYaw, kept.trimPitch, kept.guide, kept.slots, kept.queue,
        kept.motion, kept.place, kept.ctl, ?_, ?_, ?_, ?_, ?_⟩
      · rintro rfl searching
        obtain ⟨reg, comp⟩ := settle_fault_searching false true ((wordsRead_state ..).trans searching)
        refine ⟨reg.trans ?_, comp⟩
        rw [wordsRead_reg, readRegistration_of_ne (by simp [searching])]
      · rintro rfl harvesting
        obtain ⟨reg, state, job⟩ := settle_fault_harvesting false true ((wordsRead_state ..).trans harvesting)
        exact ⟨reg.trans (congrArg dropTable (wordsRead_reg ..)), state, job⟩
      · rintro rfl compositing
        exact settle_fault_compositing (s := wordsRead .compositor (touchedWords addr len) e (memoryFreed s)) false true
          addr len compositing
      · rintro rfl updating
        exact settle_fault_updating (s := wordsRead .compositor (touchedWords addr len) e (memoryFreed s)) false true
          addr len updating
      · rintro rfl closing
        obtain ⟨reg, state, todo⟩ := settle_fault_closing
          (s := wordsRead .compositor (touchedWords addr len) e (memoryFreed s)) false true addr len closing
        exact ⟨reg, state, closing_filled (s := s) todo⟩
  · intro s w late areas addr len e searching work inProgress dram
    rw [← moveInDram_read_iff] at dram
    constructor
    · intro lead stray
      exact exec_burst_of_unfit inProgress dram
        (moveFits_read_of_notAtHand (by rwa [wordsAtHand_of_lead searching work lead]))
    · intro due read stray
      exact exec_burst_of_unfit inProgress dram
        (moveFits_read_of_notAtHand (by rwa [wordsAtHand_of_opening searching work due read]))
  · intro s unit live late areas addr len e inProgress
    refine ⟨?_, fun dram apart => ?_, fun beyond => ?_⟩
    · rintro rfl formed fits
      refine ⟨_, exec_burst_of_movable inProgress (movable_engine formed fits), ?_⟩
      exact (OnlyFetch.rest ⟨_, _, rfl⟩).trans (settle_settlesTo ..).1
    · exact exec_burst_of_unfit inProgress ((moveInDram_read_iff ..).mpr dram) (moveFits_read_of_apart live apart)
    · exact exec_burst_outsideDram inProgress (Bool.eq_false_iff.mpr fun dram =>
        absurd ((moveInDram_read_iff ..).mp dram) (Nat.not_le_of_lt beyond))

end Sys2Proof.Machine
end

section
/-! SUPPORT. A served record as a list of fields (R182), and the strip and the guide record read field by field (R124,
R127, R128, 10.5). -/

namespace Sys2Proof.Machine

/-! ## A record as a list of fields (R182) -/

/-- The bytes of fields one after the other: each has its length in bytes and the number that it carries. -/
def fieldBytes (fields : List (Nat × Nat)) : List Byte := fields.flatMap fun f => natBytes f.1 f.2

/-- The fields hold the number `v` in `n` bytes from byte `pos`. -/
def FieldAt (fields : List (Nat × Nat)) (pos n v : Nat) : Prop :=
  ∃ i, fields[i]? = some (n, v) ∧ ((fields.map Prod.fst).take i).sum = pos

/-- The number that an unsigned field carries. -/
def unsignedCode (n : Nat) (v : Int) : Nat :=
  if 0 ≤ v ∧ v < 256 ^ n then v.toNat else Config.unstatedField (8 * n) v

/-- The number that a signed field carries. -/
def signedCode (n : Nat) (v : Int) : Nat :=
  if -(256 ^ n / 2) ≤ v ∧ v < 256 ^ n / 2 then (v % 256 ^ n).toNat else Config.unstatedField (8 * n) v

theorem unsignedField_eq (n : Nat) (v : Int) : unsignedField n v = natBytes n (unsignedCode n v) := rfl

theorem signedField_eq (n : Nat) (v : Int) : signedField n v = natBytes n (signedCode n v) := rfl

theorem fieldBytes_length (fields : List (Nat × Nat)) : (fieldBytes fields).length = (fields.map Prod.fst).sum := by
  simp [fieldBytes, List.length_flatMap, natBytes_length]

/-- The last byte of a field carries the number's low eight bits. -/
theorem natBytes_succ (n v : Nat) : natBytes (n + 1) v = natBytes n (v / 256) ++ [BitVec.ofNat 8 v] := by
  have high : ∀ i ∈ List.range n, BitVec.ofNat 8 (v / 256 ^ (n + 1 - 1 - i)) =
      BitVec.ofNat 8 (v / 256 / 256 ^ (n - 1 - i)) := by
    intro i hi
    have : n + 1 - 1 - i = n - 1 - i + 1 := by have := List.mem_range.mp hi; omega
    rw [this, pow_succ', Nat.div_div_eq_div_mul]
  simp only [natBytes, List.range_succ, List.map_append, List.map_cons, List.map_nil, List.map_congr_left high]
  simp

theorem bytesNat_append_left (a b : List Byte) : bytesNat (a ++ b) 0 a.length = bytesNat a 0 a.length := by
  simp [bytesNat]

theorem bytesNat_append_right (a b : List Byte) (pos len : Nat) :
    bytesNat (a ++ b) (a.length + pos) len = bytesNat b pos len := by
  rw [bytesNat, bytesNat, List.drop_append, List.drop_of_length_le (Nat.le_add_right ..), Nat.add_sub_cancel_left,
    List.nil_append]

theorem bytesNat_natBytes (n v : Nat) : bytesNat (natBytes n v) 0 n = v % 256 ^ n := by
  induction n generalizing v with
  | zero => simp [bytesNat, Nat.mod_one]
  | succ n ih =>
    have high := ih (v / 256)
    have whole (k w : Nat) :
        bytesNat (natBytes k w) 0 k = (natBytes k w).foldl (fun acc b => acc * 256 + b.toNat) 0 := by
      rw [bytesNat, List.drop_zero, List.take_of_length_le (natBytes_length ..).le]
    rw [whole] at high
    rw [whole, natBytes_succ, List.foldl_append, high, pow_succ', Nat.mod_mul]
    simp [BitVec.toNat_ofNat]
    ring

/-- The fields' lengths alone say where the field at an index begins. -/
theorem FieldAt.of_index {fields : List (Nat × Nat)} {widths : List Nat} (hw : fields.map Prod.fst = widths) (i : Nat)
    {pos n v : Nat} (hi : fields[i]? = some (n, v)) (start : (widths.take i).sum = pos) : FieldAt fields pos n v :=
  ⟨i, hi, hw ▸ start⟩

/-! ## A word of flags -/

theorem flagBit_eq (b : Bool) (place : Nat) : flagBit b place = 2 ^ place * b.toNat := by
  cases b <;> simp [flagBit]

/-- The number whose bits are these flags, the first at bit 0. -/
def flagWord : List Bool → Nat
  | [] => 0
  | b :: flags => b.toNat + 2 * flagWord flags

theorem testBit_flagWord (flags : List Bool) (i : Nat) : (flagWord flags).testBit i = flags.getD i false := by
  induction flags generalizing i with
  | nil => simp [flagWord]
  | cons b flags ih =>
    cases i with
    | zero => cases b <;> simp [flagWord, Nat.testBit_zero]
    | succ i =>
      have half : flagWord (b :: flags) / 2 = flagWord flags := by cases b <;> simp [flagWord]; omega
      rw [Nat.testBit_succ, half, ih, List.getD_cons_succ]

theorem getLsbD_flagWord {w i : Nat} (flags : List Bool) (h : i < w) :
    (BitVec.ofNat w (flagWord flags)).getLsbD i = flags.getD i false := by
  rw [BitVec.getLsbD_ofNat, testBit_flagWord, decide_eq_true h, Bool.true_and]

/-! ## Reading a field -/

section Field

variable {fields : List (Nat × Nat)} {pos n v : Nat} (tail : List Byte)

/-- A field carries its number modulo what its bytes hold. -/
theorem bytesNat_field (h : FieldAt fields pos n v) : bytesNat (fieldBytes fields ++ tail) pos n = v % 256 ^ n := by
  obtain ⟨i, field, rfl⟩ := h
  induction fields generalizing i with
  | nil => simp at field
  | cons f fields ih =>
    have split : fieldBytes (f :: fields) ++ tail = natBytes f.1 f.2 ++ (fieldBytes fields ++ tail) := by
      simp [fieldBytes]
    rw [split]
    cases i with
    | zero =>
      obtain rfl : f = (n, v) := by simpa using field
      have first := bytesNat_append_left (natBytes n v) (fieldBytes fields ++ tail)
      rw [natBytes_length, bytesNat_natBytes] at first
      exact first
    | succ i =>
      have next := bytesNat_append_right (natBytes f.1 f.2) (fieldBytes fields ++ tail)
        ((fields.map Prod.fst).take i).sum n
      rw [natBytes_length] at next
      exact next.trans (ih i (by simpa using field))

theorem bytesNat_field_of_lt (h : FieldAt fields pos n v) (fits : v < 256 ^ n) :
    bytesNat (fieldBytes fields ++ tail) pos n = v :=
  (bytesNat_field tail h).trans (Nat.mod_eq_of_lt fits)

theorem ofNat_field (h : FieldAt fields pos n v) :
    BitVec.ofNat (8 * n) (bytesNat (fieldBytes fields ++ tail) pos n) = BitVec.ofNat (8 * n) v := by
  apply BitVec.eq_of_toNat_eq
  rw [bytesNat_field tail h, BitVec.toNat_ofNat, BitVec.toNat_ofNat, pow_mul]
  exact Nat.mod_mod ..

/-- A field of one byte, read as that byte. -/
theorem getD_field (h : FieldAt fields pos 1 v) : (fieldBytes fields ++ tail).getD pos 0 = BitVec.ofNat 8 v := by
  have byte (p : List Byte) : BitVec.ofNat 8 (bytesNat p pos 1) = p.getD pos 0 := by
    rw [bytesNat, List.take_one, List.head?_drop, List.getD_eq_getElem?_getD]
    cases p[pos]? <;> simp
  exact (byte _).symm.trans (ofNat_field tail h)

/-- A byte of flags shows each flag at its bit. -/
theorem getLsbD_byte {flags : List Bool} (h : FieldAt fields pos 1 (flagWord flags)) {i : Nat} (hi : i < 8) :
    ((fieldBytes fields ++ tail).getD pos 0).getLsbD i = flags.getD i false := by
  rw [getD_field tail h, getLsbD_flagWord flags hi]

/-- An unsigned field shows a value that fits it. -/
theorem bytesNat_unsigned {v : Int} (h : FieldAt fields pos n (unsignedCode n v)) (low : 0 ≤ v) (high : v < 256 ^ n) :
    (bytesNat (fieldBytes fields ++ tail) pos n : Int) = v := by
  rw [unsignedCode, if_pos ⟨low, high⟩] at h
  rw [bytesNat_field_of_lt tail h (by zify; omega), Int.toNat_of_nonneg low]

theorem toInt_signedCode {v : Int} (fits : fitsSigned n v) : (BitVec.ofNat (8 * n) (signedCode n v)).toInt = v := by
  have size : (256 : Int) ^ n = 2 ^ (8 * n) := by rw [pow_mul]; norm_num
  have half : -(2 ^ (8 * n) / 2) ≤ v ∧ v < 2 ^ (8 * n) / 2 := size ▸ fits
  have code : BitVec.ofNat (8 * n) (v % 2 ^ (8 * n)).toNat = BitVec.ofInt (8 * n) v := by
    apply BitVec.eq_of_toNat_eq
    rw [BitVec.toNat_ofNat, BitVec.toNat_ofInt, Nat.mod_eq_of_lt]
    · simp
    · zify
      rw [Int.toNat_of_nonneg (Int.emod_nonneg _ (by positivity))]
      exact Int.emod_lt_of_pos _ (by positivity)
  rw [signedCode, if_pos (by exact fits), size, code, BitVec.toInt_ofInt]
  exact Int.bmod_eq_of_le (by push_cast; omega) (by push_cast; omega)

/-- A signed field shows a value that fits it. -/
theorem signedAt_field {v : Int} (h : FieldAt fields pos n (signedCode n v)) (fits : fitsSigned n v) :
    signedAt (fieldBytes fields ++ tail) pos n = v := by
  rw [signedAt, ofNat_field tail h, toInt_signedCode fits]

/-- A field whose number is a word of flags shows each flag at its bit. -/
theorem getLsbD_field {flags : List Bool} (h : FieldAt fields pos n (flagWord flags)) {i : Nat} (hi : i < 8 * n) :
    (BitVec.ofNat (8 * n) (bytesNat (fieldBytes fields ++ tail) pos n)).getLsbD i = flags.getD i false := by
  rw [ofNat_field tail h, getLsbD_flagWord flags hi]

end Field

/-- The spare bytes behind the fields are 0. -/
theorem getD_spare {fields : List (Nat × Nat)} {i : Nat} (n : Nat) (h : (fieldBytes fields).length ≤ i) :
    (fieldBytes fields ++ List.replicate n 0).getD i 0 = 0 := by
  rw [List.getD_append_right _ _ _ _ h, List.getD_eq_getElem?_getD, List.getElem?_replicate]
  split <;> rfl

/-! ## Flag words -/

theorem stripFlagBits_eq (f : StripFlags) : stripFlagBits f =
    flagWord [f.motionOnly, f.frame.extrapolated, f.frame.trackShort, f.frame.gap, f.frame.rateSat, f.frame.pitchClamp,
      f.frame.rsClamp, f.detached, f.closing, f.closurePoor, f.wrapped] := by
  simp only [stripFlagBits, frameFlagBits, flagBit_eq, flagWord]
  ring

theorem frameFlagBits_eq (f : FrameFlags) : frameFlagBits f =
    flagWord [false, f.extrapolated, f.trackShort, f.gap, f.rateSat, f.pitchClamp, f.rsClamp] := by
  simp only [frameFlagBits, flagBit_eq, flagWord, Bool.toNat_false]
  ring

theorem stripPresence_eq (r : StripRecord) : stripPresence r = flagWord [r.correction.isSome, r.closure.isSome] := by
  simp only [stripPresence, flagBit_eq, flagWord]
  ring

theorem seamPresence_eq (seams : List (Option Int)) :
    seamPresence seams = flagWord ((List.range 8).map fun k => (seams.getD k none).isSome) := by
  simp only [seamPresence, flagBit_eq, List.range, List.range.loop, List.map_cons, List.map_nil, List.foldl_cons,
    List.foldl_nil, flagWord]
  ring

/-! ## The strip record (R124) -/

/-- The fields of a strip record before its eight spare bytes. -/
def stripFields (r : StripRecord) : List (Nat × Nat) :=
  [(1, r.index), (1, stripPresence r), (2, stripFlagBits r.flags), (2, r.seq.toNat), (4, r.tRef.toNat),
    (4, signedCode 4 r.xC), (2, signedCode 2 r.yP)] ++
  (List.range 8).map (fun k => (1, signedCode 1 (r.shifts.getD k 0))) ++
  [(4, signedCode 4 r.prevFront), (4, signedCode 4 r.newFront), (1, seamPresence r.seams), (1, 0)] ++
  (List.range 8).map (fun k => (2, unsignedCode 2 ((r.seams.getD k none).getD 0))) ++
  [(1, signedCode 1 ((r.correction.map Prod.fst).getD 0)), (1, signedCode 1 ((r.correction.map Prod.snd).getD 0)),
    (1, r.confident), (1, r.inliers), (1, signedCode 1 ((r.closure.map Prod.fst).getD 0)),
    (1, signedCode 1 ((r.closure.map Prod.snd).getD 0))]

/-- The lengths of those fields. -/
def stripWidths : List Nat :=
  [1, 1, 2, 2, 4, 4, 2] ++ List.replicate 8 1 ++ [4, 4, 1, 1] ++ List.replicate 8 2 ++ [1, 1, 1, 1, 1, 1]

theorem stripFields_widths (r : StripRecord) : (stripFields r).map Prod.fst = stripWidths := rfl

theorem spareByte_eq : ([0] : List Byte) = natBytes 1 0 := rfl

theorem stripBytes_eq (r : StripRecord) : stripBytes r = fieldBytes (stripFields r) ++ List.replicate 8 0 := by
  unfold stripBytes stripFields fieldBytes
  simp only [timeField, optSigned, signedField_eq, unsignedField_eq]
  rw [spareByte_eq]
  simp only [List.flatMap_append, List.flatMap_cons, List.flatMap_nil, List.append_nil, List.append_assoc]
  rw [List.flatMap_map, List.flatMap_map]
  rfl

section Strip

variable (r : StripRecord)

theorem stripField (i : Nat) {pos n v : Nat} (hi : (stripFields r)[i]? = some (n, v))
    (start : (stripWidths.take i).sum = pos) : FieldAt (stripFields r) pos n v :=
  .of_index (stripFields_widths r) i hi start

theorem stripField_shift {k : Nat} (h : k < 8) :
    FieldAt (stripFields r) (16 + k) 1 (signedCode 1 (r.shifts.getD k 0)) :=
  stripField r (7 + k) (by interval_cases k <;> rfl) (by interval_cases k <;> rfl)

theorem stripField_seam {k : Nat} (h : k < 8) :
    FieldAt (stripFields r) (34 + 2 * k) 2 (unsignedCode 2 ((r.seams.getD k none).getD 0)) :=
  stripField r (19 + k) (by interval_cases k <;> rfl) (by interval_cases k <;> rfl)

theorem stripBytes_index (h : r.index < 256) : bytesNat (stripBytes r) 0 1 = r.index := by
  rw [stripBytes_eq]
  exact bytesNat_field_of_lt _ (stripField r 0 rfl rfl) h

theorem stripBytes_presence {i : Nat} (h : i < 8) : ((stripBytes r).getD 1 0).getLsbD i =
    [r.correction.isSome, r.closure.isSome].getD i false := by
  rw [stripBytes_eq]
  exact getLsbD_byte _ (stripPresence_eq r ▸ stripField r 1 rfl rfl) h

theorem stripBytes_flags {i : Nat} (h : i < 16) : (BitVec.ofNat 16 (bytesNat (stripBytes r) 2 2)).getLsbD i =
    [r.flags.motionOnly, r.flags.frame.extrapolated, r.flags.frame.trackShort, r.flags.frame.gap,
      r.flags.frame.rateSat, r.flags.frame.pitchClamp, r.flags.frame.rsClamp, r.flags.detached, r.flags.closing,
      r.flags.closurePoor, r.flags.wrapped].getD i false := by
  rw [stripBytes_eq]
  exact getLsbD_field _ (stripFlagBits_eq r.flags ▸ stripField r 2 rfl rfl) h

theorem stripBytes_seq : bytesNat (stripBytes r) 4 2 = r.seq.toNat := by
  rw [stripBytes_eq]
  exact bytesNat_field_of_lt _ (stripField r 3 rfl rfl) r.seq.isLt

theorem stripBytes_tRef : bytesNat (stripBytes r) 6 4 = r.tRef.toNat := by
  rw [stripBytes_eq]
  exact bytesNat_field_of_lt _ (stripField r 4 rfl rfl) r.tRef.isLt

theorem stripBytes_signed : ∀ f ∈ [(10, 4, r.xC), (14, 2, r.yP), (24, 4, r.prevFront), (28, 4, r.newFront),
      (50, 1, (r.correction.map Prod.fst).getD 0), (51, 1, (r.correction.map Prod.snd).getD 0),
      (54, 1, (r.closure.map Prod.fst).getD 0), (55, 1, (r.closure.map Prod.snd).getD 0)],
    fitsSigned f.2.1 f.2.2 → signedAt (stripBytes r) f.1 f.2.1 = f.2.2 := by
  rw [stripBytes_eq]
  simp only [List.forall_mem_cons]
  exact ⟨signedAt_field _ (stripField r 5 rfl rfl), signedAt_field _ (stripField r 6 rfl rfl),
    signedAt_field _ (stripField r 15 rfl rfl), signedAt_field _ (stripField r 16 rfl rfl),
    signedAt_field _ (stripField r 27 rfl rfl), signedAt_field _ (stripField r 28 rfl rfl),
    signedAt_field _ (stripField r 31 rfl rfl), signedAt_field _ (stripField r 32 rfl rfl), List.forall_mem_nil _⟩

theorem stripBytes_shift {k : Nat} (h : k < 8) (fits : fitsSigned 1 (r.shifts.getD k 0)) :
    signedAt (stripBytes r) (16 + k) 1 = r.shifts.getD k 0 := by
  rw [stripBytes_eq]
  exact signedAt_field _ (stripField_shift r h) fits

theorem stripBytes_seamMark {k : Nat} (h : k < 8) :
    ((stripBytes r).getD 32 0).getLsbD k = (r.seams.getD k none).isSome := by
  rw [stripBytes_eq, getLsbD_byte _ (seamPresence_eq r.seams ▸ stripField r 17 rfl rfl) h, List.getD_eq_getElem?_getD,
    List.getElem?_map, List.getElem?_range h]
  rfl

theorem stripBytes_seam {k : Nat} (h : k < 8) (low : 0 ≤ (r.seams.getD k none).getD 0)
    (high : (r.seams.getD k none).getD 0 < 65536) :
    (bytesNat (stripBytes r) (34 + 2 * k) 2 : Int) = (r.seams.getD k none).getD 0 := by
  rw [stripBytes_eq]
  exact bytesNat_unsigned _ (stripField_seam r h) low high

theorem stripBytes_byte33 : (stripBytes r).getD 33 0 = 0 := by
  rw [stripBytes_eq]
  exact getD_field _ (stripField r 18 rfl rfl)

theorem stripBytes_confident (h : r.confident < 256) : bytesNat (stripBytes r) 52 1 = r.confident := by
  rw [stripBytes_eq]
  exact bytesNat_field_of_lt _ (stripField r 29 rfl rfl) h

theorem stripBytes_inliers (h : r.inliers < 256) : bytesNat (stripBytes r) 53 1 = r.inliers := by
  rw [stripBytes_eq]
  exact bytesNat_field_of_lt _ (stripField r 30 rfl rfl) h

theorem stripBytes_spare {i : Nat} (h : 56 ≤ i) : (stripBytes r).getD i 0 = 0 := by
  rw [stripBytes_eq]
  exact getD_spare 8 (by rw [fieldBytes_length, stripFields_widths]; exact h)

end Strip

/-! ## The guide record (R127, R128) -/

/-- The fields of the guide record before its two spare bytes. -/
def guideFields (g : GuideRecord) : List (Nat × Nat) :=
  let correction := g.last.bind LastCorrection.correction
  [(2, g.count.toNat), (2, g.seq.toNat), (1, directionCode g.direction), (1, speedCode g.speed), (1, guideMarks g),
    (1, motionCode g.motion), (4, signedCode 4 g.advance), (4, signedCode 4 g.overlap), (2, signedCode 2 g.yP),
    (1, g.margin), (1, 0), (2, signedCode 2 g.progress), (2, unsignedCode 2 g.target), (2, frameFlagBits g.flags),
    (1, signedCode 1 ((correction.map Prod.fst).getD 0)), (1, signedCode 1 ((correction.map Prod.snd).getD 0)),
    (1, (g.last.map LastCorrection.confident).getD 0), (1, (g.last.map LastCorrection.inliers).getD 0)]

/-- The lengths of those fields. -/
def guideWidths : List Nat := [2, 2, 1, 1, 1, 1, 4, 4, 2, 1, 1, 2, 2, 2, 1, 1, 1, 1]

theorem guideFields_widths (g : GuideRecord) : (guideFields g).map Prod.fst = guideWidths := rfl

theorem guideBytes_eq (g : GuideRecord) : guideBytes g = fieldBytes (guideFields g) ++ List.replicate 2 0 := by
  simp only [guideBytes, guideFields, fieldBytes, optSigned, signedField_eq, unsignedField_eq, spareByte_eq,
    List.flatMap_cons, List.flatMap_nil, List.append_nil, List.append_assoc]
  rfl

section Guide

variable (g : GuideRecord)

theorem guideField (i : Nat) {pos n v : Nat} (hi : (guideFields g)[i]? = some (n, v))
    (start : (guideWidths.take i).sum = pos) : FieldAt (guideFields g) pos n v :=
  .of_index (guideFields_widths g) i hi start

theorem guideBytes_length : (guideBytes g).length = 32 := by
  rw [guideBytes_eq, List.length_append, fieldBytes_length, guideFields_widths]
  rfl

theorem guideBytes_count : bytesNat (guideBytes g) 0 2 = g.count.toNat := by
  rw [guideBytes_eq]
  exact bytesNat_field_of_lt _ (guideField g 0 rfl rfl) g.count.isLt

theorem guideBytes_seq : bytesNat (guideBytes g) 2 2 = g.seq.toNat := by
  rw [guideBytes_eq]
  exact bytesNat_field_of_lt _ (guideField g 1 rfl rfl) g.seq.isLt

theorem guideMarks_eq : guideMarks g =
    flagWord [g.guideMark, g.last.isSome, (g.last.bind LastCorrection.correction).isSome] := by
  cases h : g.last with
  | none => simp [guideMarks, h, flagBit_eq, flagWord]
  | some l =>
    simp only [guideMarks, h, flagBit_eq, flagWord, Option.bind_some]
    ring

theorem guideBytes_marks {i : Nat} (h : i < 8) : ((guideBytes g).getD 6 0).getLsbD i =
    [g.guideMark, g.last.isSome, (g.last.bind LastCorrection.correction).isSome].getD i false := by
  rw [guideBytes_eq]
  exact getLsbD_byte _ (guideMarks_eq g ▸ guideField g 4 rfl rfl) h

theorem guideBytes_flags {i : Nat} (h : i < 16) : (BitVec.ofNat 16 (bytesNat (guideBytes g) 24 2)).getLsbD i =
    [false, g.flags.extrapolated, g.flags.trackShort, g.flags.gap, g.flags.rateSat, g.flags.pitchClamp,
      g.flags.rsClamp].getD i false := by
  rw [guideBytes_eq]
  exact getLsbD_field _ (frameFlagBits_eq g.flags ▸ guideField g 13 rfl rfl) h

theorem guideBytes_direction : (guideBytes g).getD 4 0 = BitVec.ofNat 8 (directionCode g.direction) := by
  rw [guideBytes_eq]
  exact getD_field _ (guideField g 2 rfl rfl)

theorem guideBytes_speed : (guideBytes g).getD 5 0 = BitVec.ofNat 8 (speedCode g.speed) := by
  rw [guideBytes_eq]
  exact getD_field _ (guideField g 3 rfl rfl)

theorem guideBytes_motion : (guideBytes g).getD 7 0 = BitVec.ofNat 8 (motionCode g.motion) := by
  rw [guideBytes_eq]
  exact getD_field _ (guideField g 5 rfl rfl)

theorem guideBytes_margin (h : g.margin < 256) : bytesNat (guideBytes g) 18 1 = g.margin := by
  rw [guideBytes_eq]
  exact bytesNat_field_of_lt _ (guideField g 9 rfl rfl) h

theorem guideBytes_byte19 : (guideBytes g).getD 19 0 = 0 := by
  rw [guideBytes_eq]
  exact getD_field _ (guideField g 10 rfl rfl)

theorem guideBytes_target (low : 0 ≤ g.target) (high : g.target < 65536) :
    (bytesNat (guideBytes g) 22 2 : Int) = g.target := by
  rw [guideBytes_eq]
  exact bytesNat_unsigned _ (guideField g 12 rfl rfl) low high

theorem guideBytes_signed : ∀ f ∈ [(8, 4, g.advance), (12, 4, g.overlap), (16, 2, g.yP), (20, 2, g.progress),
      (26, 1, ((g.last.bind LastCorrection.correction).map Prod.fst).getD 0),
      (27, 1, ((g.last.bind LastCorrection.correction).map Prod.snd).getD 0)],
    fitsSigned f.2.1 f.2.2 → signedAt (guideBytes g) f.1 f.2.1 = f.2.2 := by
  rw [guideBytes_eq]
  simp only [List.forall_mem_cons]
  exact ⟨signedAt_field _ (guideField g 6 rfl rfl), signedAt_field _ (guideField g 7 rfl rfl),
    signedAt_field _ (guideField g 8 rfl rfl), signedAt_field _ (guideField g 11 rfl rfl),
    signedAt_field _ (guideField g 14 rfl rfl), signedAt_field _ (guideField g 15 rfl rfl), List.forall_mem_nil _⟩

/-- The counts of the last correction, shown as 0 with none. -/
theorem guideField_counts : FieldAt (guideFields g) 28 1 ((g.last.map LastCorrection.confident).getD 0) ∧
    FieldAt (guideFields g) 29 1 ((g.last.map LastCorrection.inliers).getD 0) :=
  ⟨guideField g 16 rfl rfl, guideField g 17 rfl rfl⟩

theorem guideBytes_counts {l : LastCorrection} (h : g.last = some l) :
    (l.confident < 256 → bytesNat (guideBytes g) 28 1 = l.confident) ∧
      (l.inliers < 256 → bytesNat (guideBytes g) 29 1 = l.inliers) := by
  obtain ⟨confident, inliers⟩ := guideField_counts g
  rw [h] at confident inliers
  rw [guideBytes_eq]
  exact ⟨bytesNat_field_of_lt _ confident, bytesNat_field_of_lt _ inliers⟩

theorem guideBytes_noCounts (h : g.last = none) : (guideBytes g).getD 28 0 = 0 ∧ (guideBytes g).getD 29 0 = 0 := by
  obtain ⟨confident, inliers⟩ := guideField_counts g
  rw [h] at confident inliers
  rw [guideBytes_eq]
  exact ⟨getD_field _ confident, getD_field _ inliers⟩

theorem guideBytes_spare {i : Nat} (h : 30 ≤ i) : (guideBytes g).getD i 0 = 0 := by
  rw [guideBytes_eq]
  exact getD_spare 2 (by rw [fieldBytes_length, guideFields_widths]; exact h)

end Guide

end Sys2Proof.Machine
end

section
/-! SUPPORT. A request message read, and the request taken, held or answered, with O51 from them and the records'
layouts (R148 to R159, R184). -/

namespace Sys2Proof.Machine

/-! ## The message (R184) -/

section Message

variable (m : BitVec 40)

theorem getLsbD_iff (i : Nat) : m.getLsbD i = true ↔ m.toNat / 2 ^ i % 2 = 1 := by
  rw [← BitVec.testBit_toNat, Nat.testBit_eq_decide_div_mod_eq, decide_eq_true_iff]

theorem requestActive_iff : requestActive m = true ↔ m.toNat / 2 ^ 38 % 2 = 1 := getLsbD_iff m 38

theorem parseRequest_kind : (parseRequest m).kind = kindOf (m.toNat / 2 ^ 35 % 8) := by
  simp [parseRequest, BitVec.extractLsb'_toNat, Nat.shiftRight_eq_div_pow]

theorem parseRequest_again : (parseRequest m).again = true ↔
    m.toNat / 2 ^ 34 % 2 = 1 ∧ ((parseRequest m).kind = .preview ∨ (parseRequest m).kind = .guide) := by
  rw [← getLsbD_iff, parseRequest, Bool.and_eq_true, decide_eq_true_iff]

theorem parseRequest_first : (parseRequest m).first = m.toNat / 2 ^ 16 % 2 ^ 16 := by
  simp [parseRequest, BitVec.extractLsb'_toNat, Nat.shiftRight_eq_div_pow]

theorem parseRequest_count : (parseRequest m).count = m.toNat % 2 ^ 16 := by
  simp [parseRequest, BitVec.extractLsb'_toNat]

end Message

/-! ## A message ends (R148) -/

/-- The line is idle again. -/
def lineIdle (r : Requester) (s : State) : State := setSide r { sideOf s.fetch r with line := .idle } s

section Line

variable {r : Requester} {s : State}

theorem sideOf_lineIdle : sideOf (lineIdle r s).fetch r = { sideOf s.fetch r with line := .idle } := by
  simp [lineIdle]

variable {m : BitVec 40}

theorem exec_fetchRequest (active : requestActive m = true) :
    exec (.fetchRequest r m) s = .next (settle false false (messageArrives r m s)) :=
  congrArg Host.Outcome.next (if_pos active)

theorem messageArrives_of_ignored (h : (sideOf s.fetch r).line = .ignored) : messageArrives r m s = lineIdle r s := by
  simp only [messageArrives, h]
  rfl

theorem messageArrives_of_shifting (h : (sideOf s.fetch r).line = .shifting) (running : s.sweep.state ≠ .init)
    (active : requestActive m = true) : messageArrives r m s = requestArrives r (parseRequest m) (lineIdle r s) := by
  simp only [messageArrives, h, if_neg running, if_pos active]
  rfl

end Line

/-! ## A request held or taken (R150) -/

section Request

variable {r : Requester} {s : State} (q : FetchReq)

theorem requestArrives_of_transfer {x : Transfer} (h : (sideOf s.fetch r).transfer = some x) :
    requestArrives r q s = setSide r { sideOf s.fetch r with held := some (q, false) } s := by
  simp only [requestArrives, h]

theorem requestArrives_of_free (h : (sideOf s.fetch r).transfer = none) :
    requestArrives r q s = takeRequest r q false s := by
  simp only [requestArrives, h]

theorem requestArrives_line : (sideOf (requestArrives r q s).fetch r).line = (sideOf s.fetch r).line := by
  unfold requestArrives
  dsimp only
  split
  · exact takeRequest_line ..
  · simp

variable (r s)

/-- The transfer that a request begins. -/
def begun : Transfer := ⟨q, firstItem q, 0, [], 0, false, none, 0⟩

/-- A requester's side once a request is its transfer, before its checks. -/
def begunSide : PortSide :=
  { sideOf s.fetch r with transfer := some (begun q), phase := .preparing, waitStart := none }

theorem takeRequest_of_error {status : BurstStatus} (h : checkRequest s q false = some status) :
    takeRequest r q false s = endWith r status q.first (setSide r (begunSide r s q) s) := by
  simp only [takeRequest, h]
  rfl

theorem takeRequest_of_pass (h : checkRequest s q false = none) :
    takeRequest r q false s = serveNext r (setSide r (begunSide r s q) s) := by
  simp only [takeRequest, h]
  rfl

end Request

/-! ## The first item (R154, R157, R158) -/

section FirstItem

variable {s : State} {r : Requester} {x : Transfer}

theorem testItem_of_guide (kind : x.req.kind = .guide) : testItem s r x = .ready := by
  cases r <;> simp [testItem, itemReady, kind]

/-- A strip record that exists is ready for either requester. -/
theorem testItem_of_record {record : StripRecord} (kind : x.req.kind = .strips)
    (h : s.comp.strips[x.item]? = some record) : testItem s r x = .ready := by
  obtain ⟨inTable, -⟩ := List.getElem?_eq_some_iff.mp h
  cases r <;> simp [testItem, itemReady, kind, inTable]

theorem testItem_of_noRecord (kind : x.req.kind = .strips) (h : s.comp.strips.length ≤ x.item) :
    testItem s .r1 x = .range := by
  simp [testItem, kind, h]

theorem testItem_of_memory (kind : memoryKind x.req.kind = true)
    (h : r = .r1 ∨ itemReady s x.req.kind x.item = true) : testItem s r x = .ready := by
  have noStrip : x.req.kind ≠ .strips := by rintro strip; simp [strip, memoryKind] at kind
  cases r with
  | r0 => simp_all [testItem]
  | r1 => simp [testItem, noStrip]

theorem testItem_of_notReady (h : itemReady s x.req.kind x.item = false)
    (later : ¬(x.req.kind = .strips ∧ s.sweep.state = .done)) : testItem s .r0 x = .stall := by
  simp [testItem, h, later]

end FirstItem

/-! ## The first burst (R153, R154) -/

section FirstBurst

variable {s : State} {r : Requester} {x : Transfer}

theorem postData_posted (bytes : List Byte) : (sideOf (postData r x bytes s).fetch r).posted =
    some ⟨r, dataStatus s.sweepCfg x bytes.length, x.item, bytes⟩ := by
  simp [postData]

theorem prepareBurst_of_memory (kind : memoryKind x.req.kind = true) : prepareBurst r x s =
    setSide r { sideOf s.fetch r with
      transfer := some { x with inHand := [], asked := 0, tested := true }, phase := .preparing } s := by
  cases h : x.req.kind <;> simp_all [prepareBurst, memoryKind]

theorem prepareBurst_of_strips (kind : x.req.kind = .strips) :
    prepareBurst r x s = postData r x (stripItem s x.item) s := by
  simp [prepareBurst, kind]

theorem prepareBurst_of_guide (kind : x.req.kind = .guide) :
    prepareBurst r x s = postData r x (guideBytes s.comp.guide) s := by
  simp [prepareBurst, kind]

variable (held : (sideOf s.fetch r).transfer = some x)
include held

theorem serveNext_of_ready (h : testItem s r x = .ready) : serveNext r s = prepareBurst r x s := by
  simp [serveNext, held, h]

variable (untested : x.tested = false)
include untested

theorem serveNext_of_stall (h : testItem s r x = .stall) : serveNext r s = startStall r x s := by
  simp [serveNext, held, untested, h]

theorem serveNext_of_range (h : testItem s r x = .range) : serveNext r s = endWith r .errorRange x.item s := by
  simp [serveNext, held, untested, h]

end FirstBurst

/-! ## A request taken, once everything has settled -/

section Taken

variable {r : Requester} {s : State} {q : FetchReq}

theorem settle_takeRequest_of_error {status : BurstStatus} (h : checkRequest s q false = some status) :
    burstOf (settle false false (takeRequest r q false s)).fetch r = some ⟨r, status, q.first, []⟩ := by
  rw [takeRequest_of_error r s q h]
  exact settle_burst _ _ (by rw [sideOf_endWith, if_pos rfl]; rfl) rfl

variable (pass : checkRequest s q false = none)
include pass

theorem takeRequest_of_ready (h : testItem s r (begun q) = .ready) :
    takeRequest r q false s = prepareBurst r (begun q) (setSide r (begunSide r s q) s) := by
  rw [takeRequest_of_pass r s q pass, serveNext_of_ready (by rw [sideOf_setSide, if_pos rfl]; rfl)]
  rwa [testItem_of_onlyPort (setSide_only ..).port]

/-- The guide record is sent whole (R153). -/
theorem settle_takeRequest_of_guide (kind : q.kind = .guide) :
    burstOf (settle false false (takeRequest r q false s)).fetch r =
      some ⟨r, .dataLast, 0, guideBytes s.comp.guide⟩ := by
  rw [takeRequest_of_ready pass (testItem_of_guide kind), prepareBurst_of_guide kind, setSide_comp]
  refine settle_burst _ _ ((postData_posted _).trans ?_) rfl
  simp [dataStatus, begun, firstItem, kind]

/-- A passed request asks for items. -/
theorem count_pos_of_pass (kind : q.kind ≠ .guide) : q.count ≠ 0 := by
  rintro none
  simp only [checkRequest, none, if_neg kind, or_true, if_true, Bool.false_eq_true, if_false] at pass
  split at pass <;> cases pass

/-- A strip record that exists is sent whole (R153, R155). -/
theorem settle_takeRequest_of_record {record : StripRecord} (kind : q.kind = .strips)
    (h : s.comp.strips[q.first]? = some record) :
    burstOf (settle false false (takeRequest r q false s)).fetch r =
      some ⟨r, if q.count = 1 then .dataLast else .data, q.first, stripBytes record⟩ := by
  have first : (begun q).item = q.first := by simp [begun, firstItem, kind]
  have asked := count_pos_of_pass pass (by simp [kind])
  have last : q.first + q.count ≤ q.first + 1 ↔ q.count = 1 := by omega
  rw [takeRequest_of_ready pass (testItem_of_record kind (by rwa [first])), prepareBurst_of_strips kind]
  refine settle_burst _ _ ((postData_posted _).trans ?_) rfl
  rw [stripItem_of_onlyPort (setSide_only ..).port, first]
  simp [stripItem, h, dataStatus, begun, firstItem, kind, itemSize, stripBytes_length, last]

/-- A strip that does not exist ends requester 1's transfer (R158). -/
theorem settle_takeRequest_of_noRecord (kind : q.kind = .strips) (h : s.comp.strips.length ≤ q.first) :
    burstOf (settle false false (takeRequest .r1 q false s)).fetch .r1 = some ⟨.r1, .errorRange, q.first, []⟩ := by
  have first : (begun q).item = q.first := by simp [begun, firstItem, kind]
  rw [takeRequest_of_pass _ s q pass,
    serveNext_of_range (x := begun q) (by rw [sideOf_setSide, if_pos rfl]; rfl) rfl, first]
  · exact settle_burst _ _ (by rw [sideOf_endWith, if_pos rfl]; rfl) rfl
  · rw [testItem_of_onlyPort (setSide_only ..).port]
    exact testItem_of_noRecord kind (by rwa [first])

/-- A canvas or preview item that is ready is prepared (R154). -/
theorem settle_takeRequest_of_memory (kind : memoryKind q.kind = true)
    (h : r = .r1 ∨ itemReady s q.kind q.first = true) (free : (sideOf s.fetch r).posted = none) :
    (sideOf (settle false false (takeRequest r q false s)).fetch r).phase = .preparing ∧
      (sideOf (settle false false (takeRequest r q false s)).fetch r).waitStart = none := by
  have first : (begun q).item = q.first := by
    rw [begun, firstItem, if_neg]; rintro guide; simp [guide, memoryKind] at kind
  rw [takeRequest_of_ready pass (testItem_of_memory kind (by rwa [first])), prepareBurst_of_memory kind]
  obtain ⟨-, -, wait, -⟩ := (settle_settlesTo false false _).side r
  exact ⟨(settle_phase r _ (by simpa [begunSide] using free)).trans (by simp), wait.trans (by simp [begunSide])⟩

/-- An item of requester 0 that is not ready stalls (R159, R160). -/
theorem settle_takeRequest_of_notReady (kind : q.kind ≠ .guide) (h : itemReady s q.kind q.first = false)
    (later : ¬(q.kind = .strips ∧ s.sweep.state = .done)) :
    burstOf (settle false false (takeRequest .r0 q false s)).fetch .r0 = some ⟨.r0, .waiting, q.first, []⟩ ∧
      (sideOf (settle false false (takeRequest .r0 q false s)).fetch .r0).waitStart = some s.timeBase ∧
      (sideOf (settle false false (takeRequest .r0 q false s)).fetch .r0).stallLimit = s.config.fetchWaitLimit := by
  have first : (begun q).item = q.first := by simp [begun, firstItem, kind]
  rw [takeRequest_of_pass _ s q pass, serveNext_of_stall (x := begun q) (by rw [sideOf_setSide, if_pos rfl]; rfl) rfl]
  · obtain ⟨-, -, wait, limit, -⟩ := (settle_settlesTo false false (startStall .r0 (begun q) _)).side .r0
    exact ⟨settle_burst _ _ (by simp [startStall, first]) rfl, wait.trans (by simp [startStall]),
      limit.trans (by simp [startStall])⟩
  · rw [testItem_of_onlyPort (setSide_only ..).port]
    exact testItem_of_notReady (by rwa [first]) later

end Taken

theorem checkRequest_lineIdle (r : Requester) (s : State) (q : FetchReq) (stale : Bool) :
    checkRequest (lineIdle r s) q stale = checkRequest s q stale := by
  cases r <;> rfl

theorem itemReady_lineIdle (r : Requester) (s : State) (kind : FetchKind) (item : Nat) :
    itemReady (lineIdle r s) kind item = itemReady s kind item := by
  cases r <;> rfl

/-! ## The statement -/

/-- The answers to a request taken, as seen from before its message ended. -/
theorem settle_takeRequest_lineIdle {s : State} {r : Requester} {q : FetchReq} (t : State)
    (taken : t = settle false false (takeRequest r q false (lineIdle r s))) (free : (sideOf s.fetch r).posted = none) :
    (sideOf t.fetch r).transfer.map Transfer.req = some q ∧
    (∀ status, checkRequest s q false = some status → burstOf t.fetch r = some ⟨r, status, q.first, []⟩) ∧
    (checkRequest s q false = none →
      (q.kind = .guide → burstOf t.fetch r = some ⟨r, .dataLast, 0, guideBytes s.comp.guide⟩) ∧
      (q.kind = .strips →
        (∀ record, s.comp.strips[q.first]? = some record →
          burstOf t.fetch r = some ⟨r, if q.count = 1 then .dataLast else .data, q.first, stripBytes record⟩) ∧
        (r = .r1 → s.comp.strips.length ≤ q.first → burstOf t.fetch r = some ⟨r, .errorRange, q.first, []⟩)) ∧
      (memoryKind q.kind = true → (r = .r1 ∨ itemReady s q.kind q.first = true) →
        (sideOf t.fetch r).phase = .preparing ∧ (sideOf t.fetch r).waitStart = none) ∧
      (q.kind ≠ .guide → r = .r0 → itemReady s q.kind q.first = false → ¬(q.kind = .strips ∧ s.sweep.state = .done) →
        burstOf t.fetch r = some ⟨r, .waiting, q.first, []⟩ ∧ (sideOf t.fetch r).waitStart = some s.timeBase ∧
          (sideOf t.fetch r).stallLimit = s.config.fetchWaitLimit)) := by
  subst taken
  have comp : (lineIdle r s).comp = s.comp := setSide_comp ..
  have sweep : (lineIdle r s).sweep = s.sweep := setSide_sweep ..
  rw [← checkRequest_lineIdle r, ← itemReady_lineIdle r, ← comp, ← sweep]
  obtain ⟨req, -⟩ := (settle_settlesTo false false (takeRequest r q false (lineIdle r s))).side r
  refine ⟨req.trans (takeRequest_req ..), fun _ => settle_takeRequest_of_error, fun pass =>
    ⟨settle_takeRequest_of_guide pass, fun kind => ⟨fun _ => settle_takeRequest_of_record pass kind, ?_⟩,
      fun kind ready => settle_takeRequest_of_memory pass kind ready (by simpa [sideOf_lineIdle] using free), ?_⟩⟩
  · rintro rfl
    exact settle_takeRequest_of_noRecord pass kind
  · rintro kind rfl
    exact settle_takeRequest_of_notReady pass kind

/-- Settles O51: the message field by field, the records by their layouts, and a request that ends on a shifting line by
`requestArrives_of_transfer` where a transfer holds it and `settle_takeRequest_lineIdle` where it is taken. -/
theorem fetchRequestIsTakenOrHeld : Obligations.FetchRequestIsTakenOrHeld := by
  refine ⟨?_, ?_, ?_, ?_, ?_⟩
  · rintro m _ _ rfl rfl
    refine ⟨requestActive_iff m, ?_, parseRequest_again m, parseRequest_first m, parseRequest_count m⟩
    rw [parseRequest_kind]
    generalize m.toNat / 2 ^ 35 % 8 = code
    rfl
  · intro r p record
    rw [record]
    refine ⟨stripBytes_length r, stripBytes_index r, fun i => stripBytes_presence r, fun i => stripBytes_flags r,
      stripBytes_seq r, stripBytes_tRef r, stripBytes_signed r, fun k hk => ⟨stripBytes_shift r hk,
        stripBytes_seamMark r hk, fun v hv low high => ?_⟩,
      stripBytes_byte33 r, stripBytes_confident r, stripBytes_inliers r, fun i => stripBytes_spare r⟩
    subst hv
    exact stripBytes_seam r hk low high
  · intro g p last record shown
    have correction : last = g.last.bind LastCorrection.correction := by rw [shown]; cases g.last <;> rfl
    rw [record, correction]
    refine ⟨guideBytes_length g, guideBytes_count g, guideBytes_seq g, ?_, ?_, fun i => guideBytes_marks g, ?_,
      guideBytes_signed g, guideBytes_margin g, guideBytes_byte19 g, guideBytes_target g, fun i => guideBytes_flags g,
      fun l => guideBytes_counts g, guideBytes_noCounts g, fun i => guideBytes_spare g⟩
    · rw [guideBytes_direction]; cases g.direction <;> rfl
    · rw [guideBytes_speed]; cases g.speed <;> rfl
    · rw [guideBytes_motion]; cases g.motion <;> rfl
  · intro s r idle
    exact congrArg Host.Outcome.next (by simp only [idle])
  · rintro s r m _ active rfl running
    refine ⟨fun ignored => ⟨_, exec_fetchRequest active, ?_⟩, fun shifting => ?_⟩
    · rw [messageArrives_of_ignored ignored]
      exact settle_settlesTo ..
    · have ends : exec (.fetchRequest r m) s =
          .next (settle false false (requestArrives r (parseRequest m) (lineIdle r s))) := by
        rw [exec_fetchRequest active, messageArrives_of_shifting shifting running active]
      have settled := settle_settlesTo false false (requestArrives r (parseRequest m) (lineIdle r s))
      obtain ⟨req, held, -, -, line⟩ := settled.side r
      refine ⟨_, ends, ((setSide_only ..).trans (requestArrives_only ..)).rest.trans settled.1,
        line.trans ((requestArrives_line _).trans (by rw [sideOf_lineIdle])), fun x hx => ?_, fun none free _ => ?_⟩
      · rw [requestArrives_of_transfer (x := x) _ (by rw [sideOf_lineIdle, hx])] at req held ⊢
        exact ⟨held.trans (by simp), req.trans (by simp [sideOf_lineIdle, hx])⟩
      · refine settle_takeRequest_lineIdle _ ?_ free
        rw [requestArrives_of_free _ (by rw [sideOf_lineIdle, none])]

end Sys2Proof.Machine
end

section
/-! SUPPORT. The enable set and ATN (R173, R176), and SET_ATTENTION with O15 from them. -/

namespace Sys2Proof.Machine

/-- ATN by the causes: some cause is both pending and enabled (R173). -/
theorem atnHigh_iff (a : Attention) :
    atnHigh a = true ↔ ∃ i, i < 7 ∧ a.pendingSet.getLsbD i = true ∧ a.enableSet.getLsbD i = true := by
  have clear : activeCauses a = 0 ↔ ∀ i, i < 7 → (activeCauses a).getLsbD i = false := by
    simp [BitVec.eq_of_getLsbD_eq_iff]
  rw [atnHigh, decide_eq_true_iff, ne_eq, clear]
  simp [activeCauses]

/-! ## SET_ATTENTION (R176) -/

theorem exec_setAttention (tag : Byte) (payload : List Byte) (s : State) :
    exec (.setAttention tag payload) s = execSetAttention tag payload s := rfl

theorem exec_setAttention_of_taken {s : State} (tag b : Byte) (taken : commandTaken s = true)
    (started : s.sweep.state ≠ .init) : exec (.setAttention tag [b]) s = .next { s with
      attn := { s.attn with enableSet := b.setWidth 7 }
      ctl := answered s.ctl 9 tag .done 0 [] } := by
  rw [exec_setAttention, execSetAttention, runCommand_of_taken taken List.length_singleton (by simp [started])]
  rfl

theorem exec_setAttention_of_init {s : State} (tag b : Byte) (taken : commandTaken s = true)
    (starting : s.sweep.state = .init) :
    exec (.setAttention tag [b]) s = .next { s with ctl := answered s.ctl 9 tag .state 0 [] } := by
  rw [exec_setAttention, execSetAttention, runCommand_of_state taken List.length_singleton (by simp [starting])]

/-! ## The enable set after a reset (R177, R178) -/

theorem powerOnState_attn (s : State) : (powerOnState s).attn = Attention.reset := rfl

theorem exec_reset_of_taken {s : State} (tag : Byte) (taken : commandTaken s = true) :
    exec (.reset tag []) s = .next (resetState tag s) :=
  congrArg Host.Outcome.next (if_pos taken)

/-- After a reset every cause but STRIP, code 7, is enabled (R176). -/
theorem reset_enableSet_getLsbD : ∀ i, i < 7 → Attention.reset.enableSet.getLsbD i = decide (i ≠ 6) := by
  decide

/-- Settles O15: the new set is the payload byte's low seven bits, ATN follows by `atnHigh_iff`, and each of the resets
leaves `Attention.reset`. -/
theorem setAttentionReplacesTheEnables : Obligations.SetAttentionReplacesTheEnables := by
  refine ⟨fun s tag b taken => ⟨fun started => ?_, exec_setAttention_of_init tag b taken⟩, fun s => ?_⟩
  · have low : ∀ i, i < 7 → (b.setWidth 7).getLsbD i = b.getLsbD i := fun i hi => by simp [hi]
    refine ⟨b.setWidth 7, exec_setAttention_of_taken tag b taken started, low, (atnHigh_iff _).trans ?_⟩
    exact exists_congr fun i => and_congr_right fun hi => by rw [low i hi]
  · have attn := congrArg Attention.enableSet (powerOnState_attn s)
    exact ⟨Attention.reset.enableSet, reset_enableSet_getLsbD, rfl, ⟨_, rfl, attn⟩, ⟨_, rfl, attn⟩,
      fun tag taken => ⟨_, exec_reset_of_taken tag taken, attn⟩⟩

end Sys2Proof.Machine
end

section
/-! SUPPORT. What every operation of the sweep and of the engine keeps, said once per operation: the accounting law
with room in its counters, and the pose ring, the windows and the integrator. -/

namespace Sys2Proof.Machine

/-! ## The relation -/

/-- The accounting law with the counters in their range (R20, R21). -/
def lawful (s : State) : Prop := accounted s ∧ s.sweep.counters.received ≤ 4294967295

/-- What the motion unit has taken of samples: the pose ring, the windows and the integrator. -/
def samplesTaken (m : Motion) : List PoseEntry × List Int × List Int × Integrator :=
  (m.ring, m.yawWindow, m.pitchWindow, m.integ)

/-- From `s` to `t` the accounting law is kept and no sample is taken or forgotten. -/
def Keeps (s t : State) : Prop := (lawful s → lawful t) ∧ samplesTaken t.motion = samplesTaken s.motion

theorem Keeps.refl (s : State) : Keeps s s := ⟨id, rfl⟩

theorem Keeps.trans {s t u : State} (h : Keeps s t) (k : Keeps t u) : Keeps s u := ⟨k.1 ∘ h.1, k.2.trans h.2⟩

/-- Both sides of the law as they were: it is kept. -/
theorem lawful_of_accounts {s t : State} (h : accounts t = accounts s) (hs : lawful s) : lawful t := by
  obtain ⟨h1, h2⟩ := Prod.mk.injEq .. ▸ h
  unfold lawful accounted at *
  omega

theorem Keeps.of_accounts {s t : State} (h : accounts t = accounts s) (hm : samplesTaken t.motion = samplesTaken s.motion) :
    Keeps s t := ⟨lawful_of_accounts h, hm⟩

/-- What touches neither the counters nor the slots nor the motion unit keeps both. -/
theorem Keeps.same {s t : State}
    (h : (t.sweep.counters, t.ingest.slots, t.motion) = (s.sweep.counters, s.ingest.slots, s.motion)) : Keeps s t := by
  simp only [Prod.mk.injEq] at h
  obtain ⟨hc, hs, hm⟩ := h
  exact .of_accounts (by unfold accounts; rw [hc, hs]) (by rw [hm])

/-- A part that keeps both may come behind one that touches neither. -/
theorem Keeps.after {s t u : State} (k : Keeps t u)
    (h : (t.sweep.counters, t.ingest.slots, t.motion) = (s.sweep.counters, s.ingest.slots, s.motion)) : Keeps s u :=
  (Keeps.same h).trans k

theorem OnlyFetch.keeps {s t : State} : OnlyFetch s t → Keeps s t := by
  rintro ⟨_, _, rfl⟩; exact .same rfl

theorem OnlyPort.keeps {s t : State} : OnlyPort s t → Keeps s t := by
  rintro ⟨_, _, _, _, _, _, _, rfl⟩; exact .same rfl

theorem settle_keeps (b m : Bool) (s : State) : Keeps s (settle b m s) := (settle_only b m s).keeps

/-! ## Slots -/

/-- An occupied slot passes to another occupied state; the rest is free to change. -/
theorem Keeps.moved {s t : State} (i : Nat) (st : SlotState) (hst : st ≠ .free)
    (h : (t.sweep.counters, t.ingest.slots, t.motion) = (s.sweep.counters, moveSlot s.ingest.slots i st, s.motion)) :
    Keeps s t := by
  simp only [Prod.mk.injEq] at h
  obtain ⟨hc, hs, hm⟩ := h
  exact .of_accounts (by unfold accounts; rw [hc, hs, occupiedSlots_moveSlot _ _ _ hst]) (by rw [hm])

theorem Keeps.afterMoved {s t u : State} (k : Keeps t u) (i : Nat) (st : SlotState) (hst : st ≠ .free)
    (h : (t.sweep.counters, t.ingest.slots, t.motion) = (s.sweep.counters, moveSlot s.ingest.slots i st, s.motion)) :
    Keeps s u := (Keeps.moved i st hst h).trans k

theorem freeSlot_keeps (i : Nat) (fate : Fate) (s : State) : Keeps s (freeSlot i fate s) := by
  refine ⟨fun h => lawful_of_accounts (accounts_freeSlot i fate s fun ho => ?_) h, by unfold freeSlot; split <;> rfl⟩
  have := occupiedSlots_freed s.ingest.slots i ho
  unfold lawful accounted at h
  omega

theorem discardSlots_keeps (s : State) : Keeps s (discardSlots s) := by
  refine ⟨fun h => lawful_of_accounts (accounts_discardSlots s ?_) h, rfl⟩
  unfold lawful accounted at h
  omega

/-! ## The sweep controller -/

theorem dropEngine_keeps (u : EngineUnit) (s : State) : Keeps s (dropEngine u s) := .same rfl

theorem engineHalt_keeps (s : State) : Keeps s (engineHalt s) := by
  unfold engineHalt; dsimp only; split <;> exact .same rfl

theorem compositorStop_keeps (s : State) : Keeps s (compositorStop s) := .same rfl

theorem enterDone_keeps (s : State) : Keeps s (enterDone s) := by
  obtain ⟨_, _, h⟩ := enterDone_eq s
  rw [h]
  exact .of_accounts rfl rfl

theorem beginStrip_keeps (job : StripJob) (s : State) : Keeps s (beginStrip job s) := .same rfl

theorem handStrip0_keeps (s : State) : Keeps s (handStrip0 s) := by
  unfold handStrip0
  split
  · split <;> exact .same rfl
  · exact .refl s

theorem drainHandOver_keeps (i : Nat) (s : State) : Keeps s (drainHandOver i s) := by
  unfold drainHandOver
  refine Keeps.after ((handStrip0_keeps _).trans (.moved i .engaged (by decide) rfl)) rfl

theorem drainTest_keeps (s : State) : Keeps s (drainTest s) := by
  unfold drainTest
  split
  · split
    · exact enterDone_keeps s
    · exact drainHandOver_keeps ..
  · exact .refl s

theorem endSweep_keeps (reason : LastReason) (s : State) : Keeps s (endSweep reason s) :=
  Keeps.after ((discardSlots_keeps { s with sweep := { s.sweep with lastReason := reason } }).trans (enterDone_keeps _)) rfl

theorem takeEndRequest_keeps (reason : EndReason) (s : State) : Keeps s (takeEndRequest reason s) := by
  unfold takeEndRequest
  split
  · dsimp only
    split
    · exact (endSweep_keeps ..).after rfl
    · exact (endSweep_keeps ..).after rfl
    all_goals exact .same rfl
  · exact .refl s

/-! ## The engine's course of a frame -/

theorem placementOffer_keeps (w : Working) (a o : Int) (s : State) : Keeps s (placementOffer w a o s) := by
  unfold placementOffer; split <;> exact .same rfl

theorem recordResult_keeps (r : RegResult) (s : State) : Keeps s (recordResult r s) := by
  unfold recordResult; split <;> exact .same rfl

theorem applyPending_keeps (s : State) : Keeps s (applyPending s) := by
  unfold applyPending; split <;> exact .same rfl

theorem sendReanchor_keeps (r : Reanchor) (s : State) : Keeps s (sendReanchor r s) := by
  unfold sendReanchor; split <;> exact .same rfl

theorem releaseFrame_keeps (i : Nat) (fate : Fate) (s : State) : Keeps s (releaseFrame i fate s) :=
  (freeSlot_keeps i fate s).trans ((drainTest_keeps _).after rfl)

theorem advanceTest_keeps (job : StripJob) (s : State) : Keeps s (advanceTest job s) := by
  unfold advanceTest
  dsimp only
  split
  · exact beginStrip_keeps ..
  · exact ((applyPending_keeps _).trans (releaseFrame_keeps ..)).after rfl

theorem handOver_keeps (job : StripJob) (s : State) : Keeps s (handOver job s) := by
  unfold handOver
  split
  · exact .same rfl
  · exact advanceTest_keeps ..

theorem finishRegistration_keeps (r : RegResult) (w : Working) (s : State) : Keeps s (finishRegistration r w s) := by
  unfold finishRegistration
  dsimp only
  have h : Keeps s (recordResult r { s with
      place := { s.place with state := .passed, work := some (edgeStep s.sweepCfg r w) }
      reg := { s.reg with state := .idle } }) := (recordResult_keeps ..).after rfl
  split
  · exact h.trans (releaseFrame_keeps ..)
  · exact h.trans (handOver_keeps ..)

theorem registerFrame_keeps (w : Working) (s : State) : Keeps s (registerFrame w s) := by
  unfold registerFrame
  split
  · exact finishRegistration_keeps ..
  · exact .same rfl

theorem offerAndRegister_keeps (w : Working) (s : State) : Keeps s (offerAndRegister w s) :=
  (placementOffer_keeps ..).trans (registerFrame_keeps ..)

theorem holdOpening_keeps (w : Working) (s : State) : Keeps s (holdOpening w s) :=
  (placementOffer_keeps w 0 0 s).trans ((drainTest_keeps _).afterMoved w.slot .held (by decide) rfl)

theorem directionStep_keeps (w : Working) (s : State) : Keeps s (directionStep w s) := by
  unfold directionStep
  dsimp only
  split
  · exact (placementOffer_keeps ..).trans (releaseFrame_keeps ..)
  · split
    · exact (placementOffer_keeps ..).trans (releaseFrame_keeps ..)
    · exact (handStrip0_keeps _).after rfl

theorem afterReference_keeps (pose : PoseFound) (w : Working) (s : State) :
    Keeps s (afterReference pose w s).state := by
  unfold afterReference
  dsimp only
  split
  · exact .same rfl
  · split
    · exact directionStep_keeps ..
    · exact .refl s

theorem afterBand_keeps (k : Nat) (pose : PoseFound) (w : Working) (s : State) :
    Keeps s (afterBand k pose w s).state := by
  unfold afterBand
  dsimp only
  split
  · exact .refl s
  · split
    · exact holdOpening_keeps ..
    · exact offerAndRegister_keeps ..

theorem takeAnswer_keeps (answer : LookupAnswer) (w : Working) (s : State) :
    Keeps s (takeAnswer answer w s).state := by
  unfold takeAnswer
  split
  · exact .same rfl
  · exact offerAndRegister_keeps ..
  · split
    · exact afterReference_keeps ..
    · exact afterBand_keeps ..
    · exact .refl s
    · exact .refl s

theorem placeStep_keeps (w : Working) (s : State) : Keeps s (placeStep w s).state := by
  unfold placeStep
  split
  · exact .refl s
  · exact .refl s
  · exact takeAnswer_keeps ..
  · exact takeAnswer_keeps ..

theorem placeRun_keeps : ∀ (n : Nat) (w : Working) (s : State), Keeps s (placeRun n w s)
  | 0, _, _ => .same rfl
  | n + 1, w, s => by
    have h : Keeps s (placeStep w { s with place := { s.place with state := .placing, work := some w } }).state :=
      (placeStep_keeps ..).after rfl
    unfold placeRun
    split
    · rename_i heq; rw [heq] at h; exact h.trans (placeRun_keeps n _ _)
    · rename_i heq; rw [heq] at h; exact h

theorem takeFrame_keeps (i : Nat) (s : State) : Keeps s (takeFrame i s) := by
  unfold takeFrame
  dsimp only
  split
  · exact (releaseFrame_keeps ..).afterMoved i .engaged (by decide) rfl
  · exact (placeRun_keeps ..).afterMoved i .engaged (by decide) rfl

theorem engineGo_keeps : ∀ (n : Nat) (s : State), Keeps s (engineGo n s)
  | 0, s => .refl s
  | n + 1, s => by
    unfold engineGo
    split
    · split
      · exact .refl s
      · exact (takeFrame_keeps _ s).trans (engineGo_keeps n _)
    · exact .refl s

theorem resumePlacement_keeps (s : State) : Keeps s (resumePlacement s) := by
  unfold resumePlacement
  split
  · exact placeRun_keeps ..
  · exact .refl s

theorem entryAnnounced_keeps (s : State) : Keeps s (entryAnnounced s) := by
  unfold entryAnnounced
  split
  · split
    · exact placeRun_keeps ..
    · exact .refl s
  · exact .refl s

theorem expireWait_keeps (s : State) : Keeps s (expireWait s) := by
  unfold expireWait
  split
  · exact (placeRun_keeps ..).after rfl
  · exact .refl s

theorem completeSearch_keeps (s : State) : Keeps s (completeSearch s) := by
  unfold completeSearch
  split
  · split
    · exact ((dropEngine_keeps ..).trans (finishRegistration_keeps ..)).trans (engineGo_keeps ..)
    · exact .refl s
  · exact .refl s

/-! ## The commit and the update -/

theorem commitEnd_keeps (job : StripJob) (s : State) : Keeps s (commitEnd job s) := by
  unfold commitEnd; split <;> exact .same rfl

theorem commitCauses_keeps (job : StripJob) (s : State) : Keeps s (commitCauses job s) := by
  unfold commitCauses; dsimp only; split <;> exact .same rfl

theorem commitDrain_keeps (job : StripJob) (h : Bool) (s : State) : Keeps s (commitDrain job h s) := by
  unfold commitDrain
  split
  · exact .refl s
  · exact drainTest_keeps s

theorem resumeDeciding_keeps (s : State) : Keeps s (resumeDeciding s) := by
  unfold resumeDeciding
  split
  · split
    · exact placeRun_keeps ..
    · exact .refl s
  · exact .refl s

theorem commitComp_keeps (job : StripJob) (s : State) : Keeps s (commitComp job s) := .same rfl

theorem commitPlace_keeps (job : StripJob) (s : State) : Keeps s (commitPlace job s) := .same rfl

theorem beginUpdate_keeps (s : State) : Keeps s (beginUpdate s) := .same rfl

theorem commitStrip_keeps (job : StripJob) (s : State) : Keeps s (commitStrip job s) := by
  unfold commitStrip
  extract_lets handed s1 s2 s3
  have toComp : Keeps s s1 := (commitComp_keeps job s).trans (applyPending_keeps _)
  have toPlace : Keeps s1 s2 := (freeSlot_keeps ..).trans (commitPlace_keeps ..)
  have toStall : Keeps s2 s3 :=
    (((beginUpdate_keeps _).trans (commitCauses_keeps ..)).trans (commitEnd_keeps ..)).trans (retestStall_only _).keeps
  exact (((toComp.trans (toPlace.trans toStall)).trans (commitDrain_keeps ..)).trans (resumeDeciding_keeps _)).trans
    (engineGo_keeps ..)

theorem completeHarvest_keeps (s : State) : Keeps s (completeHarvest s) := by
  unfold completeHarvest
  split
  · split
    · exact (commitStrip_keeps ..).after rfl
    · exact .refl s
  · exact .refl s

theorem completeWrites_keeps (s : State) : Keeps s (completeWrites s) := by
  unfold completeWrites
  split
  · split
    · exact .same rfl
    · exact .refl s
  · exact .refl s

theorem completeUpdate_keeps (s : State) : Keeps s (completeUpdate s) := by
  unfold completeUpdate
  split
  · dsimp only
    split
    · exact ((advanceTest_keeps ..).trans (engineGo_keeps ..)).after rfl
    · exact .same rfl
  · exact .refl s

theorem completeClosing_keeps (s : State) : Keeps s (completeClosing s) := by
  unfold completeClosing
  split
  · exact (retestStall_only _).keeps.after rfl
  · exact .refl s

end Sys2Proof.Machine
end

section
/-! SUPPORT. What every command keeps: the accounting law, the canonical memory, the words' errors apart, the sizes of ring
and windows, and the queue of waiting commands; with O57, O59 and O56 from it. -/

namespace Sys2Proof.Machine

/-! ## The relation -/

/-- The memory's form and the words' errors are kept from one store to another. -/
def StoreKept (a b : CanvasStore) : Prop :=
  (memWf a.mem = true → memWf b.mem = true) ∧
    ((∀ w, w ∈ a.singleFlaws → w ∉ a.multiFlaws) → ∀ w, w ∈ b.singleFlaws → w ∉ b.multiFlaws)

theorem StoreKept.refl (a : CanvasStore) : StoreKept a a := ⟨id, id⟩

/-- A store with the same bytes and errors is as sound. -/
theorem StoreKept.of_words {a b : CanvasStore} (mem : b.mem = a.mem) (single : b.singleFlaws = a.singleFlaws)
    (multi : b.multiFlaws = a.multiFlaws) : StoreKept a b := by
  unfold StoreKept
  rw [mem, single, multi]
  exact ⟨id, id⟩

theorem StoreKept.of_eq {a b : CanvasStore} (h : b = a) : StoreKept a b := h ▸ .refl a

theorem StoreKept.trans {a b c : CanvasStore} (h : StoreKept a b) (k : StoreKept b c) : StoreKept a c :=
  ⟨k.1 ∘ h.1, k.2 ∘ h.2⟩

/-- What one command keeps. A frame may have been received, for which the count of received needs room. -/
structure StepKeeps (s t : State) : Prop where
  law : lawful s → s.sweep.counters.received < 4294967295 → lawful t
  track : trackSound s → trackSound t
  store : StoreKept s.store t.store
  pending : t.pending = s.pending

/-- The motion unit is as sound as what it has taken of samples. -/
theorem trackSound_of_samplesTaken {s t : State} (h : samplesTaken t.motion = samplesTaken s.motion) (hs : trackSound s) :
    trackSound t := by
  simp only [samplesTaken, Prod.mk.injEq] at h
  obtain ⟨ring, yaw, pitch, integ⟩ := h
  unfold trackSound at *
  rwa [ring, yaw, pitch, integ]

theorem Keeps.step {s t : State} (h : Keeps s t) (store : StoreKept s.store t.store) (pending : t.pending = s.pending) :
    StepKeeps s t :=
  ⟨fun law _ => h.1 law, trackSound_of_samplesTaken h.2, store, pending⟩

theorem Keeps.sweep {s t : State} (h : Keeps s t) (only : OnlySweep s t) : StepKeeps s t := by
  obtain ⟨_, _, _, _, _, _, _, _, _, rfl⟩ := only
  exact h.step (.refl _) rfl

theorem StepKeeps.refl (s : State) : StepKeeps s s := (Keeps.refl s).step (.refl _) rfl

/-- What a command does to the fetch port, to the link or to the attention unit alone keeps everything. -/
theorem StepKeeps.same {s t : State}
    (h : (t.sweep.counters, t.ingest.slots, t.motion) = (s.sweep.counters, s.ingest.slots, s.motion))
    (store : t.store = s.store) (pending : t.pending = s.pending) : StepKeeps s t :=
  (Keeps.same h).step (.of_eq store) pending

/-- A change of the store alone, of all that is spoken of here. -/
theorem StepKeeps.of_store {s t : State}
    (h : (t.sweep.counters, t.ingest.slots, t.motion) = (s.sweep.counters, s.ingest.slots, s.motion))
    (pending : t.pending = s.pending) (store : StoreKept s.store t.store) : StepKeeps s t :=
  (Keeps.same h).step store pending

theorem StepKeeps.then_keeps {s t u : State} (h : StepKeeps s t) (k : Keeps t u) (store : StoreKept t.store u.store)
    (pending : u.pending = t.pending) : StepKeeps s u :=
  ⟨fun law room => k.1 (h.law law room), trackSound_of_samplesTaken k.2 ∘ h.track, h.store.trans store,
    pending.trans h.pending⟩

theorem Keeps.stepAfter {s t u : State} (k : Keeps t u) (only : OnlySweep t u) (h : StepKeeps s t) : StepKeeps s u := by
  obtain ⟨_, _, _, _, _, _, _, _, _, rfl⟩ := only
  exact h.then_keeps k (.refl _) rfl

theorem OnlyFetch.stepAfter {s t u : State} (k : OnlyFetch t u) (h : StepKeeps s t) : StepKeeps s u :=
  k.keeps.stepAfter k.sweep h

theorem StepKeeps.settled {s t : State} (b m : Bool) (h : StepKeeps s t) : StepKeeps s (settle b m t) :=
  h.then_keeps (settle_keeps b m t) (.of_eq (settle_store ..)) (settle_pending ..)

/-- What a command answers: a next state that keeps all this, or a fault; it never refuses. -/
def Keeping (s : State) : Answer → Prop
  | .next t => StepKeeps s t
  | .fault _ => True
  | .refused _ => False

/-! ## The control link -/

theorem endTransaction_keeps (poll : Bool) (s : State) : StepKeeps s (endTransaction poll s) := .same rfl rfl rfl

theorem reply_keeps {s : State} (kind tag : Byte) (ran : Ran) (h : StepKeeps s ran.state) :
    StepKeeps s (reply kind tag ran) :=
  h.then_keeps (.same rfl) (.refl _) rfl

/-- A command keeps what its body keeps. -/
theorem runCommand_keeps (kind tag : Byte) (length : Nat) (takenIn : SweepState → Bool) (payload : List Byte)
    {body : State → Ran} (s : State) (h : ∀ t, StepKeeps t (body t).state) :
    Keeping s (.next (runCommand kind tag length takenIn payload body s)) := by
  have taken : StepKeeps s (takeSlot kind tag s) := .same rfl rfl rfl
  have ran : StepKeeps s (body (takeSlot kind tag s)).state := by
    obtain ⟨law, track, store, pending⟩ := h (takeSlot kind tag s)
    exact ⟨law, track, store, pending⟩
  show StepKeeps s (runCommand ..)
  unfold runCommand
  dsimp only
  split
  · split
    · exact reply_keeps _ _ _ taken
    · exact reply_keeps _ _ _ ran
  · exact endTransaction_keeps ..

/-! ## Power-on, start-up and self-test -/

theorem powerOnState_keeps (s : State) : StepKeeps s (powerOnState s) where
  law _ _ := ⟨rfl, Nat.zero_le _⟩
  track _ := ⟨Nat.zero_le _, Nat.zero_le _, Nat.zero_le _, fun _ => ⟨rfl, rfl⟩⟩
  store := .of_words rfl rfl rfl
  pending := rfl

theorem finishCommand_keeps (payload : List Byte) (s : State) : Keeps s (finishCommand payload s) := by
  unfold finishCommand; split <;> exact .same rfl

theorem finishCommand_store (payload : List Byte) (s : State) : (finishCommand payload s).store = s.store := by
  unfold finishCommand; split <;> rfl

theorem finishCommand_pending (payload : List Byte) (s : State) : (finishCommand payload s).pending = s.pending := by
  unfold finishCommand; split <;> rfl

theorem StepKeeps.then_finish {s t : State} (payload : List Byte) (h : StepKeeps s t) :
    StepKeeps s (finishCommand payload t) :=
  h.then_keeps (finishCommand_keeps ..) (.of_eq (finishCommand_store ..)) (finishCommand_pending ..)

theorem execDramInitialised_keeps (strap : Bool) (s : State) : Keeping s (execDramInitialised strap s) := by
  have wiped : StepKeeps s { s with store := { s.store with mem := [], singleFlaws := [], multiFlaws := [] } } :=
    ⟨fun law _ => law, id, ⟨fun _ => rfl, fun _ _ h => absurd h List.not_mem_nil⟩, rfl⟩
  show StepKeeps s (if _ then _ else _)
  split
  · dsimp only
    split
    · refine StepKeeps.settled _ _ (StepKeeps.then_keeps (wiped.then_finish []) (.same rfl) (.refl _) rfl)
    · exact (wiped.then_finish []).then_keeps (.same rfl) (.refl _) rfl
  · exact .refl s

/-- Setting every flag leaves the bytes and their errors; the flags' lists are kept out of the kernel's sight. -/
theorem setAllFlags_kept (c : CanvasStore) : StoreKept c (setAllFlags c) := by
  unfold setAllFlags
  generalize List.range coverageFlags = coverage
  generalize List.range computedFlags = computed
  exact .of_words rfl rfl rfl

theorem clearAllFlags_kept (c : CanvasStore) : StoreKept c (clearAllFlags c) := .of_words rfl rfl rfl

theorem testTraces_motion (outcome : Nat) (s : State) : (testTraces outcome s).motion =
    if testRan 4 outcome then { s.motion with integ := Integrator.zero, ring := [] } else s.motion := rfl

theorem testTraces_keeps (outcome : Nat) (s : State) : StepKeeps s (testTraces outcome s) where
  law h _ := by rwa [lawful, accounted, testTraces_sweep, testTraces_ingest]
  track := by
    rintro ⟨ring, yaw, pitch, zero⟩
    rw [trackSound, testTraces_motion]
    split
    · exact ⟨Nat.zero_le _, yaw, pitch, fun _ => ⟨rfl, rfl⟩⟩
    · exact ⟨ring, yaw, pitch, zero⟩
  store := by
    rw [testTraces_store]
    split
    · exact (setAllFlags_kept _).trans (clearAllFlags_kept _)
    · exact .refl _
  pending := testTraces_pending s outcome

theorem endTests_keeps (outcome : Nat) (s : State) : StepKeeps s (endTests outcome s) := by
  have traces : StepKeeps s (testTraces outcome (dropSelf s)) := by
    obtain ⟨law, track, store, pending⟩ := testTraces_keeps outcome (dropSelf s)
    exact ⟨law, track, store, pending⟩
  unfold endTests
  dsimp only
  split <;> exact StepKeeps.then_finish _ (traces.then_keeps (.same rfl) ⟨id, id⟩ rfl)

theorem execSelftestComplete_keeps (outcome : Nat) (s : State) : Keeping s (execSelftestComplete outcome s) := by
  show StepKeeps s (match s.sweep.state, s.selfTest.run with | .test, some r => _ | _, _ => _)
  split
  · split
    · exact (endTests_keeps outcome s).settled ..
    · exact .refl s
  · exact .refl s

theorem armSweep_keeps (s : State) : StepKeeps s (armSweep s) := by
  refine (discardFetch_only _).stepAfter ⟨fun _ _ => ?_, fun _ => ?_, ?_, ?_⟩
  · refine ⟨?_, Nat.zero_le _⟩
    show 0 = 0 + occupiedSlots ((compositorStop (engineHalt s)).ingest.slots.map fun slot => { slot with state := .free })
    rw [occupiedSlots_discarded]
  · exact ⟨Nat.zero_le _, Nat.zero_le _, Nat.zero_le _, fun _ => ⟨rfl, rfl⟩⟩
  all_goals obtain ⟨_, _, _, _, _, _, _, _, _, same⟩ := engineHalt_only s
  · rw [same]; exact .of_words rfl rfl rfl
  · rw [same]; rfl

theorem selfTestMotion_track (s : State) : trackSound { s with motion := selfTestMotion s.motion } :=
  ⟨Nat.zero_le _, Nat.zero_le _, Nat.zero_le _, fun _ => ⟨rfl, rfl⟩⟩

theorem beginSelftest_keeps (s : State) : StepKeeps s (beginSelftest s) := by
  have halted : StepKeeps s (compositorStop (engineHalt s)) :=
    ((engineHalt_keeps s).trans (compositorStop_keeps _)).sweep ((engineHalt_only s).trans (compositorStop_only _))
  have discarded := (discardFetch_only _).stepAfter (s := s)
    (t := { freeLines (compositorStop (engineHalt s)) with
        sweep := { (freeLines (compositorStop (engineHalt s))).sweep with state := .test }
        motion := selfTestMotion (freeLines (compositorStop (engineHalt s))).motion
        reg := Registration.reset })
    ⟨halted.law, fun _ => selfTestMotion_track _, halted.store, halted.pending⟩
  exact discarded.then_keeps (.same rfl) (.refl _) rfl

theorem execSelftest_keeps (tag : Byte) (payload : List Byte) (s : State) : Keeping s (execSelftest tag payload s) := by
  have taken : StepKeeps s (takeSlot 10 tag s) := .same rfl rfl rfl
  have begun : StepKeeps s (beginSelftest (takeSlot 10 tag s)) := by
    obtain ⟨law, track, store, pending⟩ := beginSelftest_keeps (takeSlot 10 tag s)
    exact ⟨law, track, store, pending⟩
  show StepKeeps s (if _ then _ else _)
  split
  · split
    · exact reply_keeps _ _ _ taken
    · exact begun.settled ..
  · exact endTransaction_keeps ..

theorem execReset_keeps (tag : Byte) (payload : List Byte) (s : State) : Keeping s (execReset tag payload s) := by
  have taken : StepKeeps s (takeSlot 11 tag s) := .same rfl rfl rfl
  show StepKeeps s (if _ then _ else _)
  split
  · split
    · exact reply_keeps _ _ _ taken
    · exact (powerOnState_keeps s).then_keeps (.same rfl) (.refl _) rfl
  · exact endTransaction_keeps ..

/-! ## The sweep's commands -/

theorem configureBody_keeps (payload : List Byte) (s : State) : StepKeeps s (configureBody payload s).state := by
  unfold configureBody
  dsimp only
  split
  · exact .refl s
  · exact .same rfl rfl rfl

theorem stopSweep_keeps (s : State) : StepKeeps s (stopSweep s) := by
  unfold stopSweep
  split
  · exact ⟨fun law _ => law, trackSound_of_samplesTaken rfl, .refl _, rfl⟩
  · exact (drainTest_keeps _).stepAfter (drainTest_only _) (.same rfl rfl rfl)
  all_goals exact .refl s

theorem abortBody_keeps (s : State) : StepKeeps s (abortBody s) := by
  have abort : StepKeeps s (abortSweep s) := by
    have stopped := ((discardSlots_keeps s).trans (engineHalt_keeps _)).trans (compositorStop_keeps _)
    have only := ((discardSlots_only s).trans (engineHalt_only _)).trans (compositorStop_only _)
    obtain ⟨law, track, store, pending⟩ := stopped.sweep only
    exact (discardFetch_only _).stepAfter ⟨law, track, store, pending⟩
  unfold abortBody
  split
  iterate 4 exact abort
  all_goals exact .refl s

theorem acknowledge_keeps (code : Nat) (s : State) : StepKeeps s (acknowledge code s).state := by
  unfold acknowledge
  split
  · exact .refl s
  · split
    · exact .refl s
    · split
      · exact .refl s
      · exact .same rfl rfl rfl

theorem execUnknownCommand_keeps (kind tag : Byte) (payload : List Byte) (s : State) :
    Keeping s (execUnknownCommand kind tag payload s) := by
  have taken : StepKeeps s (takeSlot kind tag s) := .same rfl rfl rfl
  show StepKeeps s (if _ then _ else _)
  split
  · split
    · exact reply_keeps _ _ _ taken
    · exact endTransaction_keeps ..
  · exact .refl s

theorem execSweepTimeLimit_keeps (s : State) : Keeping s (execSweepTimeLimit s) := by
  show StepKeeps s (match s.sweep.state, s.sweep.openTime with | .opened, some openTime => _ | _, _ => _)
  split
  · split
    · exact StepKeeps.settled _ _ ((drainTest_keeps _).stepAfter (drainTest_only _) (.same rfl rfl rfl))
    · exact .refl s
  · exact .refl s

/-! ## The pixel port -/

/-- A frame has been received and is in no slot and of no fate yet. -/
def owesOne (s : State) : Prop :=
  s.sweep.counters.received = countedFrames s.sweep.counters + occupiedSlots s.ingest.slots + 1 ∧
    s.sweep.counters.received ≤ 4294967295

theorem owesOne_countReceived {s : State} (h : lawful s) (room : s.sweep.counters.received < 4294967295) :
    owesOne (countReceived s) := by
  unfold lawful accounted at h
  have counted : countedFrames (countReceived s).sweep.counters = countedFrames s.sweep.counters := rfl
  have received : (countReceived s).sweep.counters.received = s.sweep.counters.received + 1 := by
    simp only [countReceived, holdCount]; omega
  have slots : (countReceived s).ingest.slots = s.ingest.slots := rfl
  unfold owesOne
  rw [counted, received, slots]
  omega

theorem countedFrames_rejected (c : Counters) (h : countedFrames c < 4294967295) :
    countedFrames { c with rejected := holdCount (c.rejected + 1) } = countedFrames c + 1 := by
  unfold countedFrames holdCount at *
  dsimp only
  omega

theorem countedFrames_dropped (c : Counters) (h : countedFrames c < 4294967295) :
    countedFrames { c with dropped := holdCount (c.dropped + 1) } = countedFrames c + 1 := by
  unfold countedFrames holdCount at *
  dsimp only
  omega

/-- The frame owed passes to a fate. -/
theorem lawful_of_owesOne {s t : State} (h : owesOne s) (slots : t.ingest.slots = s.ingest.slots)
    (received : t.sweep.counters.received = s.sweep.counters.received)
    (counted : countedFrames s.sweep.counters < 4294967295 →
      countedFrames t.sweep.counters = countedFrames s.sweep.counters + 1) : lawful t := by
  unfold owesOne at h
  unfold lawful accounted
  rw [slots, received, counted (by omega)]
  omega

theorem lawful_rejectFrame {s : State} (h : owesOne s) : lawful (rejectFrame s) :=
  lawful_of_owesOne h rfl rfl (countedFrames_rejected _)

theorem lawful_dropFrame {s : State} (h : owesOne s) : lawful (dropFrame s) :=
  lawful_of_owesOne h rfl rfl (countedFrames_dropped _)

theorem lawful_fillSlot {s : State} {slot : Nat} (header : Header) (tSof : Time) (h : owesOne s)
    (free : firstSlot s.ingest.slots .free = some slot) : lawful (fillSlot slot header tSof s) := by
  obtain ⟨inside, isFree, -⟩ := List.findIdx?_eq_some_iff_getElem.mp free
  have filled : occupiedSlots (fillSlot slot header tSof s).ingest.slots = occupiedSlots s.ingest.slots + 1 :=
    occupiedSlots_filled ⟨.filling, headerRecord header tSof⟩ (nofun : SlotState.filling ≠ .free) s.ingest.slots slot
      inside (by rw [slotState_mem inside]; simpa using isFree)
  have counters : (fillSlot slot header tSof s).sweep = s.sweep := rfl
  unfold owesOne at h
  unfold lawful accounted
  rw [counters, filled]
  omega

theorem lawful_placeHeader {s : State} (header : Header) (tSof : Time) (h : owesOne s) :
    lawful (placeHeader header tSof s) := by
  unfold placeHeader
  split
  · split
    · rename_i free; exact lawful_fillSlot header tSof h free
    · exact lawful_dropFrame h
  · exact lawful_rejectFrame h

theorem owesOne_readStopMark {s : State} (header : Header) (h : owesOne s) : owesOne (readStopMark header s) := by
  unfold readStopMark
  split <;> exact h

theorem placeHeader_only (header : Header) (tSof : Time) (s : State) : OnlySweep s (placeHeader header tSof s) := by
  unfold placeHeader
  split
  · split <;> exact ⟨_, _, _, _, _, _, _, _, _, rfl⟩
  · exact ⟨_, _, _, _, _, _, _, _, _, rfl⟩

theorem placeHeader_motion (header : Header) (tSof : Time) (s : State) : (placeHeader header tSof s).motion = s.motion := by
  unfold placeHeader
  split
  · split <;> rfl
  · rfl

theorem readStopMark_only (header : Header) (s : State) : OnlySweep s (readStopMark header s) := by
  unfold readStopMark; split <;> exact ⟨_, _, _, _, _, _, _, _, _, rfl⟩

theorem readStopMark_motion (header : Header) (s : State) : (readStopMark header s).motion = s.motion := by
  unfold readStopMark; split <;> rfl

theorem admitHeader_keeps (header : Option Header) (tSof : Time) (s : State) : StepKeeps s (admitHeader header tSof s) := by
  cases header with
  | none => exact ⟨fun law room => lawful_rejectFrame (owesOne_countReceived law room), id, .refl _, rfl⟩
  | some h =>
    refine (drainTest_keeps _).stepAfter (drainTest_only _) ?_
    have only : OnlySweep s (placeHeader h tSof (readStopMark h (checkSequence h (countReceived s)))) :=
      OnlySweep.trans ⟨_, _, _, _, _, _, _, _, _, rfl⟩ ((readStopMark_only h _).trans (placeHeader_only h tSof _))
    have motion : samplesTaken (placeHeader h tSof (readStopMark h (checkSequence h (countReceived s)))).motion =
        samplesTaken s.motion := by
      rw [placeHeader_motion, readStopMark_motion]; rfl
    have law : lawful s → s.sweep.counters.received < 4294967295 →
        lawful (placeHeader h tSof (readStopMark h (checkSequence h (countReceived s)))) := fun law room =>
      lawful_placeHeader h tSof (owesOne_readStopMark h (owesOne_countReceived law room))
    refine ⟨law, trackSound_of_samplesTaken motion, .of_eq ?_, ?_⟩
    all_goals obtain ⟨_, _, _, _, _, _, _, _, _, same⟩ := only; rw [same]

theorem decideBias_samplesTaken (cfg : Configuration) (m : Motion) : samplesTaken (decideBias cfg m) = samplesTaken m := by
  unfold decideBias
  split
  · rfl
  · split <;> rfl

theorem execHeaderArrival_keeps (words : List Half) (s : State) : Keeping s (execHeaderArrival words s) := by
  show StepKeeps s (match s.ingest.port with | .header tSof => _ | .low | .ignored | .filling _ _ _ => _)
  split
  · split
    · exact (admitHeader_keeps ..).settled ..
    · rename_i tSof _ _ _
      split
      · refine StepKeeps.settled _ _ ?_
        obtain ⟨law, track, store, pending⟩ := admitHeader_keeps (parseHeader words) tSof (openSweep tSof s)
        have samples : samplesTaken (openSweep tSof s).motion = samplesTaken s.motion := decideBias_samplesTaken ..
        exact ⟨law, track ∘ trackSound_of_samplesTaken samples, store, pending⟩
      · exact .same rfl rfl rfl
    all_goals exact .same rfl rfl rfl
  all_goals exact .refl s

theorem truncateFrame_keeps (slot : Nat) (port : PortFrame) (s : State) : StepKeeps s (truncateFrame slot port s) := by
  have dropped : Keeps s (setPort port (dropLines slot (raiseCause .drop (freeSlot slot .truncated s)))) :=
    (freeSlot_keeps slot .truncated s).trans (.same rfl)
  exact (dropped.trans (drainTest_keeps _)).sweep
    (((freeSlot_only slot .truncated s).trans ⟨_, _, _, _, _, _, _, _, _, rfl⟩).trans (drainTest_only _))

theorem completeFrame_keeps (slot : Nat) (s : State) : Keeps s (completeFrame slot s) := by
  refine .of_accounts ?_ rfl
  unfold accounts completeFrame setPort
  dsimp only
  rw [occupiedSlots_modify _ (fun slot => by rfl), occupiedSlots_moveSlot _ _ _ (by decide)]

theorem execFrameStart_keeps (s : State) : Keeping s (execFrameStart s) := by
  show StepKeeps s (match s.ingest.port with | .low => _ | .ignored | .header _ | .filling _ _ _ => _)
  split
  · split <;> exact .same rfl rfl rfl
  all_goals exact .refl s

theorem execPixelLineStart_keeps (s : State) : Keeping s (execPixelLineStart s) := by
  show StepKeeps s (match s.ingest.port with
    | .filling slot line false => _ | .low | .ignored | .header _ | .filling _ _ true => _)
  split
  · split
    · exact (truncateFrame_keeps ..).settled ..
    · exact .same rfl rfl rfl
  all_goals exact .refl s

theorem execLineTooLong_keeps (s : State) : Keeping s (execLineTooLong s) := by
  show StepKeeps s (match s.ingest.port with
    | .filling slot _ true => _ | .low | .ignored | .header _ | .filling _ _ false => _)
  split
  · exact (truncateFrame_keeps ..).settled ..
  all_goals exact .refl s

theorem execPixelLineClose_keeps (words : List Half) (s : State) : Keeping s (execPixelLineClose words s) := by
  show StepKeeps s (match s.ingest.port with
    | .filling slot line true => _ | .low | .ignored | .header _ | .filling _ _ false => _)
  split
  · split
    · exact (truncateFrame_keeps ..).settled ..
    · split
      · exact StepKeeps.settled _ _ (.same rfl rfl rfl)
      · rename_i slot line _ _ _
        have queued : Keeps s (completeFrame slot (bufferLine slot line words s)) := (completeFrame_keeps ..).after rfl
        exact StepKeeps.settled _ _ ((queued.trans (engineGo_keeps ..)).sweep
          (OnlySweep.trans ⟨_, _, _, _, _, _, _, _, _, rfl⟩ (engineGo_only ..)))
  all_goals exact .refl s

theorem execFrameEnd_keeps (s : State) : Keeping s (execFrameEnd s) := by
  show StepKeeps s (match s.ingest.port with | .filling slot _ _ => _ | .low | .ignored | .header _ => _)
  split
  · exact (truncateFrame_keeps ..).settled ..
  all_goals exact .same rfl rfl rfl

/-! ## The motion link -/

theorem joinRing_length (ring : List PoseEntry) (entry : PoseEntry) (h : ring.length ≤ 512) :
    (joinRing ring entry).length ≤ 512 := by
  unfold joinRing
  split <;> simp only [List.length_append, List.length_drop, List.length_cons, List.length_nil] <;> omega

theorem joinWindow_length (window : List Int) (raw : Int) (h : window.length ≤ 256) :
    (joinWindow window raw).length ≤ 256 := by
  unfold joinWindow
  split <;> simp only [List.length_append, List.length_drop, List.length_cons, List.length_nil] <;> omega

theorem integrate_started (cfg : Configuration) (i : Integrator) (sample : Time) (yaw pitch : Int) :
    (integrate cfg i sample yaw pitch).started = true := by
  unfold integrate; split <;> rfl

theorem trackSound_sampleMotion (sample : Time) (bytes : BitVec 48) (s : State) (h : trackSound s) :
    trackSound { s with motion := sampleMotion sample bytes s } := by
  obtain ⟨ring, yaw, pitch, -⟩ := h
  refine ⟨?_, ?_, ?_, fun started => absurd started ?_⟩
  · simp only [sampleMotion, goodLink, takeSample, estimate]
    split <;> exact joinRing_length _ _ ring
  · simp only [sampleMotion, goodLink, takeSample, estimate]
    split
    · exact joinWindow_length _ _ yaw
    · exact yaw
  · simp only [sampleMotion, goodLink, takeSample, estimate]
    split
    · exact joinWindow_length _ _ pitch
    · exact pitch
  · simp only [sampleMotion, goodLink, takeSample, integrate_started, Bool.true_eq_false, not_false_eq_true]

theorem regain_keeps (entry : PoseEntry) (s : State) : Keeps s (regain entry s) := by
  unfold regain
  dsimp only
  split
  · exact (sendReanchor_keeps ..).after rfl
  · exact .same rfl

theorem regain_only (entry : PoseEntry) (s : State) : OnlySweep s (regain entry s) := by
  unfold regain
  dsimp only
  split
  · exact OnlySweep.trans ⟨_, _, _, _, _, _, _, _, _, rfl⟩ (sendReanchor_only ..)
  · exact ⟨_, _, _, _, _, _, _, _, _, rfl⟩

theorem goodSample_keeps (sample : Time) (bytes : BitVec 48) (s : State) : StepKeeps s (goodSample sample bytes s) := by
  have sampled : StepKeeps s { s with motion := sampleMotion sample bytes s } :=
    ⟨fun law _ => law, trackSound_sampleMotion sample bytes s, .refl _, rfl⟩
  unfold goodSample
  dsimp only
  refine ((entryAnnounced_keeps _).trans (engineGo_keeps ..)).stepAfter
    ((entryAnnounced_only _).trans (engineGo_only ..)) ?_
  split
  · exact (regain_keeps ..).stepAfter (regain_only ..) sampled
  · exact sampled

theorem execGoodSample_keeps (bytes : BitVec 48) (s : State) : Keeping s (execGoodSample bytes s) := by
  show StepKeeps s (match s.motion.tx with | .reading sample start => _ | .discarding start => _ | .absent | .window _ _ => _)
  split
  · rename_i sample start _
    refine StepKeeps.settled _ _ ?_
    obtain ⟨law, track, store, pending⟩ :=
      goodSample_keeps sample bytes { s with timeBase := advanceTo (readDue start) s.timeBase }
    exact ⟨law, track, store, pending⟩
  · exact ⟨fun law _ => law, trackSound_of_samplesTaken rfl, .refl _, rfl⟩
  all_goals exact .refl s

theorem missSample_keeps (s : State) : StepKeeps s (missSample s) := by
  unfold missSample
  dsimp only
  split
  · refine (engineGo_keeps ..).stepAfter (engineGo_only ..) ?_
    refine (resumePlacement_keeps _).stepAfter (resumePlacement_only _) ?_
    exact ⟨fun law _ => law, trackSound_of_samplesTaken rfl, .refl _, rfl⟩
  · exact ⟨fun law _ => law, trackSound_of_samplesTaken rfl, .refl _, rfl⟩

theorem execSampleMissed_keeps (s : State) : Keeping s (execSampleMissed s) := by
  show StepKeeps s (match s.motion.tx with | .window strobeTime _ => _ | .absent | .reading _ _ | .discarding _ => _)
  split
  · rename_i strobeTime _ _
    refine StepKeeps.settled _ _ ?_
    obtain ⟨law, track, store, pending⟩ :=
      missSample_keeps { s with timeBase := advanceTo (missDue s.sweepCfg strobeTime) s.timeBase }
    exact ⟨law, track, store, pending⟩
  all_goals exact .refl s

theorem execSampleStrobe_keeps (s : State) : Keeping s (execSampleStrobe s) := by
  show StepKeeps s (if _ then _ else _)
  split
  · split
    iterate 2 exact ⟨fun law _ => law, trackSound_of_samplesTaken rfl, .refl _, rfl⟩
    all_goals exact .refl s
  · exact .refl s

theorem execMdrdySeen_keeps (s : State) : Keeping s (execMdrdySeen s) := by
  show StepKeeps s (match s.motion.tx with | .window strobeTime sample => _ | .absent | .reading _ _ | .discarding _ => _)
  split
  · split
    · exact ⟨fun law _ => law, trackSound_of_samplesTaken rfl, .refl _, rfl⟩
    · exact .refl s
  all_goals exact .refl s

theorem execMotionWaitExpiry_keeps (s : State) : Keeping s (execMotionWaitExpiry s) := by
  refine StepKeeps.settled _ _ ((engineGo_keeps ..).stepAfter (engineGo_only ..) ?_)
  have moved : StepKeeps s (expireWait s) := by
    unfold expireWait
    split
    · exact (placeRun_keeps ..).stepAfter (placeRun_only ..) (.same rfl rfl rfl)
    · exact .refl s
  exact moved

/-! ## Memory bursts -/

theorem rewriteWords_kept (words : List Nat) (c : CanvasStore) (mem : List Host.Cell)
    (wf : memWf c.mem = true → memWf mem = true) : StoreKept c (rewriteWords words { c with mem := mem }) := by
  refine ⟨wf, fun apart w single multi => ?_⟩
  simp only [rewriteWords, List.mem_filter] at single multi
  exact apart w single.1 multi.1

theorem storeBytes_kept (addr : Nat) (bytes : List Byte) (c : CanvasStore) : StoreKept c (storeBytes addr bytes c) :=
  rewriteWords_kept _ c _ fun wf => memWriteBytes_wf bytes wf addr

theorem storeUnits_keeps (units : List WriteUnit) (s : State) : StepKeeps s (storeUnits units s) :=
  StepKeeps.of_store rfl rfl (rewriteWords_kept _ s.store _ fun wf => foldl_storeUnit_wf units wf)

theorem checkWords_kept (words : List Nat) (e : MemErrors) (s : State) : StoreKept s.store (checkWords words e s).store := by
  refine ⟨id, fun apart w single multi => ?_⟩
  rw [mem_singleFlaws_checkWords] at single
  rw [mem_multiFlaws_checkWords] at multi
  obtain ⟨single, sound⟩ := single
  rcases multi with multi | ⟨inside, fails⟩
  · rcases single with single | ⟨inside, -⟩
    · exact apart w single multi
    · exact sound ⟨inside, .inl multi⟩
  · exact sound ⟨inside, .inr fails⟩

theorem checkWords_keeps (words : List Nat) (e : MemErrors) (s : State) : StepKeeps s (checkWords words e s) :=
  StepKeeps.of_store rfl rfl (checkWords_kept words e s)

theorem StepKeeps.trans_same {s t u : State} (h : StepKeeps s t) (k : StepKeeps t u)
    (received : t.sweep.counters.received = s.sweep.counters.received) : StepKeeps s u :=
  ⟨fun law room => k.law (h.law law room) (received ▸ room), k.track ∘ h.track, h.store.trans k.store,
    k.pending.trans h.pending⟩

theorem writePixels_keeps (units : List WriteUnit) (e : MemErrors) (s : State) : StepKeeps s (writePixels units e s) :=
  (checkWords_keeps (mergedWords units) e s).trans_same (storeUnits_keeps _ _) rfl

theorem setWrittenFlag_kept (left : List WriteUnit) (c : CanvasStore) (u : WriteUnit) :
    StoreKept c (setWrittenFlag left c u) := by
  unfold setWrittenFlag
  split
  · exact .refl c
  · split <;> exact .of_words rfl rfl rfl

theorem foldl_setWrittenFlag_kept (left : List WriteUnit) : ∀ (done : List WriteUnit) (c : CanvasStore),
    StoreKept c (done.foldl (setWrittenFlag left) c)
  | [], c => .refl c
  | u :: us, c => (setWrittenFlag_kept left c u).trans (foldl_setWrittenFlag_kept left us _)

theorem finishUnits_keeps (done left : List WriteUnit) (s : State) : StepKeeps s (finishUnits done left s) :=
  StepKeeps.of_store rfl rfl (foldl_setWrittenFlag_kept left done s.store)

theorem OnlyFault.keeps {s t : State} (h : OnlyFault s t) : StepKeeps s t := by
  obtain ⟨_, _, _, _, _, _, _, rfl⟩ := h
  exact .same rfl rfl rfl

theorem faultCompositor_only (addr len : Nat) (s : State) : OnlyFault s (faultCompositor addr len s) :=
  unitFaults_only .compositor addr len s

theorem OnlyFault.stepAfter {s t u : State} (k : OnlyFault t u) (h : StepKeeps s t) : StepKeeps s u := by
  obtain ⟨_, _, _, _, _, _, _, rfl⟩ := k
  exact h.then_keeps (.same rfl) (.refl _) rfl

theorem wordsRead_keeps (unit : EngineUnit) (words : List Nat) (e : MemErrors) (s : State) :
    StepKeeps s (wordsRead unit words e s) :=
  StepKeeps.of_store rfl rfl (checkWords_kept words e s)

theorem completeEngineRead_keeps (unit : EngineUnit) (addr len : Nat) (e : MemErrors) (s : State) :
    StepKeeps s (completeEngineRead unit addr len e s) := by
  rw [completeEngineRead_eq]
  split
  · exact wordsRead_keeps ..
  · exact (unitFaults_only ..).stepAfter (wordsRead_keeps ..)

theorem writePixels_received (units : List WriteUnit) (e : MemErrors) (s : State) :
    (writePixels units e s).sweep.counters.received = s.sweep.counters.received := rfl

theorem completeEngineWrite_keeps (addr len : Nat) (e : MemErrors) (s : State) :
    StepKeeps s (completeEngineWrite addr len e s) := by
  have stored (done left : List WriteUnit) :
      StepKeeps s (finishUnits done left (writePixels (unitsWithin addr len s.comp.todo) e s)) :=
    (writePixels_keeps ..).trans_same (finishUnits_keeps ..) rfl
  unfold completeEngineWrite
  dsimp only
  split
  · exact stored ..
  · split
    · exact (reportFault_only _).stepAfter (stored ..)
    all_goals exact (faultCompositor_only ..).stepAfter (stored ..)

theorem completeEngine_keeps (unit : EngineUnit) (live : Bool) (late : List WriteUnit) (move : EngineMove)
    (e : MemErrors) (s : State) : StepKeeps s (completeEngine unit live late move e s) := by
  unfold completeEngine completeLate
  split
  · split
    · exact completeEngineRead_keeps ..
    · exact completeEngineWrite_keeps ..
    · exact .refl s
  · split
    · exact checkWords_keeps ..
    · exact writePixels_keeps ..

theorem lineWritten_keeps (s : State) : Keeps s (lineWritten s) := by
  unfold lineWritten
  split
  · refine .of_accounts ?_ rfl
    unfold accounts
    rw [occupiedSlots_countLine]
  · exact .refl s

theorem lineWritten_only (s : State) : OnlySweep s (lineWritten s) := by
  unfold lineWritten; split <;> exact ⟨_, _, _, _, _, _, _, _, _, rfl⟩

theorem completeIngest_keeps (b : IngestBurst) (live : Bool) (s : State) : StepKeeps s (completeIngest b live s) := by
  have stored : StepKeeps s { s with store := storeBytes b.addr b.bytes s.store } :=
    StepKeeps.of_store rfl rfl (storeBytes_kept ..)
  unfold completeIngest
  dsimp only
  split
  · exact (lineWritten_keeps _).stepAfter (lineWritten_only _) stored
  · exact stored

theorem completeFetch_keeps (b : FetchRead) (data : List Byte) (live : Bool) (e : MemErrors) (s : State) :
    StepKeeps s (completeFetch b data live e s) := by
  unfold completeFetch
  dsimp only
  split
  · split
    · exact (fetchData_only ..).stepAfter (checkWords_keeps ..)
    · exact (fetchError_only ..).stepAfter (checkWords_keeps ..)
  · exact checkWords_keeps ..

theorem completeSelf_keeps (b : SelfBurst) (live : Bool) (e : MemErrors) (s : State) :
    StepKeeps s (completeSelf b live e s) := by
  unfold completeSelf
  split
  · exact StepKeeps.of_store rfl rfl (storeBytes_kept ..)
  · dsimp only
    split
    · exact StepKeeps.then_keeps (checkWords_keeps ..) (.same rfl) (.refl _) rfl
    · exact checkWords_keeps ..

theorem completeBurst_keeps (burst : InFlight) (move : EngineMove) (e : MemErrors) (s : State) :
    StepKeeps s (completeBurst burst move e s) := by
  have freed : StepKeeps s (memoryFreed s) := .same rfl rfl rfl
  unfold completeBurst
  cases burst with
  | ingest b live => exact freed.trans_same (completeIngest_keeps b live (memoryFreed s)) rfl
  | engine unit live late areas => exact freed.trans_same (completeEngine_keeps unit live late move e (memoryFreed s)) rfl
  | fetch b data live => exact freed.trans_same (completeFetch_keeps b data live e (memoryFreed s)) rfl
  | selfTest b live => exact freed.trans_same (completeSelf_keeps b live e (memoryFreed s)) rfl

theorem execMemoryBurstComplete_keeps (move : EngineMove) (e : MemErrors) (s : State) :
    Keeping s (execMemoryBurstComplete move e s) := by
  unfold execMemoryBurstComplete
  split
  · exact StepKeeps.refl s
  · split
    · split
      · exact (completeBurst_keeps ..).settled ..
      · exact StepKeeps.refl s
    · trivial
  · exact (completeBurst_keeps ..).settled ..

/-! ## The fetch port -/

theorem OnlyFetch.settled {s t : State} (b m : Bool) (h : OnlyFetch s t) : StepKeeps s (settle b m t) :=
  (h.stepAfter (.refl s)).settled b m

theorem expireStall_keeps (s : State) : StepKeeps s (expireStall s) := by
  unfold expireStall
  split
  · split
    · exact .refl s
    · refine Keeps.stepAfter ?_ (raiseCause_only ..) ((endWith_only ..).stepAfter (.same rfl rfl rfl))
      exact .same rfl
  · exact .refl s

theorem execRequestMessageStart_keeps (r : Requester) (s : State) : Keeping s (execRequestMessageStart r s) := by
  show StepKeeps s (match (sideOf s.fetch r).line with | .idle => _ | .shifting | .ignored => _)
  split
  · exact (setSide_only ..).stepAfter (.refl s)
  all_goals exact .refl s

/-! ## Every command -/

/-- Every command keeps all this, and none refuses. -/
theorem exec_keeps (c : Instr) (s : State) : Keeping s (exec c s) := by
  cases c with
  | powerOn => exact powerOnState_keeps s
  | resetnAssert => exact StepKeeps.then_keeps (powerOnState_keeps s) (.same rfl) (.refl _) rfl
  | resetnRelease =>
    show StepKeeps s (if _ then _ else _)
    split
    · exact StepKeeps.then_keeps (powerOnState_keeps s) (.same rfl) (.refl _) rfl
    · exact .refl s
  | dramInitialised strap => exact execDramInitialised_keeps strap s
  | selftestComplete outcome => exact execSelftestComplete_keeps outcome s
  | configure tag payload => exact runCommand_keeps 1 tag _ _ payload s (configureBody_keeps payload)
  | arm tag payload => exact runCommand_keeps 2 tag _ _ payload s fun t => (armSweep_keeps t).settled ..
  | start tag payload => exact runCommand_keeps 3 tag _ _ payload s fun _ => .same rfl rfl rfl
  | stop tag payload => exact runCommand_keeps 4 tag _ _ payload s fun t => (stopSweep_keeps t).settled ..
  | abort tag payload => exact runCommand_keeps 5 tag _ _ payload s fun t => (abortBody_keeps t).settled ..
  | query tag payload => exact runCommand_keeps 6 tag _ _ payload s .refl
  | readAttention tag payload => exact runCommand_keeps 7 tag _ _ payload s .refl
  | ackAttention tag payload => exact runCommand_keeps 8 tag _ _ payload s (acknowledge_keeps _)
  | setAttention tag payload => exact runCommand_keeps 9 tag _ _ payload s fun _ => .same rfl rfl rfl
  | selftest tag payload => exact execSelftest_keeps tag payload s
  | reset tag payload => exact execReset_keeps tag payload s
  | unknownCommand kind tag payload => exact execUnknownCommand_keeps kind tag payload s
  | commandDiscarded =>
    show StepKeeps s (if _ then _ else _)
    split
    · exact endTransaction_keeps ..
    · exact .refl s
  | replyTransaction clocked =>
    show StepKeeps s (match s.ctl.latched with | none => _ | some status => _)
    split
    · exact .refl s
    · split
      · exact endTransaction_keeps ..
      · exact .same rfl rfl rfl
  | sweepTimeLimit => exact execSweepTimeLimit_keeps s
  | endRequest reason => exact ((takeEndRequest_keeps reason s).sweep (takeEndRequest_only ..)).settled ..
  | frameStart => exact execFrameStart_keeps s
  | headerArrival words => exact execHeaderArrival_keeps words s
  | pixelLineStart => exact execPixelLineStart_keeps s
  | lineTooLong => exact execLineTooLong_keeps s
  | pixelLineClose words => exact execPixelLineClose_keeps words s
  | frameEnd => exact execFrameEnd_keeps s
  | sampleStrobe => exact execSampleStrobe_keeps s
  | mdrdySeen => exact execMdrdySeen_keeps s
  | goodSample bytes => exact execGoodSample_keeps bytes s
  | sampleMissed => exact execSampleMissed_keeps s
  | motionWaitExpiry => exact execMotionWaitExpiry_keeps s
  | searchComplete => exact ((completeSearch_keeps s).sweep (completeSearch_only s)).settled ..
  | stripWritesComplete => exact ((completeWrites_keeps s).sweep (completeWrites_only s)).settled ..
  | harvestComplete => exact ((completeHarvest_keeps s).sweep (completeHarvest_only s)).settled ..
  | previewUpdateComplete => exact ((completeUpdate_keeps s).sweep (completeUpdate_only s)).settled ..
  | closingWorkComplete => exact ((completeClosing_keeps s).sweep (completeClosing_only s)).settled ..
  | memoryBurstComplete move errors => exact execMemoryBurstComplete_keeps move errors s
  | fetchRequest requester message =>
    show StepKeeps s (if _ then _ else _)
    split
    · exact (messageArrives_only ..).settled ..
    · exact .refl s
  | fetchAbandon requester message =>
    show StepKeeps s (if _ then _ else _)
    split
    · exact .refl s
    · exact (messageArrives_only ..).settled ..
  | returnBurstComplete =>
    show StepKeeps s (if _ then _ else _)
    split
    · exact (completeBus_only s).settled ..
    · exact .refl s
  | fetchWaitExpiry => exact (expireStall_keeps s).settled ..
  | transactionStart =>
    show StepKeeps s (if _ then _ else _)
    split
    · exact .refl s
    · exact .same rfl rfl rfl
  | requestMessageStart requester => exact execRequestMessageStart_keeps requester s

theorem exec_next_keeps {c : Instr} {s t : State} (h : exec c s = .next t) : StepKeeps s t := by
  have kept := exec_keeps c s
  rwa [h] at kept

/-- A step keeps what its command keeps; the queue's rest, and the tick of an empty queue, are none of it. -/
theorem step_keeps {s t : State} (h : step s = .next t) :
    (lawful s → s.sweep.counters.received < 4294967295 → lawful t) ∧ (trackSound s → trackSound t) ∧
      StoreKept s.store t.store := by
  unfold step at h
  split at h
  · injection h with same
    subst same
    unfold tick
    split <;> exact ⟨fun law _ => law, id, .refl _⟩
  · obtain ⟨law, track, store, -⟩ := exec_next_keeps h
    exact ⟨law, track, store⟩

/-- Settles O57, by what each operation keeps of the two sides of the accounting law. -/
theorem accountingLawIsKept : Obligations.AccountingLawIsKept := fun _ _ law room run =>
  ((step_keeps run).1 ⟨law, Nat.le_of_lt room⟩ room).1

/-- Settles O59, by what each operation keeps of the store and of the samples taken. -/
theorem memoryFormAndTrackSizesAreKept : Obligations.MemoryFormAndTrackSizesAreKept := fun _ _ run =>
  have ⟨_, track, mem, flaws⟩ := step_keeps run
  ⟨mem, flaws, track⟩

/-- Settles O56, by what each operation keeps of the queue. -/
theorem commandsKeepTheQueue : Obligations.CommandsKeepTheQueue := fun c s =>
  ⟨fun _ run => (exec_next_keeps run).pending, fun r refused => by
    have kept := exec_keeps c s
    rw [refused] at kept
    exact kept⟩

end Sys2Proof.Machine
end

section
/-! SUPPORT. The slot pool with the engine's frames (R53, R54, R66, R108), seen by what its soundness speaks of: each change that
an operation can bring to it, and that the change keeps it sound. -/

namespace Sys2Proof.Machine

/-! ## Counts of slots and what each slot is -/

/-- A slot in a state, for a state that an absent slot does not have. -/
theorem slotsIn_eq_zero_iff {slots : List Slot} {st : SlotState} (hst : st ≠ .free) :
    slotsIn slots st = 0 ↔ ∀ i, slotState slots i ≠ st := by
  rw [← anySlot_eq_false_iff hst]
  simp [slotsIn, anySlot]

theorem slotState_cons_zero (slot : Slot) (slots : List Slot) : slotState (slot :: slots) 0 = slot.state := rfl

theorem slotState_cons_succ (slot : Slot) (slots : List Slot) (i : Nat) :
    slotState (slot :: slots) (i + 1) = slotState slots i := rfl

/-- At most one slot is in a state exactly when no two are. -/
theorem slotsIn_le_one_iff {st : SlotState} (hst : st ≠ .free) : ∀ {slots : List Slot},
    slotsIn slots st ≤ 1 ↔ ∀ i j, slotState slots i = st → slotState slots j = st → i = j
  | [] => by simp [slotsIn, slotState, hst.symm]
  | slot :: slots => by
    have rest := slotsIn_le_one_iff hst (slots := slots)
    have none := slotsIn_eq_zero_iff hst (slots := slots)
    rw [slotsIn_cons]
    by_cases first : slot.state = st
    · rw [if_pos first]
      refine ⟨fun few i j hi hj => ?_, fun unique => ?_⟩
      · have zero := none.mp (by omega)
        cases i with
        | zero => cases j with
          | zero => rfl
          | succ j => exact absurd hj (zero j)
        | succ i => exact absurd hi (zero i)
      · have zero : slotsIn slots st = 0 := none.mpr fun i hi => absurd (unique 0 (i + 1) first hi) (by omega)
        omega
    · rw [if_neg first, Nat.zero_add, rest]
      refine ⟨fun unique i j hi hj => ?_, fun unique i j hi hj => ?_⟩
      · cases i with
        | zero => exact absurd hi first
        | succ i => cases j with
          | zero => exact absurd hj first
          | succ j => rw [unique i j hi hj]
      · have := unique (i + 1) (j + 1) hi hj; omega

/-! ## The view -/

/-- What the pool's soundness knows of a working record. -/
structure WorkView where
  slot : Nat
  opening : Bool
  placed : Bool

/-- What the pool's soundness knows of a state: what each slot is and whether its frame has the opening mark, the frame on
the port, the queue, the frame in placement, and the slots of the frames handed over with their being strip 0. -/
structure PoolView where
  size : Nat
  state : Nat → SlotState
  opening : Nat → Bool
  port : PortFrame
  assigned : Bool
  queue : List Nat
  work : Option WorkView
  job : Option (Nat × Bool)
  waiting : Option (Nat × Bool)
  updating : Bool
  searching : Bool

def workView (w : Working) : WorkView := ⟨w.slot, decide (w.cls = .opening), decide (w.stage = .placed)⟩

def jobView (j : StripJob) : Nat × Bool := (j.slot, j.strip0)

def pool (s : State) : PoolView where
  size := s.ingest.slots.length
  state := slotState s.ingest.slots
  opening i := (slotInfo s.ingest.slots i).opening
  port := s.ingest.port
  assigned := s.ingest.openingAssigned
  queue := s.ingest.queue
  work := s.place.work.map workView
  job := s.comp.job.map jobView
  waiting := s.comp.waiting.map jobView
  updating := decide (s.comp.state = .updating)
  searching := decide (s.reg.state = .searching)

/-- The opening frames on their way to being HELD. -/
def PoolView.ahead (p : PoolView) : Nat :=
  (if p.assigned then 0 else 1) + (p.queue.filter p.opening).length +
    match p.work with
    | some w => if w.opening then 1 else 0
    | none => 0

/-- A frame handed over. -/
def PoolView.handed (p : PoolView) (j : Nat × Bool) : Prop := p.job = some j ∨ p.waiting = some j

/-- The pool is sound (R53, R54). -/
structure PoolView.Sound (p : PoolView) : Prop where
  size : p.size = 6
  engaged : ∀ i j, p.state i = .engaged → p.state j = .engaged → i = j
  filling : ∀ i, p.state i = .filling ↔ portFills p.port i = true
  held : ∀ i j, p.state i = .held → p.state j = .held → i = j
  ahead : p.ahead ≤ 1
  heldAhead : ∀ i, p.state i = .held → p.ahead = 0
  nodup : p.queue.Nodup
  queued : ∀ i ∈ p.queue, p.state i = .queued
  work : ∀ w, p.work = some w → p.state w.slot = .engaged
  jobs : ∀ j, p.handed j → p.state j.1 = .engaged ∨ (j.2 = true ∧ p.state j.1 = .held)
  oneJob : p.job = none ∨ p.waiting = none
  updating : p.updating = true → p.job = none
  placed : ∀ w j, p.work = some w → p.handed j → j.1 = w.slot → w.placed = true ∧ p.searching = false
  searching : p.searching = true → ∃ w, p.work = some w ∧ w.placed = true

theorem pool_ahead (s : State) : (pool s).ahead = openingsAhead s := by
  unfold PoolView.ahead openingsAhead pool
  cases s.place.work with
  | none => rfl
  | some w => simp only [Option.map_some, workView, decide_eq_true_eq]

theorem pool_handed {s : State} {j : Nat × Bool} : (pool s).handed j ↔ ∃ job, handedOver s job ∧ jobView job = j := by
  simp only [PoolView.handed, pool, handedOver, Option.map_eq_some_iff, ← exists_or, ← or_and_right]

theorem poolSound_iff (s : State) : poolSound s ↔ (pool s).Sound := by
  have heldCount : slotsIn s.ingest.slots .held + openingsAhead s ≤ 1 ↔
      (∀ i j, slotState s.ingest.slots i = .held → slotState s.ingest.slots j = .held → i = j) ∧ openingsAhead s ≤ 1 ∧
        ∀ i, slotState s.ingest.slots i = .held → openingsAhead s = 0 := by
    rw [← slotsIn_le_one_iff (st := .held) nofun]
    have none := slotsIn_eq_zero_iff (st := .held) nofun (slots := s.ingest.slots)
    by_cases zero : slotsIn s.ingest.slots .held = 0
    · have absent := none.mp zero
      exact ⟨fun h => ⟨by omega, by omega, fun i hi => absurd hi (absent i)⟩, fun ⟨_, h, _⟩ => by omega⟩
    · obtain ⟨i, hi⟩ : ∃ i, slotState s.ingest.slots i = .held := by
        by_contra absent
        exact zero (none.mpr fun i hi => absent ⟨i, hi⟩)
      exact ⟨fun h => ⟨by omega, by omega, fun _ _ => by omega⟩, fun ⟨h, _, k⟩ => by have := k i hi; omega⟩
  have engagedCount := slotsIn_le_one_iff (st := .engaged) nofun (slots := s.ingest.slots)
  unfold poolSound framesSound
  rw [heldCount, engagedCount]
  constructor
  · rintro ⟨size, engaged, filling, ⟨held, ahead, heldAhead⟩, nodup, queued, work, jobs, oneJob, updating, placed, searching⟩
    refine ⟨size, engaged, filling, held, pool_ahead s ▸ ahead, pool_ahead s ▸ heldAhead, nodup, queued, ?_, ?_, ?_, ?_, ?_,
      ?_⟩
    · intro w hw
      obtain ⟨w, at_w, rfl⟩ := Option.map_eq_some_iff.mp hw
      exact work w at_w
    · intro j hj
      obtain ⟨job, at_j, rfl⟩ := pool_handed.mp hj
      exact jobs job at_j
    · exact oneJob.imp (by simp [pool, ·]) (by simp [pool, ·])
    · intro h
      simp [pool, updating (of_decide_eq_true h)]
    · intro w j hw hj same
      obtain ⟨w, at_w, rfl⟩ := Option.map_eq_some_iff.mp hw
      obtain ⟨job, at_j, rfl⟩ := pool_handed.mp hj
      obtain ⟨stage, reg⟩ := placed w job at_w at_j same
      exact ⟨decide_eq_true stage, decide_eq_false reg⟩
    · intro h
      obtain ⟨w, hw, stage⟩ := searching (of_decide_eq_true h)
      exact ⟨_, Option.map_eq_some_iff.mpr ⟨w, hw, rfl⟩, decide_eq_true stage⟩
  · rintro ⟨size, engaged, filling, held, ahead, heldAhead, nodup, queued, work, jobs, oneJob, updating, placed, searching⟩
    refine ⟨size, engaged, filling, ⟨held, pool_ahead s ▸ ahead, pool_ahead s ▸ heldAhead⟩, nodup, queued, ?_, ?_, ?_, ?_, ?_,
      ?_⟩
    · exact fun w hw => work _ (Option.map_eq_some_iff.mpr ⟨w, hw, rfl⟩)
    · exact fun job hj => jobs _ (pool_handed.mpr ⟨job, hj, rfl⟩)
    · exact oneJob.imp Option.map_eq_none_iff.mp Option.map_eq_none_iff.mp
    · exact fun h => Option.map_eq_none_iff.mp (updating (decide_eq_true h))
    · intro w job hw hj same
      obtain ⟨stage, reg⟩ := placed _ _ (Option.map_eq_some_iff.mpr ⟨w, hw, rfl⟩) (pool_handed.mpr ⟨job, hj, rfl⟩) same
      exact ⟨of_decide_eq_true stage, of_decide_eq_false reg⟩
    · intro h
      obtain ⟨_, hw, stage⟩ := searching (decide_eq_true h)
      obtain ⟨w, at_w, rfl⟩ := Option.map_eq_some_iff.mp hw
      exact ⟨w, at_w, of_decide_eq_true stage⟩

/-! ## What keeps it sound -/

/-- A frame's slot has another state. -/
def PoolView.set (p : PoolView) (i : Nat) (st : SlotState) : PoolView :=
  { p with state := fun j => if j = i then st else p.state j }

/-- The frame in placement is released or dropped. -/
def PoolView.dropWork (p : PoolView) : PoolView := { p with work := none, searching := false }

/-- The frames handed over are dropped. -/
def PoolView.dropJobs (p : PoolView) : PoolView := { p with job := none, waiting := none }

theorem ahead_dropWork (p : PoolView) : p.dropWork.ahead ≤ p.ahead := by
  unfold PoolView.ahead PoolView.dropWork; dsimp only; omega

namespace PoolView.Sound

variable {p : PoolView} (h : p.Sound)

include h

/-- Nothing is in the engine's hands with no slot ENGAGED. -/
theorem work_none (free : ∀ i, p.state i ≠ .engaged) : p.work = none := by
  cases hw : p.work with
  | none => rfl
  | some w => exact absurd (h.work w hw) (free w.slot)

theorem not_searching_of_work (none : p.work = none) : p.searching = false := by
  cases hs : p.searching with
  | false => rfl
  | true => obtain ⟨w, hw, -⟩ := h.searching hs; rw [none] at hw; cases hw

/-- A frame that is still in placement has not been handed over, and no search is on. -/
theorem not_searching_of_unplaced {w : WorkView} (hw : p.work = some w) (unplaced : w.placed = false) :
    p.searching = false := by
  cases hs : p.searching with
  | false => rfl
  | true =>
    obtain ⟨v, hv, placed⟩ := h.searching hs
    rw [hw] at hv
    cases hv
    rw [unplaced] at placed
    cases placed

theorem alone_of_unplaced {w : WorkView} (hw : p.work = some w) (unplaced : w.placed = false) :
    ∀ j, p.handed j → j.1 ≠ w.slot := fun j hj same => by
  have := (h.placed w j hw hj same).1
  rw [unplaced] at this
  cases this

theorem dropWork : p.dropWork.Sound where
  size := h.size
  engaged := h.engaged
  filling := h.filling
  held := h.held
  ahead := (ahead_dropWork p).trans h.ahead
  heldAhead i hi := Nat.le_zero.mp (h.heldAhead i hi ▸ ahead_dropWork p)
  nodup := h.nodup
  queued := h.queued
  work := nofun
  jobs := h.jobs
  oneJob := h.oneJob
  updating := h.updating
  placed := nofun
  searching := nofun

/-- The frames handed over may become fewer, and the compositor's state and the search's end may change with them. -/
theorem jobs_le {job waiting : Option (Nat × Bool)} {updating searching : Bool}
    (fewer : ∀ j, job = some j ∨ waiting = some j → p.handed j) (oneJob : job = none ∨ waiting = none)
    (updates : updating = true → job = none) (search : searching = true → p.searching = true) :
    ({ p with job := job, waiting := waiting, updating := updating, searching := searching } : PoolView).Sound where
  size := h.size
  engaged := h.engaged
  filling := h.filling
  held := h.held
  ahead := h.ahead
  heldAhead := h.heldAhead
  nodup := h.nodup
  queued := h.queued
  work := h.work
  jobs j hj := h.jobs j (fewer j hj)
  oneJob := oneJob
  updating := updates
  placed w j hw hj same := by
    obtain ⟨placed, off⟩ := h.placed w j hw (fewer j hj) same
    refine ⟨placed, Bool.eq_false_iff.mpr fun on => ?_⟩
    rw [search on] at off
    cases off
  searching on := h.searching (search on)

/-- The frame in placement goes on as one that has not been handed over. -/
theorem setWork {w : WorkView} (v : WorkView) (hw : p.work = some w) (slot : v.slot = w.slot)
    (opening : v.opening = w.opening) (alone : ∀ j, p.handed j → j.1 ≠ w.slot) {searching : Bool}
    (search : searching = true → v.placed = true) :
    ({ p with work := some v, searching := searching } : PoolView).Sound where
  size := h.size
  engaged := h.engaged
  filling := h.filling
  held := h.held
  ahead := by have := h.ahead; unfold PoolView.ahead at *; simp only [hw, opening] at *; exact this
  heldAhead i hi := by have := h.heldAhead i hi; unfold PoolView.ahead at *; simp only [hw, opening] at *; exact this
  nodup := h.nodup
  queued := h.queued
  work x hx := by cases hx; exact slot ▸ h.work w hw
  jobs := h.jobs
  oneJob := h.oneJob
  updating := h.updating
  placed x j hx hj same := by cases hx; exact absurd (same.trans slot) (alone j hj)
  searching on := ⟨v, rfl, search on⟩

/-- A frame in placement, placed and searched no more, is handed over. -/
theorem handOver {w : WorkView} (hw : p.work = some w) (placed : w.placed = true) (search : p.searching = false)
    (job : Nat × Bool) (slot : job.1 = w.slot) {handedJob waiting : Option (Nat × Bool)} {updating : Bool}
    (fewer : ∀ j, handedJob = some j ∨ waiting = some j → j = job ∨ p.handed j)
    (oneJob : handedJob = none ∨ waiting = none) (updates : updating = true → handedJob = none) :
    ({ p with job := handedJob, waiting := waiting, updating := updating } : PoolView).Sound where
  size := h.size
  engaged := h.engaged
  filling := h.filling
  held := h.held
  ahead := h.ahead
  heldAhead := h.heldAhead
  nodup := h.nodup
  queued := h.queued
  work := h.work
  jobs j hj := by
    rcases fewer j hj with rfl | old
    · exact .inl (slot ▸ h.work w hw)
    · exact h.jobs j old
  oneJob := oneJob
  updating := updates
  placed x j hx hj same := by
    rcases fewer j hj with rfl | old
    · rw [hw] at hx; cases hx; exact ⟨placed, search⟩
    · exact h.placed x j hx old same
  searching := h.searching

/-- Strip 0 is handed over from a HELD slot, in place of what was. -/
theorem handStrip0 {i : Nat} (hi : p.state i = .held) {handedJob waiting : Option (Nat × Bool)} {updating : Bool}
    (only : ∀ j, handedJob = some j ∨ waiting = some j → j = (i, true)) (oneJob : handedJob = none ∨ waiting = none)
    (updates : updating = true → handedJob = none) :
    ({ p with job := handedJob, waiting := waiting, updating := updating } : PoolView).Sound where
  size := h.size
  engaged := h.engaged
  filling := h.filling
  held := h.held
  ahead := h.ahead
  heldAhead := h.heldAhead
  nodup := h.nodup
  queued := h.queued
  work := h.work
  jobs j hj := by cases only j hj; exact .inr ⟨rfl, hi⟩
  oneJob := oneJob
  updating := updates
  placed w j hw hj same := by
    cases only j hj
    have engaged := h.work w hw
    rw [← same, hi] at engaged
    cases engaged
  searching := h.searching

/-- The held slot is ENGAGED at the end of a drain. -/
theorem engageHeld {i : Nat} (free : ∀ i, p.state i ≠ .engaged) (hi : p.state i = .held) : (p.set i .engaged).Sound := by
  have noWork := h.work_none free
  have state (j : Nat) : (p.set i .engaged).state j = if j = i then .engaged else p.state j := rfl
  refine ⟨h.size, ?_, ?_, ?_, h.ahead, ?_, h.nodup, ?_, ?_, ?_, h.oneJob, h.updating, ?_, h.searching⟩
  · intro j k; have := free j; have := free k; grind
  · intro j; have := h.filling j; rw [state]; grind [PoolView.set]
  · intro j k; have := h.held j k; grind
  · intro j hj; refine h.heldAhead j ?_; grind
  · intro j hj; have := h.queued j hj; rw [state]; grind
  · intro w hw; exact absurd (noWork.symm.trans hw) nofun
  · intro j hj; have := h.jobs j hj; rw [state]; grind
  · intro w j hw; exact absurd (noWork.symm.trans hw) nofun

/-- The engine takes the head of the queue. -/
theorem take {i : Nat} {rest : List Nat} (free : ∀ i, p.state i ≠ .engaged) (queue : p.queue = i :: rest) (v : WorkView)
    (slot : v.slot = i) (opening : v.opening = p.opening i) :
    ({ p.set i .engaged with queue := rest, work := some v } : PoolView).Sound := by
  have noWork := h.work_none free
  have search := h.not_searching_of_work noWork
  have queued := h.queued i (queue ▸ List.mem_cons_self ..)
  have nodup := h.nodup
  rw [queue, List.nodup_cons] at nodup
  have ahead : ({ p.set i .engaged with queue := rest, work := some v } : PoolView).ahead = p.ahead := by
    unfold PoolView.ahead
    simp only [noWork, queue, opening, PoolView.set, List.filter_cons]
    cases p.opening i with
    | false => rfl
    | true => simp only [↓reduceIte, List.length_cons]; omega
  have state (j : Nat) : ({ p.set i .engaged with queue := rest, work := some v } : PoolView).state j =
      if j = i then .engaged else p.state j := rfl
  refine ⟨h.size, ?_, ?_, ?_, ahead ▸ h.ahead, ?_, nodup.2, ?_, ?_, ?_, h.oneJob, h.updating, ?_, ?_⟩
  · intro j k; have := free j; have := free k; grind
  · intro j; have := h.filling j; rw [state]; grind [PoolView.set]
  · intro j k; have := h.held j k; grind
  · intro j hj; rw [ahead]; refine h.heldAhead j ?_; grind
  · intro j hj
    rw [state, if_neg (fun same : j = i => nodup.1 (same ▸ hj))]
    exact h.queued j (queue ▸ List.mem_cons_of_mem _ hj)
  · intro w hw; cases hw; rw [state, if_pos slot]
  · intro j hj; have := h.jobs j hj; rw [state]; grind
  · intro w j hw hj same
    cases hw
    have := h.jobs j hj
    rw [same, slot, queued] at this
    grind
  · intro on; rw [show p.searching = true from on] at search; cases search

/-- The opening frame's slot is HELD. -/
theorem hold {w : WorkView} (hw : p.work = some w) (opening : w.opening = true) (alone : ∀ j, p.handed j → j.1 ≠ w.slot)
    (search : p.searching = false) : ({ p.set w.slot .held with work := none } : PoolView).Sound := by
  have engaged := h.work w hw
  have ahead : ({ p.set w.slot .held with work := none } : PoolView).ahead + 1 = p.ahead := by
    unfold PoolView.ahead
    simp only [hw, opening, PoolView.set, ↓reduceIte]
  have few := h.ahead
  have noHeld (j : Nat) (hj : p.state j = .held) : False := by have := h.heldAhead j hj; omega
  have state (j : Nat) : ({ p.set w.slot .held with work := none } : PoolView).state j =
      if j = w.slot then .held else p.state j := rfl
  refine ⟨h.size, ?_, ?_, ?_, by omega, fun _ _ => by omega, h.nodup, ?_, nofun, ?_, h.oneJob, h.updating, nofun, ?_⟩
  · intro j k; have := h.engaged j k; grind
  · intro j; have := h.filling j; rw [state]; grind [PoolView.set]
  · intro j k; have := noHeld j; have := noHeld k; grind
  · intro j hj; have := h.queued j hj; rw [state]; grind
  · intro j hj; have := h.jobs j hj; rw [state, if_neg (alone j hj)]; exact this
  · intro on; rw [show p.searching = true from on] at search; cases search

/-- A slot that no frame in the engine's hands has is FREE; a frame on the port that filled it is gone. -/
theorem freed {i : Nat} (port : PortFrame) (fills : ∀ j, portFills port j = true ↔ portFills p.port j = true ∧ j ≠ i)
    (work : ∀ w, p.work = some w → w.slot ≠ i) (alone : ∀ j, p.handed j → j.1 ≠ i) :
    ({ p.set i .free with queue := p.queue.filter fun k => decide (k ≠ i), port := port } : PoolView).Sound := by
  have ahead : ({ p.set i .free with queue := p.queue.filter fun k => decide (k ≠ i), port := port } : PoolView).ahead ≤
      p.ahead := by
    have := ((List.filter_sublist (p := fun k => decide (k ≠ i)) (l := p.queue)).filter p.opening).length_le
    unfold PoolView.ahead PoolView.set
    dsimp only
    omega
  have state (j : Nat) : ({ p.set i .free with queue := p.queue.filter fun k => decide (k ≠ i), port := port } :
      PoolView).state j = if j = i then .free else p.state j := rfl
  refine ⟨h.size, ?_, ?_, ?_, ahead.trans h.ahead, ?_, h.nodup.filter _, ?_, ?_, ?_, h.oneJob, h.updating, h.placed,
    h.searching⟩
  · intro j k; have := h.engaged j k; grind
  · intro j; have := h.filling j; rw [state, fills]; grind
  · intro j k; have := h.held j k; grind
  · intro j hj
    have held : p.state j = .held := by grind
    exact Nat.le_zero.mp (h.heldAhead j held ▸ ahead)
  · intro j hj
    obtain ⟨inside, other⟩ := List.mem_filter.mp hj
    rw [state, if_neg (of_decide_eq_true other)]
    exact h.queued j inside
  · intro w hw; rw [state, if_neg (work w hw)]; exact h.work w hw
  · intro j hj; rw [state, if_neg (alone j hj)]; exact h.jobs j hj

/-- A frame fills a FREE slot. -/
theorem fill {i line : Nat} {shifting opening : Bool} (free : p.state i = .free)
    (noneFills : ∀ j, portFills p.port j = false) : ({ p.set i .filling with
      port := .filling i line shifting
      opening := fun j => if j = i then opening else p.opening j } : PoolView).Sound := by
  have other (j : Nat) (hj : p.state j ≠ .free) : j ≠ i := fun same => hj (same ▸ free)
  have ahead : ({ p.set i .filling with
      port := .filling i line shifting
      opening := fun j => if j = i then opening else p.opening j } : PoolView).ahead = p.ahead := by
    unfold PoolView.ahead
    have : (p.queue.filter fun j => if j = i then opening else p.opening j) = p.queue.filter p.opening :=
      List.filter_congr fun j hj => if_neg (other j (by rw [h.queued j hj]; exact nofun))
    simp only [PoolView.set, this]
    rfl
  have state (j : Nat) : ({ p.set i .filling with
      port := .filling i line shifting
      opening := fun j => if j = i then opening else p.opening j } : PoolView).state j =
      if j = i then .filling else p.state j := rfl
  refine ⟨h.size, ?_, ?_, ?_, ahead ▸ h.ahead, ?_, h.nodup, ?_, ?_, ?_, h.oneJob, h.updating, h.placed, h.searching⟩
  · intro j k; have := h.engaged j k; grind
  · intro j; have := h.filling j; rw [state]; simp only [portFills, decide_eq_true_eq]; grind
  · intro j k; have := h.held j k; grind
  · intro j hj; rw [ahead]; refine h.heldAhead j ?_; grind
  · intro j hj; have := h.queued j hj; rw [state, if_neg (other j (by rw [this]; exact nofun))]; exact this
  · intro w hw; have := h.work w hw; rw [state, if_neg (other _ (by rw [this]; exact nofun))]; exact this
  · intro j hj
    have := h.jobs j hj
    rw [state, if_neg (other _ (by rintro same; rw [same] at this; grind))]
    exact this

/-- The frame on the port is complete: its slot joins the queue, with the opening mark if that is still to be given. -/
theorem complete {i : Nat} {opening : Bool} (fills : portFills p.port i = true) (mark : opening = true → p.assigned = false) :
    ({ p.set i .queued with
      port := .ignored
      opening := fun j => if j = i then opening else p.opening j
      queue := p.queue ++ [i]
      assigned := p.assigned || opening } : PoolView).Sound := by
  have filling := (h.filling i).mpr fills
  have other (j : Nat) (hj : p.state j ≠ .filling) : j ≠ i := fun same => hj (same ▸ filling)
  have outside : i ∉ p.queue := fun hi => by have := h.queued i hi; rw [filling] at this; cases this
  have ahead : ({ p.set i .queued with
      port := .ignored
      opening := fun j => if j = i then opening else p.opening j
      queue := p.queue ++ [i]
      assigned := p.assigned || opening } : PoolView).ahead = p.ahead := by
    unfold PoolView.ahead
    have : (p.queue.filter fun j => if j = i then opening else p.opening j) = p.queue.filter p.opening :=
      List.filter_congr fun j hj => if_neg (fun same : j = i => outside (same ▸ hj))
    simp only [PoolView.set, List.filter_append, this, List.length_append, List.filter_cons, List.filter_nil, ↓reduceIte]
    cases opening with
    | false => simp only [Bool.or_false, Bool.false_eq_true, ↓reduceIte, List.length_nil, Nat.add_zero]
    | true => simp only [mark rfl, Bool.or_true, Bool.false_eq_true, ↓reduceIte, List.length_singleton]; omega
  have state (j : Nat) : ({ p.set i .queued with
      port := .ignored
      opening := fun j => if j = i then opening else p.opening j
      queue := p.queue ++ [i]
      assigned := p.assigned || opening } : PoolView).state j = if j = i then .queued else p.state j := rfl
  refine ⟨h.size, ?_, ?_, ?_, ahead ▸ h.ahead, ?_, ?_, ?_, ?_, ?_, h.oneJob, h.updating, h.placed, h.searching⟩
  · intro j k; have := h.engaged j k; grind
  · intro j
    have := h.filling j
    rw [state]
    have only : portFills p.port j = true → j = i := by
      revert fills
      cases p.port with
      | filling slot line shifting => simp only [portFills, decide_eq_true_eq]; rintro rfl rfl; rfl
      | low | ignored | header _ => exact nofun
    simp only [portFills]
    grind
  · intro j k; have := h.held j k; grind
  · intro j hj; rw [ahead]; refine h.heldAhead j ?_; grind
  · exact List.nodup_append.mpr ⟨h.nodup, List.nodup_singleton i, by
      intro a ha b hb same
      rw [List.mem_singleton.mp hb] at same
      exact outside (same ▸ ha)⟩
  · intro j hj
    rw [state]
    rcases List.mem_append.mp hj with hj | hj
    · rw [if_neg (fun same : j = i => outside (same ▸ hj))]; exact h.queued j hj
    · rw [if_pos (List.mem_singleton.mp hj)]
  · intro w hw; have := h.work w hw; rw [state, if_neg (other _ (by rw [this]; exact nofun))]; exact this
  · intro j hj
    have := h.jobs j hj
    rw [state, if_neg (other _ (by rintro same; rw [same] at this; grind))]
    exact this

/-- The frame on the port is another that fills the same. -/
theorem setPort (port : PortFrame) (fills : ∀ j, portFills port j = portFills p.port j) :
    ({ p with port := port } : PoolView).Sound where
  size := h.size
  engaged := h.engaged
  filling j := by rw [h.filling j, fills j]
  held := h.held
  ahead := h.ahead
  heldAhead := h.heldAhead
  nodup := h.nodup
  queued := h.queued
  work := h.work
  jobs := h.jobs
  oneJob := h.oneJob
  updating := h.updating
  placed := h.placed
  searching := h.searching

end PoolView.Sound

/-- A pool of FREE slots alone is sound. -/
theorem PoolView.Sound.of_free {p : PoolView} (size : p.size = 6) (free : ∀ i, p.state i = .free)
    (port : ∀ i, portFills p.port i = false) (queue : p.queue = []) (work : p.work = none) (job : p.job = none)
    (waiting : p.waiting = none) (search : p.searching = false) : p.Sound := by
  have ahead : p.ahead ≤ 1 := by
    unfold PoolView.ahead
    rw [queue, work]
    split <;> simp
  constructor
  all_goals simp_all [PoolView.handed]

end Sys2Proof.Machine
end

section
/-! SUPPORT. Every operation of the sweep and of the engine keeps the slot pool sound (R53, R54, R66, R108). -/

namespace Sys2Proof.Machine

/-! ## The view after a change of slots -/

theorem state_moveSlot {slots : List Slot} {i : Nat} (st : SlotState) (occupied : slotState slots i ≠ .free) :
    slotState (moveSlot slots i st) = fun j => if j = i then st else slotState slots j := by
  funext j
  obtain ⟨slot, at_i, state⟩ := getElem?_of_slotState_ne occupied
  by_cases same : j = i
  · subst same
    rw [if_pos rfl, moveSlot, slotState_modify_self _ at_i, Sys2Proof.Machine.occupied,
      decide_eq_true (by rw [state]; exact occupied)]
    rfl
  · rw [if_neg same, moveSlot, slotState_modify_ne _ _ (Ne.symm same)]

theorem state_freed (slots : List Slot) (i : Nat) : slotState (slots.modify i fun slot => { slot with state := .free }) =
    fun j => if j = i then .free else slotState slots j := by
  funext j
  by_cases same : j = i
  · rw [if_pos same, same, slotState_freed]
  · rw [if_neg same, slotState_modify_ne _ _ (Ne.symm same)]

/-- A change of a slot that keeps its record keeps every record. -/
theorem slotInfo_modify {f : Slot → Slot} (kept : ∀ slot, (f slot).info = slot.info) (slots : List Slot) (i j : Nat) :
    slotInfo (slots.modify i f) j = slotInfo slots j := by
  unfold slotInfo
  rw [List.getElem?_modify]
  cases slots[j]? with
  | none => rfl
  | some slot => by_cases h : i = j <;> simp [h, kept]

theorem slotInfo_moveSlot (slots : List Slot) (i : Nat) (st : SlotState) (j : Nat) :
    slotInfo (moveSlot slots i st) j = slotInfo slots j :=
  slotInfo_modify (fun slot => by split <;> rfl) slots i j

/-- One slot passes to another state, and the rest of the view as it is given. -/
theorem pool_moved {s t : State} {i : Nat} (st : SlotState) (occupied : slotState s.ingest.slots i ≠ .free)
    (slots : t.ingest.slots = moveSlot s.ingest.slots i st) : pool t = { pool t with
      size := (pool s).size, state := ((pool s).set i st).state, opening := (pool s).opening } := by
  have size : (moveSlot s.ingest.slots i st).length = s.ingest.slots.length := List.length_modify ..
  simp only [pool, PoolView.set, slots, state_moveSlot st occupied, slotInfo_moveSlot, size]

theorem pool_freeSlot {s : State} {i : Nat} (fate : Fate) (occupied : slotState s.ingest.slots i ≠ .free) :
    pool (freeSlot i fate s) =
      { (pool s).set i .free with queue := (pool s).queue.filter fun k => decide (k ≠ i) } := by
  rw [freeSlot, if_neg occupied]
  simp only [pool, PoolView.set, state_freed, List.length_modify]
  simp only [slotInfo_modify (f := fun slot => { slot with state := .free }) (fun _ => rfl)]

/-! ## The sweep controller -/

theorem pool_enterDone (s : State) : pool (enterDone s) =
    { (pool s).dropWork with job := none, waiting := none, updating := false } := by
  obtain ⟨_, _, h⟩ := enterDone_eq s
  rw [h]
  rfl

theorem enterDone_sound {s : State} (h : (pool s).Sound) : (pool (enterDone s)).Sound := by
  rw [pool_enterDone]
  exact h.dropWork.jobs_le (searching := false) (fun _ none => by simp at none) (.inl rfl) nofun nofun

theorem firstSlot_state {slots : List Slot} {st : SlotState} {i : Nat} (h : firstSlot slots st = some i) :
    i < slots.length ∧ slotState slots i = st := by
  obtain ⟨inside, found, -⟩ := List.findIdx?_eq_some_iff_getElem.mp h
  exact ⟨inside, by rw [slotState_mem inside]; exact of_decide_eq_true found⟩

theorem handStrip0_sound {s : State} (h : (pool s).Sound) : (pool (handStrip0 s)).Sound := by
  unfold handStrip0
  split
  · rename_i slot saved found _
    have held : (pool s).state slot = .held := (firstSlot_state found).2
    split
    · rename_i updating
      exact h.handStrip0 held (handedJob := (pool s).job) (waiting := some (slot, true)) (updating := (pool s).updating)
        (fun j hj => by rw [h.updating (decide_eq_true updating)] at hj; simpa [eq_comm] using hj)
        (.inl (h.updating (decide_eq_true updating))) h.updating
    · exact h.handStrip0 held (handedJob := some (slot, true)) (waiting := none) (updating := false)
        (fun j hj => by simpa [eq_comm] using hj) (.inr rfl) nofun
  · exact h

/-- Handing strip 0 over leaves the slots. -/
theorem handStrip0_slots (s : State) : (handStrip0 s).ingest.slots = s.ingest.slots := by
  unfold handStrip0
  split
  · split <;> rfl
  · rfl

theorem drainTest_sound {s : State} (h : (pool s).Sound) : (pool (drainTest s)).Sound := by
  unfold drainTest
  split
  · rename_i drains
    simp only [drained, Bool.and_eq_true, Bool.not_eq_true'] at drains
    have free : ∀ i, slotState s.ingest.slots i ≠ .engaged := (anySlot_eq_false_iff (st := .engaged) nofun).mp drains.2
    split
    · exact enterDone_sound h
    · rename_i slot found
      have held : slotState s.ingest.slots slot = .held := (firstSlot_state found).2
      have handed : (pool (handStrip0 { s with place := { s.place with direction := .plus, state := .passed } })).Sound :=
        handStrip0_sound h
      have slots := handStrip0_slots { s with place := { s.place with direction := .plus, state := .passed } }
      unfold drainHandOver
      generalize handStrip0 { s with place := { s.place with direction := .plus, state := .passed } } = u at handed slots
      have held' : (pool u).state slot = .held := by rw [← held]; exact congrArg (slotState · slot) slots
      have free' : ∀ i, (pool u).state i ≠ .engaged := fun i => by
        rw [show (pool u).state i = slotState s.ingest.slots i from congrArg (slotState · i) slots]; exact free i
      rw [pool_moved (s := u) .engaged (by rw [show slotState u.ingest.slots slot = .held from held']; exact nofun) rfl]
      exact handed.engageHeld free' held'
  · exact h

/-! ## Releases and hand-overs -/

/-- The engine releases a frame that nothing but its placement holds. -/
theorem releaseFrame_sound {s : State} {i : Nat} (fate : Fate) (h : (pool s).Sound)
    (engaged : (pool s).state i = .engaged) (alone : ∀ j, (pool s).handed j → j.1 ≠ i)
    (search : (pool s).searching = false) : (pool (releaseFrame i fate s)).Sound := by
  unfold releaseFrame
  refine drainTest_sound ?_
  have occupied : slotState s.ingest.slots i ≠ .free := by
    rw [show slotState s.ingest.slots i = .engaged from engaged]; exact nofun
  have view : pool { freeSlot i fate s with place := { (freeSlot i fate s).place with state := .ready, work := none } } =
      { (pool s).dropWork.set i .free with queue := (pool s).queue.filter fun k => decide (k ≠ i) } := by
    have freed := pool_freeSlot fate occupied
    calc pool { freeSlot i fate s with place := { (freeSlot i fate s).place with state := .ready, work := none } }
        = { pool (freeSlot i fate s) with work := none } := rfl
      _ = _ := by
        rw [freed]
        simp only [PoolView.set, PoolView.dropWork]
        rw [search]
  rw [view]
  refine h.dropWork.freed _ (fun j => ⟨fun fills => ⟨fills, fun same => ?_⟩, And.left⟩) nofun alone
  have filling := (h.filling j).mpr fills
  rw [same, engaged] at filling
  cases filling

theorem pool_placementOffer (w : Working) (advance overlap : Int) (s : State) :
    pool (placementOffer w advance overlap s) = pool s := by
  unfold placementOffer; split <;> rfl

theorem pool_recordResult (r : RegResult) (s : State) : pool (recordResult r s) = pool s := by
  unfold recordResult; split <;> rfl

theorem pool_applyPending (s : State) : pool (applyPending s) = pool s := by
  unfold applyPending; split <;> rfl

/-- The compositor begins on the frame handed over, or releases it. -/
theorem advanceTest_sound {job : StripJob} {s : State}
    (h : ({ pool s with job := some (jobView job), waiting := none, updating := false } : PoolView).Sound) :
    (pool (advanceTest job s)).Sound := by
  unfold advanceTest
  dsimp only
  split
  · exact h
  · rename_i behind
    have ordinary : job.strip0 = false := by
      simp only [stripAdvances, Bool.or_eq_true, not_or, Bool.not_eq_true] at behind
      exact behind.1
    have engaged : (pool s).state job.slot = .engaged := by
      rcases h.jobs (jobView job) (.inl rfl) with engaged | ⟨strip0, -⟩
      · exact engaged
      · rw [show job.strip0 = true from strip0] at ordinary; cases ordinary
    have search : (pool s).searching = false := by
      cases on : (pool s).searching with
      | false => rfl
      | true =>
        obtain ⟨w, hw, -⟩ := h.searching on
        exact on.symm.trans (h.placed w (jobView job) hw (.inl rfl) (h.engaged _ _ engaged (h.work w hw))).2
    have dropped : ({ pool s with job := none, waiting := none, updating := false } : PoolView).Sound :=
      h.jobs_le (searching := (pool s).searching) (fun _ none => by simp at none) (.inl rfl) nofun id
    have view := pool_applyPending
      { s with comp := { s.comp with state := .ready, job := none, waiting := none, todo := [] } }
    generalize applyPending _ = u at view
    have view : pool u = { pool s with job := none, waiting := none, updating := false } := view
    refine releaseFrame_sound .noAdvance (view ▸ dropped) (by rw [view]; exact engaged) (fun j hj => ?_)
      (by rw [view]; exact search)
    rw [view] at hj
    simp [PoolView.handed] at hj

/-- A placed frame, searched no more, is handed over. -/
theorem handOver_sound {job : StripJob} {w : Working} {s : State} (h : (pool s).Sound) (work : s.place.work = some w)
    (placed : w.stage = .placed) (search : (pool s).searching = false) (slot : job.slot = w.slot) :
    (pool (handOver job s)).Sound := by
  have at_w : (pool s).work = some (workView w) := by simp [pool, work]
  unfold handOver
  split
  · rename_i updating
    have none := h.updating (decide_eq_true updating)
    refine h.handOver at_w (decide_eq_true placed) search (jobView job) slot (handedJob := (pool s).job)
      (waiting := some (jobView job)) (updating := (pool s).updating) ?_ (.inl none) h.updating
    rintro j (old | new)
    · exact .inr (.inl old)
    · exact .inl (Option.some.inj new).symm
  · refine advanceTest_sound (h.handOver at_w (decide_eq_true placed) search (jobView job) slot ?_ (.inr rfl) nofun)
    rintro j (new | none)
    · exact .inl (Option.some.inj new).symm
    · cases none

/-! ## Registration and the column step -/

/-- The frame `w` is placed, in no search, and not handed over. -/
structure Placed (w : Working) (s : State) : Prop where
  sound : ({ pool s with work := some (workView w), searching := false } : PoolView).Sound
  alone : ∀ j, (pool s).handed j → j.1 ≠ w.slot
  placed : w.stage = .placed

theorem finishRegistration_sound (r : RegResult) {w : Working} {s : State} (h : Placed w s) :
    (pool (finishRegistration r w s)).Sound := by
  unfold finishRegistration
  dsimp only
  have view : pool (recordResult r { s with
      place := { s.place with state := .passed, work := some (edgeStep s.sweepCfg r w) }
      reg := { s.reg with state := .idle } }) = { pool s with work := some (workView w), searching := false } :=
    pool_recordResult ..
  have work : (recordResult r { s with
      place := { s.place with state := .passed, work := some (edgeStep s.sweepCfg r w) }
      reg := { s.reg with state := .idle } }).place.work = some (edgeStep s.sweepCfg r w) := by
    unfold recordResult; split <;> rfl
  generalize recordResult r _ = u at view work
  have sound : (pool u).Sound := view ▸ h.sound
  have search : (pool u).searching = false := by rw [view]
  split
  · refine releaseFrame_sound .guide sound ?_ (fun j hj => ?_) search
    · rw [view]; exact h.sound.work _ rfl
    · rw [view] at hj; exact h.alone j hj
  · exact handOver_sound sound work h.placed search rfl

theorem registerFrame_sound {w : Working} {s : State} (h : Placed w s) : (pool (registerFrame w s)).Sound := by
  unfold registerFrame
  split
  · exact finishRegistration_sound _ h
  · exact h.sound.setWork (workView w) rfl rfl rfl h.alone (searching := true) fun _ => decide_eq_true h.placed

theorem Placed.of_pool {w : Working} {s t : State} (h : Placed w s) (same : pool t = pool s) : Placed w t :=
  ⟨by rw [same]; exact h.sound, by rw [same]; exact h.alone, h.placed⟩

theorem offerAndRegister_sound {w : Working} {s : State} (h : Placed w s) : (pool (offerAndRegister w s)).Sound :=
  registerFrame_sound (h.of_pool (pool_placementOffer ..))

/-! ## The steps of placement -/

/-- The frame `w` is in placement, not placed yet, and its record is the one at hand, as far as the pool sees. -/
structure InPlacement (w : Working) (s : State) : Prop where
  sound : (pool s).Sound
  work : (pool s).work = some (workView w)
  unplaced : (workView w).placed = false

section InPlacement

variable {w : Working} {s : State} (h : InPlacement w s)

include h

theorem InPlacement.alone : ∀ j, (pool s).handed j → j.1 ≠ w.slot := h.sound.alone_of_unplaced h.work h.unplaced

theorem InPlacement.search : (pool s).searching = false := h.sound.not_searching_of_unplaced h.work h.unplaced

theorem InPlacement.engaged : (pool s).state w.slot = .engaged := h.sound.work _ h.work

/-- The frame is placed. -/
theorem InPlacement.toPlaced {v : Working} (slot : v.slot = w.slot) (cls : v.cls = w.cls) (placed : v.stage = .placed) :
    Placed v s :=
  ⟨h.sound.setWork (workView v) h.work slot (by simp only [workView, cls]) h.alone nofun,
    fun j hj same => h.alone j hj (same.trans slot), placed⟩

theorem InPlacement.release (fate : Fate) {t : State} (same : pool t = pool s) : (pool (releaseFrame w.slot fate t)).Sound :=
  releaseFrame_sound fate (same ▸ h.sound) (same ▸ h.engaged) (by rw [same]; exact h.alone) (same ▸ h.search)

/-- The frame goes on with a record that is of the same slot and class. -/
theorem InPlacement.goOn {v : Working} (slot : v.slot = w.slot) (cls : v.cls = w.cls) :
    ({ pool s with work := some (workView v) } : PoolView).Sound :=
  h.sound.setWork (workView v) h.work slot (by simp only [workView, cls]) h.alone fun on => by
    rw [h.search] at on; cases on

theorem InPlacement.direction {v : Working} (slot : v.slot = w.slot) (cls : v.cls = w.cls) :
    (pool (directionStep v s)).Sound := by
  unfold directionStep
  dsimp only
  split
  · rw [slot]; exact h.release .guide (pool_placementOffer ..)
  · split
    · rw [slot]; exact h.release .still (pool_placementOffer ..)
    · refine handStrip0_sound ?_
      exact h.goOn (v := { v with stage := .awaitStrip0 }) slot cls

theorem InPlacement.hold {v : Working} (slot : v.slot = w.slot) (opening : w.cls = .opening) :
    (pool (holdOpening v s)).Sound := by
  have offered := pool_placementOffer v 0 0 s
  refine drainTest_sound ?_
  generalize placementOffer v 0 0 s = u at offered
  have engaged : slotState u.ingest.slots w.slot = .engaged := by
    show (pool u).state w.slot = .engaged
    rw [offered]; exact h.engaged
  have held := (offered ▸ h.sound : (pool u).Sound).hold (offered ▸ h.work) (decide_eq_true opening)
    (by rw [offered]; exact h.alone) (offered ▸ h.search)
  rw [slot, pool_moved (s := u) (i := w.slot) .held (by rw [engaged]; exact nofun) rfl]
  exact held

end InPlacement

/-- Where a step of placement leaves the pool: sound, with the record that it goes on with. -/
def Course.Sound : Course → Prop
  | .goOn w s => ({ pool s with work := some (workView w) } : PoolView).Sound
  | .rest s => (pool s).Sound

theorem afterReference_sound (pose : PoseFound) {w : Working} {s : State} (h : InPlacement w s) :
    (afterReference pose w s).Sound := by
  unfold afterReference
  dsimp only
  split
  · exact h.goOn rfl rfl
  · split
    · exact h.direction rfl rfl
    · exact h.goOn rfl rfl

theorem afterBand_sound (k : Nat) (pose : PoseFound) {w : Working} {s : State} (h : InPlacement w s) :
    (afterBand k pose w s).Sound := by
  unfold afterBand
  dsimp only
  split
  · exact h.goOn rfl rfl
  · split
    · rename_i opening; exact h.hold rfl opening
    · exact offerAndRegister_sound (h.toPlaced rfl rfl rfl)

theorem takeAnswer_sound (answer : LookupAnswer) {w : Working} {s : State} (h : InPlacement w s) :
    (takeAnswer answer w s).Sound := by
  unfold takeAnswer
  split
  · exact h.goOn (v := w) rfl rfl
  · exact offerAndRegister_sound (h.toPlaced rfl rfl rfl)
  · split
    · exact afterReference_sound _ h
    · exact afterBand_sound _ _ h
    all_goals exact h.sound

theorem workView_meetLoss (s : State) (w : Working) : workView (meetLoss s w) = workView w := by
  unfold meetLoss; split <;> rfl

theorem placeStep_sound {w : Working} {s : State} (sound : (pool s).Sound) (work : (pool s).work = some (workView w)) :
    (placeStep w s).Sound := by
  have inPlacement (unplaced : (workView w).placed = false) : InPlacement (meetLoss s w) s :=
    ⟨sound, by rw [workView_meetLoss]; exact work, by rw [workView_meetLoss]; exact unplaced⟩
  unfold placeStep
  split
  · exact sound
  · exact sound
  · rename_i stage
    exact takeAnswer_sound _ (inPlacement (decide_eq_false (by rw [stage]; exact nofun)))
  · rename_i stage
    exact takeAnswer_sound _ (inPlacement (decide_eq_false (by rw [stage]; exact nofun)))

theorem placeRun_sound : ∀ (n : Nat) {w : Working} {s : State},
    ({ pool s with work := some (workView w) } : PoolView).Sound → (pool (placeRun n w s)).Sound
  | 0, _, _, h => h
  | n + 1, w, s, h => by
    have step := placeStep_sound (w := w) (s := { s with place := { s.place with state := .placing, work := some w } }) h rfl
    unfold placeRun
    split
    · rename_i heq; rw [heq] at step; exact placeRun_sound n step
    · rename_i heq; rw [heq] at step; exact step

/-! ## The take (R66) -/

theorem takeFrame_sound {i : Nat} {rest : List Nat} {s : State} (h : (pool s).Sound)
    (free : ∀ j, slotState s.ingest.slots j ≠ .engaged) (queue : s.ingest.queue = i :: rest) :
    (pool (takeFrame i s)).Sound := by
  have queued : slotState s.ingest.slots i = .queued := h.queued i (by simp [pool, queue])
  have opening : (workView (workingRecord s i)).opening = (pool s).opening i := by
    simp only [workView, workingRecord, classify, pool]
    split
    · simp_all
    · split
      · split <;> simp_all
      · simp_all
  have taken := h.take free queue (workView (workingRecord s i)) rfl opening
  have erased : s.ingest.queue.erase i = rest := by rw [queue, List.erase_cons_head]
  have view : pool { s with ingest := { s.ingest with
      queue := s.ingest.queue.erase i, slots := moveSlot s.ingest.slots i .engaged } } =
      { (pool s).set i .engaged with queue := rest } := by
    rw [pool_moved (s := s) (i := i) .engaged (by rw [queued]; exact nofun) rfl, erased]
    rfl
  have noWork := h.work_none free
  have search := h.not_searching_of_work noWork
  unfold takeFrame
  dsimp only
  split
  · have dropped := taken.dropWork
    refine releaseFrame_sound .guide ?_ ?_ ?_ ?_
    all_goals rw [view]
    · convert dropped using 1
      simp only [PoolView.dropWork, PoolView.set]
      rw [noWork, search]
    · exact if_pos rfl
    · intro j hj same
      have := h.jobs j hj
      rw [same, show (pool s).state i = .queued from queued] at this
      rcases this with this | ⟨-, this⟩ <;> cases this
    · exact search
  · exact placeRun_sound _ (by rw [view]; exact taken)

theorem engineGo_sound : ∀ (n : Nat) {s : State}, (pool s).Sound → (pool (engineGo n s)).Sound
  | 0, _, h => h
  | n + 1, s, h => by
    unfold engineGo
    split
    · rename_i can
      simp only [canTake, Bool.and_eq_true, Bool.not_eq_true'] at can
      split
      · exact h
      · rename_i queue
        exact engineGo_sound n (takeFrame_sound h ((anySlot_eq_false_iff (st := .engaged) nofun).mp can.2) queue)
    · exact h

/-! ## Placement goes on -/

theorem pool_work {s : State} {w : Working} (h : s.place.work = some w) :
    { pool s with work := some (workView w) } = pool s := by
  simp only [pool, h, Option.map_some]

theorem resumePlacement_sound {s : State} (h : (pool s).Sound) : (pool (resumePlacement s)).Sound := by
  unfold resumePlacement
  split
  · rename_i work; exact placeRun_sound _ (pool_work work ▸ h)
  · exact h

theorem entryAnnounced_sound {s : State} (h : (pool s).Sound) : (pool (entryAnnounced s)).Sound := by
  unfold entryAnnounced
  split
  · rename_i work
    split
    · exact placeRun_sound _ (pool_work work ▸ h)
    · exact h
  · exact h

theorem expireWait_sound {s : State} (h : (pool s).Sound) : (pool (expireWait s)).Sound := by
  unfold expireWait
  split
  · rename_i work; exact placeRun_sound _ (pool_work work ▸ h)
  · exact h

theorem resumeDeciding_sound {s : State} (h : (pool s).Sound) : (pool (resumeDeciding s)).Sound := by
  unfold resumeDeciding
  split
  · rename_i w work
    split
    · rename_i waits
      have inPlacement : InPlacement w s :=
        ⟨h, by simp [pool, work], decide_eq_false (by rw [waits]; exact nofun)⟩
      exact placeRun_sound _ (inPlacement.goOn rfl rfl)
    · exact h
  · exact h

/-! ## Searches, commits and updates -/

theorem completeSearch_sound {s : State} (h : (pool s).Sound) : (pool (completeSearch s)).Sound := by
  unfold completeSearch
  split
  · rename_i w searching work
    have at_w : (pool s).work = some (workView w) := by simp [pool, work]
    have on : (pool s).searching = true := decide_eq_true searching
    split
    · obtain ⟨v, hv, placed⟩ := h.searching on
      rw [at_w] at hv
      cases hv
      have alone : ∀ j, (pool s).handed j → j.1 ≠ w.slot := fun j hj same => by
        have off := (h.placed _ j at_w hj same).2
        rw [on] at off
        cases off
      exact engineGo_sound _ (finishRegistration_sound _
        ⟨h.setWork (workView w) at_w rfl rfl alone nofun, alone, of_decide_eq_true placed⟩)
    · exact h
  · exact h

theorem completeWrites_sound {s : State} (h : (pool s).Sound) : (pool (completeWrites s)).Sound := by
  unfold completeWrites
  split
  · split
    · exact h.jobs_le (job := (pool s).job) (waiting := (pool s).waiting) (updating := false) (searching := false)
        (fun _ => id) h.oneJob nofun nofun
    · exact h
  · exact h

theorem pool_commitCauses (job : StripJob) (s : State) : pool (commitCauses job s) = pool s := by
  unfold commitCauses; dsimp only; split <;> rfl

theorem pool_commitEnd (job : StripJob) (s : State) : pool (commitEnd job s) = pool s := by
  unfold commitEnd; split <;> rfl

theorem OnlyFetch.pool_eq {s t : State} : OnlyFetch s t → pool t = Machine.pool s := by
  rintro ⟨_, _, rfl⟩; rfl

theorem commitDrain_sound (job : StripJob) (handedOver : Bool) {s : State} (h : (pool s).Sound) :
    (pool (commitDrain job handedOver s)).Sound := by
  unfold commitDrain
  split
  · exact h
  · exact drainTest_sound h

/-- The record of a frame whose own strip has committed is removed. -/
theorem pool_commitPlace_of_same {job : StripJob} {s : State} {w : Working} (work : s.place.work = some w)
    (same : w.slot = job.slot) : pool (commitPlace job s) = { pool s with work := none } := by
  simp only [pool, commitPlace, work, if_pos same, Option.map_none]

theorem pool_commitPlace_of_ne {job : StripJob} {s : State} (other : ∀ w, s.place.work = some w → w.slot ≠ job.slot) :
    pool (commitPlace job s) = pool s := by
  cases work : s.place.work with
  | none => simp only [pool, commitPlace, work]
  | some w => simp only [pool, commitPlace, work, if_neg (other w work)]

/-- The slot of the strip that commits is FREE, its frame not handed over any more, and the update begins. -/
theorem committed_sound {job : StripJob} {s : State} (h : (pool s).Sound) (hand : s.comp.job = some job)
    (search : (pool s).searching = false) :
    (pool (commitPlace job (freeSlot job.slot .composited (applyPending (commitComp job s))))).Sound := by
  have at_job : (pool s).handed (jobView job) := .inl (by simp [pool, hand])
  have noWaiting : (pool s).waiting = none := h.oneJob.resolve_left (by simp [pool, hand])
  have slot := h.jobs _ at_job
  have occupied : slotState s.ingest.slots job.slot ≠ .free := by
    rintro free
    rcases slot with slot | ⟨-, slot⟩ <;> exact absurd (slot.symm.trans free) nofun
  have notFilling (j : Nat) : portFills s.ingest.port j = true ↔ portFills s.ingest.port j = true ∧ j ≠ job.slot := by
    refine ⟨fun fills => ⟨fills, fun same => ?_⟩, And.left⟩
    have filling := (h.filling j).mpr fills
    rw [same] at filling
    rcases slot with slot | ⟨-, slot⟩ <;> exact absurd (slot.symm.trans filling) nofun
  have begun : pool (applyPending (commitComp job s)) =
      { pool s with job := none, waiting := none, updating := true, searching := false } := by
    have same : pool (commitComp job s) = { pool s with
        job := none, waiting := (pool s).waiting, updating := true, searching := (pool s).searching } := rfl
    rw [pool_applyPending, same, noWaiting, search]
  have dropped : ({ pool s with job := none, waiting := none, updating := true, searching := false } : PoolView).Sound :=
    h.jobs_le (fun _ none => by simp at none) (.inl rfl) (fun _ => rfl) nofun
  have work : (freeSlot job.slot .composited (applyPending (commitComp job s))).place.work = s.place.work := by
    have : (applyPending (commitComp job s)).place.work = s.place.work := by unfold applyPending; split <;> rfl
    rw [← this]; unfold freeSlot; split <;> rfl
  generalize applyPending (commitComp job s) = u at begun work
  have occupied' : slotState u.ingest.slots job.slot ≠ .free := by
    rw [show slotState u.ingest.slots job.slot = slotState s.ingest.slots job.slot from
      congrArg (PoolView.state · job.slot) begun]
    exact occupied
  by_cases own : ∃ w, s.place.work = some w ∧ w.slot = job.slot
  · obtain ⟨w, at_w, same⟩ := own
    rw [pool_commitPlace_of_same (work.trans at_w) same, pool_freeSlot _ occupied', begun]
    exact dropped.dropWork.freed _ notFilling nofun (fun j hj => by simp [PoolView.handed, PoolView.dropWork] at hj)
  · have other (w : Working) (at_w : s.place.work = some w) : w.slot ≠ job.slot := fun same => own ⟨w, at_w, same⟩
    rw [pool_commitPlace_of_ne (by rw [work]; exact other), pool_freeSlot _ occupied', begun]
    refine dropped.freed _ notFilling (fun v hv => ?_) (fun j hj => by simp [PoolView.handed] at hj)
    obtain ⟨w, at_w, rfl⟩ := Option.map_eq_some_iff.mp hv
    exact other w at_w

theorem commitStrip_sound {job : StripJob} {s : State} (h : (pool s).Sound) (hand : s.comp.job = some job)
    (search : (pool s).searching = false) : (pool (commitStrip job s)).Sound := by
  have committed := committed_sound h hand search
  unfold commitStrip
  extract_lets handedOver s1 s2 s3
  have stall : pool s3 = pool s2 := by
    rw [show s3 = retestStall (commitEnd job (commitCauses job (beginUpdate s2))) from rfl, (retestStall_only _).pool_eq,
      pool_commitEnd, pool_commitCauses]
    rfl
  exact engineGo_sound _ (resumeDeciding_sound (commitDrain_sound job handedOver (stall ▸ committed)))

theorem completeHarvest_sound {s : State} (h : (pool s).Sound) : (pool (completeHarvest s)).Sound := by
  unfold completeHarvest
  split
  · rename_i job harvesting _ hand
    have search : (pool s).searching = false := by simp [pool, harvesting]
    split
    · have table : pool (harvestTables job (dropEngine .registration s)) = { pool s with searching := false } := rfl
      exact commitStrip_sound (by rw [table, ← search]; exact h) hand rfl
    · exact h
  · exact h

theorem completeUpdate_sound {s : State} (h : (pool s).Sound) : (pool (completeUpdate s)).Sound := by
  unfold completeUpdate
  split
  · rename_i updates
    have none := h.updating (decide_eq_true updates.1)
    dsimp only
    split
    · rename_i job waiting
      refine engineGo_sound _ (advanceTest_sound ?_)
      exact h.jobs_le (searching := (pool s).searching)
        (fun j hj => .inr (by simpa [pool, waiting] using hj)) (.inr rfl) nofun id
    · exact h.jobs_le (job := (pool s).job) (waiting := (pool s).waiting) (updating := false)
        (searching := (pool s).searching) (fun _ => id) h.oneJob nofun id
  · exact h

theorem completeClosing_sound {s : State} (h : (pool s).Sound) : (pool (completeClosing s)).Sound := by
  unfold completeClosing
  split
  · dsimp only
    rw [(retestStall_only _).pool_eq]
    exact h.jobs_le (job := (pool s).job) (waiting := (pool s).waiting) (updating := false)
      (searching := (pool s).searching) (fun _ => id) h.oneJob nofun id
  · exact h

/-! ## The end of the sweep -/

theorem resetPort_fills (port : PortFrame) (i : Nat) : portFills (resetPort port) i = false := by
  cases port <;> rfl

/-- With every slot FREE, the frame on the port ignored and the engine at rest the pool is sound. -/
theorem pool_sound_of_discarded {s : State} (size : s.ingest.slots.length = 6)
    (free : ∀ i, slotState s.ingest.slots i = .free) (port : ∀ i, portFills s.ingest.port i = false)
    (queue : s.ingest.queue = []) (work : s.place.work = none) (job : s.comp.job = none)
    (waiting : s.comp.waiting = none) (search : s.reg.state ≠ .searching) : (pool s).Sound :=
  .of_free size free port queue (by simp [pool, work]) (by simp [pool, job]) (by simp [pool, waiting])
    (decide_eq_false search)

theorem portFills_discarded (s : State) (i : Nat) : portFills (discardSlots s).ingest.port i = false := by
  rw [discardSlots_port]
  split <;> rfl

theorem endSweep_sound (reason : LastReason) {s : State} (h : (pool s).Sound) : (pool (endSweep reason s)).Sound := by
  unfold endSweep
  rw [pool_enterDone]
  refine .of_free ?_ ?_ ?_ rfl rfl rfl rfl rfl
  · exact (List.length_map ..).trans h.size
  · exact slotState_discarded _
  · exact portFills_discarded _

theorem takeEndRequest_sound (reason : EndReason) {s : State} (h : (pool s).Sound) :
    (pool (takeEndRequest reason s)).Sound := by
  unfold takeEndRequest
  split
  · dsimp only
    split
    · exact endSweep_sound _ h
    · exact endSweep_sound _ h
    all_goals exact h
  · exact h

end Sys2Proof.Machine
end

section
/-! SUPPORT. Every command keeps the slot pool sound, with O58 from it. -/

namespace Sys2Proof.Machine

/-- What a command answers keeps the pool sound. -/
def PoolKept (s : State) : Answer → Prop
  | .next t => (pool s).Sound → (pool t).Sound
  | .fault _ | .refused _ => True

/-- What settles after a command is none of the pool's affairs. -/
theorem pool_settle (b m : Bool) (s : State) : pool (settle b m s) = pool s := by
  obtain ⟨⟨-, -, job, -⟩, -⟩ := settle_settlesTo b m s
  have jobs : (settle b m s).comp.job.map jobView = s.comp.job.map jobView := by
    have slots := congrArg (Option.map jobView) job
    rwa [Option.map_map, Option.map_map] at slots
  simp only [pool, settle_slots, settle_port, settle_openingAssigned, settle_queue, settle_place, jobs, settle_waiting,
    settle_compState, settle_reg]

theorem settle_sound {b m : Bool} {s : State} (h : (pool s).Sound) : (pool (settle b m s)).Sound := by
  rw [pool_settle]; exact h

/-! ## The control link -/

theorem runCommand_sound (kind tag : Byte) (length : Nat) (takenIn : SweepState → Bool) (payload : List Byte)
    {body : State → Ran} (s : State) (h : ∀ t, (pool t).Sound → (pool (body t).state).Sound) :
    PoolKept s (.next (runCommand kind tag length takenIn payload body s)) := by
  intro sound
  have ran := h (takeSlot kind tag s) sound
  unfold runCommand
  dsimp only
  split
  · split
    · exact sound
    · exact ran
  · exact sound

/-! ## Power-on, start-up and self-test -/

theorem powerOnState_sound (s : State) : (pool (powerOnState s)).Sound :=
  pool_sound_of_discarded rfl (fun i => by
    show slotState State.reset.ingest.slots i = .free
    rcases i with _ | _ | _ | _ | _ | _ | i <;> rfl) (resetPort_fills _) rfl rfl rfl rfl nofun

theorem pool_finishCommand (payload : List Byte) (s : State) : pool (finishCommand payload s) = pool s := by
  unfold finishCommand; split <;> rfl

theorem execDramInitialised_sound (strap : Bool) (s : State) : PoolKept s (execDramInitialised strap s) := by
  intro sound
  have answered : (pool (finishCommand []
      { s with store := { s.store with mem := [], singleFlaws := [], multiFlaws := [] } })).Sound := by
    rw [pool_finishCommand]; exact sound
  show (pool (if _ then _ else _)).Sound
  split
  · dsimp only
    split
    · exact settle_sound answered
    · exact answered
  · exact sound

theorem pool_testTraces (outcome : Nat) (s : State) : pool (testTraces outcome s) = pool s := by
  have reg : (testTraces outcome s).reg.state = s.reg.state := by
    have : (testTraces outcome s).reg = if testRan 5 outcome then { s.reg with lead := [], opening := [] } else s.reg := rfl
    rw [this]; split <;> rfl
  have search : decide ((testTraces outcome s).reg.state = .searching) = decide (s.reg.state = .searching) :=
    decide_eq_decide.mpr (by rw [reg])
  simp only [pool, testTraces_ingest, testTraces_place, testTraces_comp, search]; rfl

theorem pool_endTests (outcome : Nat) (s : State) : pool (endTests outcome s) = pool s := by
  have traces := pool_testTraces outcome (dropSelf s)
  unfold endTests
  dsimp only
  rw [pool_finishCommand]
  split <;> exact traces

theorem armSweep_sound {s : State} (h : (pool s).Sound) : (pool (armSweep s)).Sound := by
  have size : (compositorStop (engineHalt s)).ingest.slots.length = 6 := by
    obtain ⟨_, _, _, _, same⟩ := engineHalt_eq s
    rw [same]; exact h.size
  unfold armSweep
  rw [(discardFetch_only _).pool_eq]
  exact pool_sound_of_discarded ((List.length_map ..).trans size) (slotState_discarded _) (resetPort_fills _) rfl rfl rfl
    rfl nofun

/-- The engine and the compositor at rest leave the slots as they are. -/
theorem pool_stopped (s : State) : pool (compositorStop (engineHalt s)) =
    { (pool s).dropWork with job := none, waiting := none, updating := false } := by
  have halted : ∃ c a, engineHalt s = { s with
      place := { s.place with state := .ready, work := none, saved := none }
      reg := { s.reg with state := .idle, openingHarvest := false }, comp := c, arb := a } := by
    unfold engineHalt; dsimp only; split <;> exact ⟨_, _, rfl⟩
  obtain ⟨_, _, same⟩ := halted
  rw [same]
  rfl

theorem beginSelftest_sound {s : State} (h : (pool s).Sound) : (pool (beginSelftest s)).Sound := by
  have stopped : (pool (compositorStop (engineHalt s))).Sound := by
    rw [pool_stopped]
    exact h.dropWork.jobs_le (searching := false) (fun _ none => by simp at none) (.inl rfl) nofun nofun
  have search : (pool (compositorStop (engineHalt s))).searching = false := by rw [pool_stopped]; rfl
  unfold beginSelftest
  dsimp only
  show (pool (discardFetch _)).Sound
  rw [(discardFetch_only _).pool_eq]
  show ({ pool (compositorStop (engineHalt s)) with searching := false } : PoolView).Sound
  rw [← search]
  exact stopped

theorem execSelftest_sound (tag : Byte) (payload : List Byte) (s : State) : PoolKept s (execSelftest tag payload s) := by
  intro sound
  have begun : (pool (beginSelftest (takeSlot 10 tag s))).Sound := beginSelftest_sound sound
  show (pool (if _ then _ else _)).Sound
  split
  · split
    · exact sound
    · exact settle_sound begun
  · exact sound

/-! ## The sweep's commands -/

theorem stopSweep_sound {s : State} (h : (pool s).Sound) : (pool (stopSweep s)).Sound := by
  unfold stopSweep
  split
  · exact h
  · exact drainTest_sound h
  all_goals exact h

theorem abortBody_sound {s : State} (h : (pool s).Sound) : (pool (abortBody s)).Sound := by
  have abort : (pool (abortSweep s)).Sound := by
    unfold abortSweep
    dsimp only
    rw [(discardFetch_only _).pool_eq]
    show ({ pool (compositorStop (engineHalt (discardSlots s))) with searching := false } : PoolView).Sound
    rw [pool_stopped]
    exact .of_free ((List.length_map ..).trans h.size) (slotState_discarded _) (portFills_discarded _) rfl rfl rfl rfl rfl
  unfold abortBody
  split
  iterate 4 exact abort
  all_goals exact h

/-! ## The pixel port -/

theorem setPort_sound {s : State} {port : PortFrame} (h : (pool s).Sound)
    (fills : ∀ j, portFills port j = portFills s.ingest.port j) : (pool (setPort port s)).Sound :=
  h.setPort port fills

theorem pool_readStopMark (header : Header) (s : State) : pool (readStopMark header s) = pool s := by
  unfold readStopMark; split <;> rfl

/-- A frame on the port takes a FREE slot, is dropped or is rejected. -/
theorem placeHeader_sound (header : Header) (tSof : Time) {s : State} (h : (pool s).Sound)
    (empty : ∀ j, portFills s.ingest.port j = false) : (pool (placeHeader header tSof s)).Sound := by
  unfold placeHeader
  split
  · split
    · rename_i slot found
      obtain ⟨inside, free⟩ := firstSlot_state found
      have view : pool (fillSlot slot header tSof s) = { (pool s).set slot .filling with
          port := .filling slot 0 false, opening := fun j => if j = slot then false else (pool s).opening j } := by
        have state : slotState (s.ingest.slots.modify slot fun _ => ⟨.filling, headerRecord header tSof⟩) =
            fun j => if j = slot then .filling else slotState s.ingest.slots j := by
          funext j
          rw [slotState_modify]
          by_cases same : j = slot
          · subst same
            rw [if_pos rfl, if_pos rfl, List.getElem?_eq_getElem inside]
          · rw [if_neg same, if_neg (Ne.symm same)]
        have info (j : Nat) : (slotInfo (s.ingest.slots.modify slot fun _ => ⟨.filling, headerRecord header tSof⟩) j).opening =
            if j = slot then false else (slotInfo s.ingest.slots j).opening := by
          unfold slotInfo
          rw [List.getElem?_modify]
          by_cases same : j = slot
          · subst same
            simp [List.getElem?_eq_getElem inside, headerRecord]
          · cases s.ingest.slots[j]? <;> simp [Ne.symm same, same]
        simp only [pool, PoolView.set, fillSlot, setPort, state, info, List.length_modify]; rfl
      rw [view]
      exact h.fill free empty
    · exact setPort_sound h fun j => (empty j).symm
  · exact setPort_sound h fun j => (empty j).symm

theorem admitHeader_sound (header : Option Header) (tSof : Time) {s : State} (h : (pool s).Sound)
    (empty : ∀ j, portFills s.ingest.port j = false) : (pool (admitHeader header tSof s)).Sound := by
  cases header with
  | none => exact setPort_sound h fun j => (empty j).symm
  | some header =>
    refine drainTest_sound (placeHeader_sound header tSof ?_ ?_)
    · rw [pool_readStopMark]; exact h
    · have port := congrArg PoolView.port (pool_readStopMark header (checkSequence header (countReceived s)))
      rw [show (readStopMark header _).ingest.port = s.ingest.port from port]; exact empty

theorem execHeaderArrival_sound (words : List Half) (s : State) : PoolKept s (execHeaderArrival words s) := by
  intro sound
  show (pool (match s.ingest.port with | .header tSof => _ | .low | .ignored | .filling _ _ _ => _)).Sound
  split
  · rename_i tSof port
    have empty : ∀ j, portFills s.ingest.port j = false := fun j => by rw [port]; rfl
    have ignored : (pool (setPort .ignored s)).Sound := setPort_sound sound fun j => (empty j).symm
    split
    · exact settle_sound (admitHeader_sound _ _ sound empty)
    · split
      · exact settle_sound (admitHeader_sound (s := openSweep tSof s) _ _ sound empty)
      · exact ignored
    all_goals exact ignored
  all_goals exact sound

/-- The frame on the port is truncated. -/
theorem truncateFrame_sound {slot : Nat} {port : PortFrame} {s : State} (h : (pool s).Sound)
    (fills : ∀ j, portFills s.ingest.port j = decide (slot = j)) (left : ∀ j, portFills port j = false) :
    (pool (truncateFrame slot port s)).Sound := by
  have filling : slotState s.ingest.slots slot = .filling := (h.filling slot).mpr ((fills slot).trans (decide_eq_true rfl))
  unfold truncateFrame
  refine drainTest_sound ?_
  have view : pool (setPort port (dropLines slot (raiseCause .drop (freeSlot slot .truncated s)))) =
      { pool (freeSlot slot .truncated s) with port := port } := rfl
  rw [view, pool_freeSlot _ (by rw [filling]; exact nofun)]
  refine h.freed port (fun j => ?_) (fun w hw same => ?_) (fun j hj same => ?_)
  · rw [left, show portFills (pool s).port j = decide (slot = j) from fills j, decide_eq_true_eq]
    exact ⟨nofun, fun ⟨same, other⟩ => absurd same.symm other⟩
  · have := h.work w hw
    rw [same, show (pool s).state slot = .filling from filling] at this
    cases this
  · have := h.jobs j hj
    rw [same, show (pool s).state slot = .filling from filling] at this
    rcases this with this | ⟨-, this⟩ <;> cases this

theorem execFrameStart_sound (s : State) : PoolKept s (execFrameStart s) := by
  intro sound
  show (pool (match s.ingest.port with | .low => _ | .ignored | .header _ | .filling _ _ _ => _)).Sound
  split
  · rename_i port
    split <;> exact setPort_sound sound fun j => by rw [port]; rfl
  all_goals exact sound

theorem execPixelLineStart_sound (s : State) : PoolKept s (execPixelLineStart s) := by
  intro sound
  show (pool (match s.ingest.port with
    | .filling slot line false => _ | .low | .ignored | .header _ | .filling _ _ true => _)).Sound
  split
  · rename_i slot line port
    split
    · exact settle_sound (truncateFrame_sound sound (fun j => by rw [port]; rfl) fun _ => rfl)
    · exact setPort_sound sound fun j => by rw [port]; rfl
  all_goals exact sound

theorem execLineTooLong_sound (s : State) : PoolKept s (execLineTooLong s) := by
  intro sound
  show (pool (match s.ingest.port with
    | .filling slot _ true => _ | .low | .ignored | .header _ | .filling _ _ false => _)).Sound
  split
  · rename_i port
    exact settle_sound (truncateFrame_sound sound (fun j => by rw [port]; rfl) fun _ => rfl)
  all_goals exact sound

/-- The frame on the port joins the queue. -/
theorem completeFrame_sound {slot : Nat} {s : State} (h : (pool s).Sound)
    (fills : portFills s.ingest.port slot = true) : (pool (completeFrame slot s)).Sound := by
  have filling : slotState s.ingest.slots slot = .filling := (h.filling slot).mpr fills
  have occupied : slotState s.ingest.slots slot ≠ .free := by rw [filling]; exact nofun
  have view : pool (completeFrame slot s) = { (pool s).set slot .queued with
      port := .ignored
      opening := fun j => if j = slot then takesOpening s slot else (pool s).opening j
      queue := (pool s).queue ++ [slot]
      assigned := (pool s).assigned || takesOpening s slot } := by
    obtain ⟨record, at_slot, -⟩ := getElem?_of_slotState_ne occupied
    have state : slotState ((moveSlot s.ingest.slots slot .queued).modify slot fun x =>
        { x with info := { x.info with opening := takesOpening s slot } }) =
        fun j => if j = slot then .queued else slotState s.ingest.slots j := by
      rw [← state_moveSlot .queued occupied]
      funext j
      rw [slotState_modify]
      split
      · unfold slotState; split <;> rfl
      · rfl
    have info (j : Nat) : (slotInfo ((moveSlot s.ingest.slots slot .queued).modify slot fun x =>
        { x with info := { x.info with opening := takesOpening s slot } }) j).opening =
        if j = slot then takesOpening s slot else (slotInfo s.ingest.slots j).opening := by
      rw [← slotInfo_moveSlot s.ingest.slots slot .queued j]
      unfold slotInfo
      rw [List.getElem?_modify]
      by_cases same : j = slot
      · subst same
        have moved : ∃ x, (moveSlot s.ingest.slots j .queued)[j]? = some x := by
          rw [moveSlot, List.getElem?_modify, at_slot]; exact ⟨_, rfl⟩
        obtain ⟨x, hx⟩ := moved
        simp [hx]
      · cases (moveSlot s.ingest.slots slot .queued)[j]? <;> simp [Ne.symm same, same]
    have size : (moveSlot s.ingest.slots slot .queued).length = s.ingest.slots.length := List.length_modify ..
    simp only [pool, PoolView.set, completeFrame, setPort, state, info, List.length_modify, size]; rfl
  rw [view]
  refine h.complete fills fun mark => ?_
  simp only [takesOpening, Bool.and_eq_true, Bool.not_eq_true'] at mark
  exact mark.1

theorem execPixelLineClose_sound (words : List Half) (s : State) : PoolKept s (execPixelLineClose words s) := by
  intro sound
  show (pool (match s.ingest.port with
    | .filling slot line true => _ | .low | .ignored | .header _ | .filling _ _ false => _)).Sound
  split
  · rename_i slot line port
    have fills : ∀ j, portFills s.ingest.port j = decide (slot = j) := fun j => by rw [port]; rfl
    split
    · exact settle_sound (truncateFrame_sound sound fills fun _ => rfl)
    · split
      · exact settle_sound (setPort_sound (s := bufferLine slot line words s) sound fun j => (fills j).symm)
      · exact settle_sound (engineGo_sound _ (completeFrame_sound (s := bufferLine slot line words s) sound
          ((fills slot).trans (decide_eq_true rfl))))
  all_goals exact sound

theorem execFrameEnd_sound (s : State) : PoolKept s (execFrameEnd s) := by
  intro sound
  show (pool (match s.ingest.port with | .filling slot _ _ => _ | .low | .ignored | .header _ => _)).Sound
  split
  · rename_i port
    exact settle_sound (truncateFrame_sound sound (fun j => by rw [port]; rfl) fun _ => rfl)
  all_goals rename_i port; exact setPort_sound sound fun j => by rw [port] <;> rfl

/-! ## The motion link -/

theorem pool_regain (entry : PoseEntry) (s : State) : pool (regain entry s) = pool s := by
  unfold regain sendReanchor
  dsimp only
  split
  · split <;> rfl
  · rfl

theorem goodSample_sound (sample : Time) (bytes : BitVec 48) {s : State} (h : (pool s).Sound) :
    (pool (goodSample sample bytes s)).Sound := by
  unfold goodSample
  dsimp only
  refine engineGo_sound _ (entryAnnounced_sound ?_)
  split
  · rw [pool_regain]; exact h
  · exact h

theorem missSample_sound {s : State} (h : (pool s).Sound) : (pool (missSample s)).Sound := by
  unfold missSample
  dsimp only
  split
  · exact engineGo_sound _ (resumePlacement_sound h)
  · exact h

theorem execGoodSample_sound (bytes : BitVec 48) (s : State) : PoolKept s (execGoodSample bytes s) := by
  intro sound
  show (pool (match s.motion.tx with
    | .reading sample start => _ | .discarding start => _ | .absent | .window _ _ => _)).Sound
  split
  · rename_i sample start _
    exact settle_sound (goodSample_sound (s := { s with timeBase := advanceTo (readDue start) s.timeBase }) _ _ sound)
  all_goals exact sound

theorem execSampleMissed_sound (s : State) : PoolKept s (execSampleMissed s) := by
  intro sound
  show (pool (match s.motion.tx with | .window strobeTime _ => _ | .absent | .reading _ _ | .discarding _ => _)).Sound
  split
  · rename_i strobeTime _ _
    exact settle_sound
      (missSample_sound (s := { s with timeBase := advanceTo (missDue s.sweepCfg strobeTime) s.timeBase }) sound)
  all_goals exact sound

/-! ## Memory bursts -/

theorem pool_countLine (l : BufferedLine) (s : State) (lines : List BufferedLine) :
    pool { s with ingest := { s.ingest with lines := lines, slots := countLine l s.ingest.slots } } = pool s := by
  have state : slotState (countLine l s.ingest.slots) = slotState s.ingest.slots := by
    funext j
    unfold countLine
    rw [slotState_modify]
    split
    · unfold slotState
      cases s.ingest.slots[j]? with
      | none => rfl
      | some slot => dsimp only; split <;> rfl
    · rfl
  have info (j : Nat) : (slotInfo (countLine l s.ingest.slots) j).opening = (slotInfo s.ingest.slots j).opening := by
    unfold slotInfo countLine
    rw [List.getElem?_modify]
    cases s.ingest.slots[j]? with
    | none => rfl
    | some slot => by_cases same : l.slot = j <;> simp [same, apply_ite Slot.info, apply_ite SlotRecord.opening]
  have size : (countLine l s.ingest.slots).length = s.ingest.slots.length := List.length_modify ..
  simp only [pool, state, info, size]

theorem completeIngest_sound (b : IngestBurst) (live : Bool) {s : State} (h : (pool s).Sound) :
    (pool (completeIngest b live s)).Sound := by
  unfold completeIngest
  dsimp only
  split
  · unfold lineWritten
    split
    · exact (pool_countLine ..).symm ▸ h
    · exact h
  · exact h

/-- The frame in compositing ends without a strip. -/
theorem dropStrip_sound {s : State} (h : (pool s).Sound) : (pool (dropStrip s)).Sound :=
  h.jobs_le (job := none) (waiting := (pool s).waiting) (updating := false) (searching := (pool s).searching)
    (fun _ hj => .inr (hj.resolve_left nofun)) (.inl rfl) nofun id

/-- The registration unit goes idle. -/
theorem idle_sound {s : State} (h : (pool s).Sound) : ({ pool s with searching := false } : PoolView).Sound :=
  h.jobs_le (job := (pool s).job) (waiting := (pool s).waiting) (updating := (pool s).updating) (fun _ => id) h.oneJob
    h.updating nofun

theorem unitFaults_sound (unit : EngineUnit) (addr len : Nat) {s : State} (h : (pool s).Sound) :
    (pool (unitFaults unit addr len s)).Sound := by
  cases unit with
  | registration =>
    rw [unitFaults]
    cases state : s.reg.state with
    | idle => rw [faultRegistration_of_idle state]; exact h
    | searching => rw [faultRegistration_of_searching state]; exact idle_sound (s := s) h
    | harvesting =>
      rw [faultRegistration_of_harvesting state]
      refine dropStrip_sound ?_
      have idle : (dropTable s.reg).state = .idle := by unfold dropTable; split <;> rfl
      have view : pool { reportFault (dropEngine .registration s) with reg := dropTable s.reg } =
          { pool s with searching := false } := by
        have search : decide ((dropTable s.reg).state = .searching) = false := by rw [idle]; rfl
        rw [← search]; rfl
      rw [view]; exact idle_sound (s := s) h
  | compositor =>
    rw [unitFaults]
    cases state : s.comp.state with
    | ready => rw [faultCompositor_of_ready addr len state]; exact h
    | compositing => rw [faultCompositor_of_strip addr len (.inl state)]; exact dropStrip_sound h
    | harvesting => rw [faultCompositor_of_strip addr len (.inr state)]; exact dropStrip_sound h
    | updating => rw [faultCompositor_of_updating addr len state]; exact h
    | closing => rw [faultCompositor_of_closing addr len state]; exact h

theorem completeEngineRead_sound (unit : EngineUnit) (addr len : Nat) (e : MemErrors) {s : State} (h : (pool s).Sound) :
    (pool (completeEngineRead unit addr len e s)).Sound := by
  have read : (pool (wordsRead unit (touchedWords addr len) e s)).Sound := by
    have view : pool (wordsRead unit (touchedWords addr len) e s) = pool s := by
      have search : decide ((readRegistration unit s).state = .searching) = decide (s.reg.state = .searching) :=
        decide_eq_decide.mpr (by rw [readRegistration_state])
      calc pool (wordsRead unit (touchedWords addr len) e s)
          = { pool s with searching := decide ((readRegistration unit s).state = .searching) } := rfl
        _ = pool s := by rw [search]; rfl
    rw [view]; exact h
  rw [completeEngineRead_eq]
  split
  · exact read
  · exact unitFaults_sound unit addr len read

theorem completeEngineWrite_sound (addr len : Nat) (e : MemErrors) {s : State} (h : (pool s).Sound) :
    (pool (completeEngineWrite addr len e s)).Sound := by
  have stored (done left : List WriteUnit) :
      (pool (finishUnits done left (writePixels (unitsWithin addr len s.comp.todo) e s))).Sound := h
  have reported (done left : List WriteUnit) :
      (pool (reportFault (finishUnits done left (writePixels (unitsWithin addr len s.comp.todo) e s)))).Sound :=
    stored done left
  unfold completeEngineWrite
  dsimp only
  split
  · exact stored ..
  · split
    · exact reported ..
    all_goals exact unitFaults_sound .compositor addr len (stored ..)

theorem pool_checkWords (words : List Nat) (e : MemErrors) (s : State) : pool (checkWords words e s) = pool s := rfl

theorem pool_store (c : CanvasStore) (s : State) : pool { s with store := c } = pool s := rfl

theorem pool_failTest (test : Nat) (s : State) : pool (failTest test s) = pool s := rfl

theorem completeBurst_sound (burst : InFlight) (move : EngineMove) (e : MemErrors) {s : State} (h : (pool s).Sound) :
    (pool (completeBurst burst move e s)).Sound := by
  unfold completeBurst
  cases burst with
  | ingest b live => exact completeIngest_sound b live (s := memoryFreed s) h
  | engine unit live late areas =>
    dsimp only
    unfold completeEngine completeLate
    split
    · split
      · exact completeEngineRead_sound _ _ _ e (s := memoryFreed s) h
      · exact completeEngineWrite_sound _ _ e (s := memoryFreed s) h
      · exact h
    · split <;> exact h
  | fetch b data live =>
    dsimp only
    unfold completeFetch
    dsimp only
    split
    · split
      · rw [(fetchData_only ..).pool_eq]; exact h
      · rw [(fetchError_only ..).pool_eq]; exact h
    · exact h
  | selfTest b live =>
    dsimp only
    unfold completeSelf
    split
    · rw [pool_store]; exact h
    · dsimp only
      split
      · rw [pool_failTest, pool_checkWords]; exact h
      · rw [pool_checkWords]; exact h

theorem execMemoryBurstComplete_sound (move : EngineMove) (e : MemErrors) (s : State) :
    PoolKept s (execMemoryBurstComplete move e s) := by
  unfold execMemoryBurstComplete
  split
  · exact id
  · split
    · split
      · exact fun sound => settle_sound (completeBurst_sound _ move e sound)
      · exact id
    · trivial
  · exact fun sound => settle_sound (completeBurst_sound _ move e sound)

/-! ## Every command -/

theorem OnlyFetch.sound {s t : State} (only : OnlyFetch s t) (h : (pool s).Sound) : (pool t).Sound := by
  rw [only.pool_eq]; exact h

theorem pool_expireStall (s : State) : pool (expireStall s) = pool s := by
  unfold expireStall
  split
  · split
    · rfl
    · rename_i t _ _ _
      exact (endWith_only .r0 .errorNotSettled t.item _).pool_eq
  · rfl

theorem configureBody_sound (payload : List Byte) {s : State} (h : (pool s).Sound) :
    (pool (configureBody payload s).state).Sound := by
  unfold configureBody
  dsimp only
  split <;> exact h

theorem acknowledge_sound (code : Nat) {s : State} (h : (pool s).Sound) : (pool (acknowledge code s).state).Sound := by
  unfold acknowledge
  split
  · exact h
  · split
    · exact h
    · split <;> exact h

/-- Every command keeps the pool sound. -/
theorem exec_sound (c : Instr) (s : State) : PoolKept s (exec c s) := by
  cases c with
  | powerOn => exact fun _ => powerOnState_sound s
  | resetnAssert => exact fun _ => powerOnState_sound s
  | resetnRelease =>
    intro sound
    show (pool (if _ then _ else _)).Sound
    split
    · exact powerOnState_sound s
    · exact sound
  | dramInitialised strap => exact execDramInitialised_sound strap s
  | selftestComplete outcome =>
    intro sound
    show (pool (match s.sweep.state, s.selfTest.run with | .test, some r => _ | _, _ => _)).Sound
    split
    · split
      · exact settle_sound (by rw [pool_endTests]; exact sound)
      · exact sound
    · exact sound
  | configure tag payload => exact runCommand_sound 1 tag _ _ payload s fun _ => configureBody_sound payload
  | arm tag payload => exact runCommand_sound 2 tag _ _ payload s fun _ h => settle_sound (armSweep_sound h)
  | start tag payload => exact runCommand_sound 3 tag _ _ payload s fun _ => id
  | stop tag payload => exact runCommand_sound 4 tag _ _ payload s fun _ h => settle_sound (stopSweep_sound h)
  | abort tag payload => exact runCommand_sound 5 tag _ _ payload s fun _ h => settle_sound (abortBody_sound h)
  | query tag payload => exact runCommand_sound 6 tag _ _ payload s fun _ => id
  | readAttention tag payload => exact runCommand_sound 7 tag _ _ payload s fun _ => id
  | ackAttention tag payload => exact runCommand_sound 8 tag _ _ payload s fun _ => acknowledge_sound _
  | setAttention tag payload => exact runCommand_sound 9 tag _ _ payload s fun _ => id
  | selftest tag payload => exact execSelftest_sound tag payload s
  | reset tag payload =>
    intro sound
    show (pool (if _ then _ else _)).Sound
    split
    · split
      · exact sound
      · exact powerOnState_sound s
    · exact sound
  | unknownCommand kind tag payload =>
    intro sound
    show (pool (if _ then _ else _)).Sound
    split
    · split <;> exact sound
    · exact sound
  | commandDiscarded =>
    intro sound
    show (pool (if _ then _ else _)).Sound
    split <;> exact sound
  | replyTransaction clocked =>
    intro sound
    show (pool (match s.ctl.latched with | none => _ | some status => _)).Sound
    split
    · exact sound
    · split <;> exact sound
  | sweepTimeLimit =>
    intro sound
    show (pool (match s.sweep.state, s.sweep.openTime with | .opened, some openTime => _ | _, _ => _)).Sound
    split
    · split
      · exact settle_sound (drainTest_sound sound)
      · exact sound
    · exact sound
  | endRequest reason => exact fun sound => settle_sound (takeEndRequest_sound reason sound)
  | frameStart => exact execFrameStart_sound s
  | headerArrival words => exact execHeaderArrival_sound words s
  | pixelLineStart => exact execPixelLineStart_sound s
  | lineTooLong => exact execLineTooLong_sound s
  | pixelLineClose words => exact execPixelLineClose_sound words s
  | frameEnd => exact execFrameEnd_sound s
  | sampleStrobe =>
    intro sound
    show (pool (if _ then _ else _)).Sound
    split
    · split <;> exact sound
    · exact sound
  | mdrdySeen =>
    intro sound
    show (pool (match s.motion.tx with
      | .window strobeTime sample => _ | .absent | .reading _ _ | .discarding _ => _)).Sound
    split
    · split <;> exact sound
    all_goals exact sound
  | goodSample bytes => exact execGoodSample_sound bytes s
  | sampleMissed => exact execSampleMissed_sound s
  | motionWaitExpiry => exact fun sound => settle_sound (engineGo_sound _ (expireWait_sound sound))
  | searchComplete => exact fun sound => settle_sound (completeSearch_sound sound)
  | stripWritesComplete => exact fun sound => settle_sound (completeWrites_sound sound)
  | harvestComplete => exact fun sound => settle_sound (completeHarvest_sound sound)
  | previewUpdateComplete => exact fun sound => settle_sound (completeUpdate_sound sound)
  | closingWorkComplete => exact fun sound => settle_sound (completeClosing_sound sound)
  | memoryBurstComplete move errors => exact execMemoryBurstComplete_sound move errors s
  | fetchRequest requester message =>
    intro sound
    show (pool (if _ then _ else _)).Sound
    split
    · exact settle_sound ((messageArrives_only ..).sound sound)
    · exact sound
  | fetchAbandon requester message =>
    intro sound
    show (pool (if _ then _ else _)).Sound
    split
    · exact sound
    · exact settle_sound ((messageArrives_only ..).sound sound)
  | returnBurstComplete =>
    intro sound
    show (pool (if _ then _ else _)).Sound
    split
    · exact settle_sound ((completeBus_only s).sound sound)
    · exact sound
  | fetchWaitExpiry => exact fun sound => settle_sound (by rw [pool_expireStall]; exact sound)
  | transactionStart =>
    intro sound
    show (pool (if _ then _ else _)).Sound
    split <;> exact sound
  | requestMessageStart requester =>
    intro sound
    show (pool (match (sideOf s.fetch requester).line with | .idle => _ | .shifting | .ignored => _)).Sound
    split
    · exact (setSide_only ..).sound sound
    all_goals exact sound

/-- At most one slot is FILLING: the one that the frame on the port fills. -/
theorem slotsIn_filling_le_one {s : State} (h : poolSound s) : slotsIn s.ingest.slots .filling ≤ 1 := by
  obtain ⟨-, -, filling, -⟩ := h
  refine (slotsIn_le_one_iff (st := .filling) nofun).mpr fun i j hi hj => ?_
  have at_i := (filling i).mp hi
  have at_j := (filling j).mp hj
  cases port : s.ingest.port with
  | filling slot line shifting =>
    rw [port] at at_i at_j
    exact (of_decide_eq_true at_i).symm.trans (of_decide_eq_true at_j)
  | low | ignored | header _ => rw [port] at at_i; cases at_i

/-- Settles O58, by what each change of the pool keeps of it. -/
theorem slotPoolIsKept : Obligations.SlotPoolIsKept := by
  intro s t sound run
  have kept : poolSound t := by
    rw [poolSound_iff] at sound ⊢
    unfold step at run
    split at run
    · injection run with same
      subst same
      unfold tick
      split <;> exact sound
    · rename_i c rest _
      have commanded := exec_sound c { s with pending := rest }
      rw [run] at commanded
      exact commanded sound
  obtain ⟨-, -, -, held, -⟩ := id kept
  exact ⟨kept, Nat.le_of_add_right_le held, slotsIn_filling_le_one kept⟩

end Sys2Proof.Machine
end

section
/-! SUPPORT. A step, power-on and the resets, the end of INIT (R132, R177, R178), with O1, O2 and O3; the checks that every
command transaction goes through (R166, R167, R169, R183), with O5. -/

namespace Sys2Proof.Machine

/-! ## A step -/

/-- Settles O1, by the two cases of the queue. -/
theorem stepRunsFrontCommand : Obligations.StepRunsFrontCommand := by
  refine ⟨fun _ _ _ => rfl, fun s empty => ?_⟩
  unfold step
  split
  · rfl
  · rename_i waiting
    rw [empty] at waiting
    cases waiting

/-! ## Power-on and the resets -/

theorem resetPort_eq (port : PortFrame) : resetPort port = if port = .low then .low else .ignored := by
  cases port <;> rfl

theorem resetLine_eq (line : RequestLine) : resetLine line = if line = .idle then .idle else .ignored := by
  cases line <;> rfl

/-- Settles O2: each of the three begins from `powerOnState`, whose port and request lines are read by their levels. -/
theorem powerOnResetnAndReset : Obligations.PowerOnResetnAndReset := by
  rintro s u given
  have reset : u = powerOnState s := by rw [given, powerOnState, resetPort_eq, resetLine_eq, resetLine_eq]
  subst reset
  exact ⟨rfl, rfl, rfl, fun tag taken => ⟨_, exec_reset_of_taken tag taken, rfl, rfl, rfl, rfl⟩⟩

/-! ## The end of INIT -/

theorem finishCommand_eq (payload : List Byte) (s : State) :
    finishCommand payload s = { s with ctl := completed s.ctl payload } := by
  unfold finishCommand completed
  cases s.ctl.command <;> rfl

theorem exec_dramInitialised {s : State} (strap : Bool) (starting : s.sweep.state = .init) (running : s.inReset = false) :
    exec (.dramInitialised strap) s = .next
      (let s1 := finishCommand [] { s with store := { s.store with mem := [], singleFlaws := [], multiFlaws := [] } }
      if strap then settle false false (startTests { s1 with sweep := { s1.sweep with state := .test } })
      else { s1 with sweep := { s1.sweep with state := .idle } }) :=
  congrArg Host.Outcome.next (if_pos ⟨starting, running⟩)

/-- Settles O3: the report's two cases of the strap, with `finishCommand_eq` for a RESET that is executing. -/
theorem initEndsAtDramReport : Obligations.InitEndsAtDramReport := by
  intro s starting running
  refine ⟨?_, ⟨_, exec_dramInitialised true starting running, ?_⟩, fun _ => rfl⟩
  · rw [exec_dramInitialised false starting running, finishCommand_eq]
    rfl
  · rw [finishCommand_eq]
    exact settle_settlesTo ..

/-! ## The checks of a command transaction -/

/-- The form of a command stands for its states by the function that its row is run with. -/
theorem idleOrDone_eq : idleOrDone = fun st => decide (st = .idle ∨ st = .done) := by
  funext st; cases st <;> rfl

theorem takesStop_eq : takesStop = fun st => decide (st = .armed ∨ st = .opened ∨ st = .draining) := by
  funext st; cases st <;> rfl

/-- A command's transaction as its row runs it: discarded, refused, or run to a state in which CSO carries what it has
carried and 0 behind it. -/
def checked (f : CommandForm) (s ran : State) : State :=
  if commandTaken s then
    match refusedBy f.length f.takenIn f.payload s with
    | some result => { s with ctl := answered s.ctl f.kind f.tag result 0 [] }
    | none => ran
  else endTransaction false s

/-- What a command that has run leaves of CSO. -/
def CsoKept (s t : State) : Prop := t.ctl.cso = s.ctl.cso ∧ t.ctl.polled = false

theorem runCommand_checked (f : CommandForm) (body : State → Ran) (s : State)
    (kept : ∀ t, (body t).state.ctl = t.ctl) : ∃ ran, CsoKept s ran ∧
      runCommand f.kind f.tag f.length f.takenIn f.payload body s = checked f s ran := by
  refine ⟨reply f.kind f.tag (body (takeSlot f.kind f.tag s)), ⟨?_, ?_⟩, ?_⟩
  · show (body (takeSlot f.kind f.tag s)).state.ctl.cso = s.ctl.cso
    rw [kept]; rfl
  · show (body (takeSlot f.kind f.tag s)).state.ctl.polled = false
    rw [kept]; rfl
  · unfold runCommand checked
    dsimp only
    split
    · cases refusedBy f.length f.takenIn f.payload s <;> rfl
    · rfl

theorem OnlySweep.ctl {s t : State} : OnlySweep s t → t.ctl = s.ctl := by
  rintro ⟨_, _, _, _, _, _, _, _, _, rfl⟩; rfl

theorem armSweep_ctl (s : State) : (armSweep s).ctl = s.ctl := by
  obtain ⟨a, blocks⟩ := armedBlocks_eq s
  rw [armSweep_eq, (discardFetch_only _).sweep.ctl, blocks]

theorem stopSweep_ctl (s : State) : (stopSweep s).ctl = s.ctl := by
  unfold stopSweep
  split
  · rfl
  · exact (drainTest_only _).ctl
  all_goals rfl

theorem abortBody_ctl (s : State) : (abortBody s).ctl = s.ctl := by
  have abort : (abortSweep s).ctl = s.ctl := by
    unfold abortSweep
    rw [(discardFetch_only _).sweep.ctl]
    exact (((discardSlots_only s).trans (engineHalt_only _)).trans (compositorStop_only _)).ctl
  unfold abortBody
  split
  iterate 4 exact abort
  all_goals rfl

theorem configureBody_ctl (payload : List Byte) (s : State) : (configureBody payload s).state.ctl = s.ctl := by
  unfold configureBody; dsimp only; split <;> rfl

theorem acknowledge_ctl (code : Nat) (s : State) : (acknowledge code s).state.ctl = s.ctl := by
  unfold acknowledge
  split
  · rfl
  · split
    · rfl
    · split <;> rfl

theorem beginSelftest_ctl (s : State) : (beginSelftest s).ctl = s.ctl := by
  have stopped := ((engineHalt_only s).trans (compositorStop_only _)).ctl
  unfold beginSelftest
  show (discardFetch _).ctl = s.ctl
  rw [(discardFetch_only _).sweep.ctl]
  exact stopped

/-- Every command of the eleven kinds goes through the checks of its form (R167, R169). -/
theorem exec_checked {c : Instr} {f : CommandForm} (s : State) (form : commandForm c = some f) :
    ∃ ran, CsoKept s ran ∧ exec c s = .next (checked f s ran) := by
  have of_run {f : CommandForm} {body : State → Ran} (kept : ∀ t, (body t).state.ctl = t.ctl) {answer : Answer}
      (run : answer = .next (runCommand f.kind f.tag f.length f.takenIn f.payload body s)) :
      ∃ ran, CsoKept s ran ∧ answer = .next (checked f s ran) := by
    obtain ⟨ran, cso, same⟩ := runCommand_checked f body s kept
    exact ⟨ran, cso, by rw [run, same]⟩
  cases c with
  | configure tag p =>
    cases form
    exact of_run (configureBody_ctl p) (by rw [← idleOrDone_eq]; rfl)
  | arm tag p =>
    cases form
    exact of_run (body := fun t => ranDone (settle false false (armSweep t)))
      (fun t => (settle_ctl ..).trans (armSweep_ctl t)) (by rw [← idleOrDone_eq]; rfl)
  | start tag p =>
    cases form
    exact of_run (body := fun t => ranDone { t with sweep := { t.sweep with openPending := true } }) (fun _ => rfl) rfl
  | stop tag p =>
    cases form
    exact of_run (body := fun t => ranDone (settle false false (stopSweep t)))
      (fun t => (settle_ctl ..).trans (stopSweep_ctl t)) (by rw [← takesStop_eq]; rfl)
  | abort tag p =>
    cases form
    exact of_run (body := fun t => ranDone (settle false false (abortBody t)))
      (fun t => (settle_ctl ..).trans (abortBody_ctl t)) rfl
  | query tag p =>
    cases form
    exact of_run (body := fun t => ⟨t, .done, 0, statusSnapshot t⟩) (fun _ => rfl) rfl
  | readAttention tag p =>
    cases form
    exact of_run (body := fun t => ⟨t, .done, 0, natBytes 1 (attentionAnswer t.attn)⟩) (fun _ => rfl) rfl
  | ackAttention tag p =>
    cases form
    exact of_run (acknowledge_ctl _) rfl
  | setAttention tag p =>
    cases form
    exact of_run (body := fun t => ranDone { t with attn := { t.attn with enableSet := (p.getD 0 0).setWidth 7 } })
      (fun _ => rfl) rfl
  | selftest tag p =>
    cases form
    have begun := beginSelftest_ctl (takeSlot 10 tag s)
    refine ⟨settle false false (beginSelftest (takeSlot 10 tag s)), ⟨?_, ?_⟩, ?_⟩
    · rw [settle_ctl, begun]; rfl
    · rw [settle_ctl, begun]; rfl
    · show Host.Outcome.next (if commandTaken s then _ else _) = _
      unfold checked
      dsimp only
      rw [idleOrDone_eq]
      split
      · cases refusedBy 0 (fun st => decide (st = .idle ∨ st = .done)) p s <;> rfl
      · rfl
  | reset tag p =>
    cases form
    refine ⟨resetState tag s, ⟨rfl, rfl⟩, ?_⟩
    show Host.Outcome.next (if commandTaken s then _ else _) = _
    unfold checked
    dsimp only
    split
    · split <;> rename_i result
      · rw [show refusedBy 0 (fun _ => true) p s = _ from result]; rfl
      · rw [show refusedBy 0 (fun _ => true) p s = _ from result]
    · rfl
  | _ => cases form

/-- UNKNOWN_COMMAND and COMMAND_DISCARDED are the other ends of a command transaction. -/
def EndsCommandTransaction (c : Instr) : Prop :=
  (∃ f, commandForm c = some f) ∨ c = .commandDiscarded ∨
    ∃ kind tag payload, (kind = 0 ∨ 12 ≤ kind.toNat) ∧ c = .unknownCommand kind tag payload

theorem exec_unknownCommand {kind tag : Byte} {payload : List Byte} (s : State) (unknown : kind = 0 ∨ 12 ≤ kind.toNat) :
    exec (.unknownCommand kind tag payload) s = .next
      (if commandTaken s then { s with ctl := answered s.ctl kind tag .unknown 0 [] } else endTransaction false s) := by
  show Host.Outcome.next (if unknownKind kind then _ else _) = _
  rw [if_pos (show unknownKind kind = true from decide_eq_true unknown)]
  rfl

theorem exec_commandDiscarded {s : State} (executing : s.ctl.latched = some .executing) :
    exec .commandDiscarded s = .next (endTransaction false s) :=
  congrArg Host.Outcome.next (if_pos executing)

theorem commandTaken_of_executing {s : State} (executing : s.ctl.latched = some .executing) : commandTaken s = false := by
  rw [commandTaken, executing]

/-- A transaction that began with EXECUTING is discarded (R167). -/
theorem exec_of_executing {c : Instr} {s : State} (ends : EndsCommandTransaction c)
    (executing : s.ctl.latched = some .executing) : exec c s = .next (endTransaction false s) := by
  have untaken : ¬commandTaken s = true := by rw [commandTaken_of_executing executing]; exact nofun
  rcases ends with ⟨f, form⟩ | rfl | ⟨kind, tag, payload, unknown, rfl⟩
  · obtain ⟨ran, -, run⟩ := exec_checked s form
    rw [run, checked, if_neg untaken]
  · exact exec_commandDiscarded executing
  · rw [exec_unknownCommand s unknown, if_neg untaken]

/-- CSO carries 0 after the link status in every command transaction (R183). -/
theorem csoKept_of_ends {c : Instr} {s t : State} (ends : EndsCommandTransaction c)
    (discarded : c = .commandDiscarded → s.ctl.latched = some .executing) (run : exec c s = .next t) : CsoKept s t := by
  rcases ends with ⟨f, form⟩ | rfl | ⟨kind, tag, payload, unknown, rfl⟩
  · obtain ⟨ran, kept, checks⟩ := exec_checked s form
    rw [checks] at run
    cases run
    unfold checked
    split
    · split
      · exact ⟨rfl, rfl⟩
      · exact kept
    · exact ⟨rfl, rfl⟩
  · rw [exec_commandDiscarded (discarded rfl)] at run
    cases run
    exact ⟨rfl, rfl⟩
  · rw [exec_unknownCommand s unknown] at run
    cases run
    split <;> exact ⟨rfl, rfl⟩

theorem csoByte_of_kept {s t : State} {n : Nat} (kept : CsoKept s t) (behind : s.ctl.cso.length ≤ n) :
    csoByte t n = 0 := by
  obtain ⟨cso, polled⟩ := kept
  unfold csoByte
  rw [cso, List.getElem?_eq_none behind, polled]
  rfl

/-! ## The row of a transaction (R166, R167, R183) -/

theorem transactionRow_command {status : LinkStatus} (idle : status ≠ .executing) (kind : Byte) (rest : List Byte) :
    transactionRow status (1 :: kind :: rest) = commandRow kind (rest.getD 0 0) (rest.drop 1) := by
  simp only [transactionRow, if_pos, if_neg idle]

theorem commandRow_form {c : Instr} {f : CommandForm} (form : commandForm c = some f) :
    commandRow f.kind f.tag f.payload = c := by
  cases c <;> cases form <;> rfl

theorem commandRow_unknown {kind : Byte} (unknown : kind = 0 ∨ 12 ≤ kind.toNat) (tag : Byte) (payload : List Byte) :
    commandRow kind tag payload = .unknownCommand kind tag payload := by
  have outside : kind.toNat = 0 ∨ 12 ≤ kind.toNat := unknown.imp_left fun zero => by rw [zero]; rfl
  unfold commandRow
  split
  iterate 11 omega
  rfl

theorem transactionRow_reply (status : LinkStatus) (kind : Byte) (rest : List Byte) :
    transactionRow status (2 :: kind :: rest) = .replyTransaction (rest.length + 1) := by
  simp [transactionRow]

/-- Settles O5: the checks by `exec_checked`, the rows by `transactionRow` and `commandRow`. -/
theorem refusedAndDiscardedCommands : Obligations.RefusedAndDiscardedCommands := by
  refine ⟨fun c f s form taken => ⟨fun length => ?_, fun length state => ?_⟩, fun s kind tag payload taken unknown => ?_,
    fun c s executing ends => exec_of_executing ends executing, fun c s t n ends _ discarded run behind => ?_,
    fun status => ⟨fun idle => ⟨fun c f form => ?_, fun kind tag payload unknown => ?_, fun kind => ?_⟩,
      fun kind rest => ⟨?_, ?_, fun first notCommand notReply => ?_⟩, fun bytes short => ?_⟩⟩
  · obtain ⟨ran, -, run⟩ := exec_checked s form
    simp only [run, checked, if_pos taken, refusedBy, if_pos length]
  · obtain ⟨ran, -, run⟩ := exec_checked s form
    simp only [run, checked, if_pos taken, refusedBy, if_neg (not_not.mpr length), state, Bool.false_eq_true, if_false]
  · rw [exec_unknownCommand s unknown, if_pos taken]
  · have kept := csoKept_of_ends ends discarded run
    exact ⟨kept.1, csoByte_of_kept kept behind⟩
  · exact (transactionRow_command idle ..).trans (commandRow_form form)
  · exact (transactionRow_command idle ..).trans (commandRow_unknown unknown ..)
  · rw [transactionRow_command idle, transactionRow_command idle]; rfl
  · rfl
  · rw [transactionRow_reply, Nat.add_comm]
  · simp only [transactionRow, if_neg notCommand, if_neg notReply]
  · match bytes, short with
    | [], _ => rfl
    | [_], _ => rfl

end Sys2Proof.Machine
end

section
/-! SUPPORT. Facts of the arithmetic: band rows (R69), the re-anchor's trim (R76, R83, R84), the order of search offsets
(R97), medians and inliers (R99, R100), the blend (R116, R117) and the bias of a sweep (R32), with O35, O36, O37, O38, O40
and O25. -/

namespace Sys2Proof.Machine

/-! ## Band rows and columns -/

/-- Settles O35: with H_f a multiple of 8 and m one of 4, H_c is a multiple of 8, so c_k is half a band into band k. -/
theorem bandRowsLieInTheFrame : Obligations.BandRowsLieInTheFrame := by
  intro cfg k y band height margin room low high
  obtain ⟨rows, hrows⟩ : ∃ rows, canvasHeight cfg = 8 * rows := ⟨canvasHeight cfg / 8, by unfold canvasHeight; omega⟩
  have size : bandRows cfg = rows := by rw [bandRows, hrows]; omega
  have canvas : canvasHeight cfg = cfg.frameHeight - 2 * cfg.margin := rfl
  have centre : bandCentre cfg k = k * rows + rows / 2 := by
    rw [bandCentre, hrows, show (2 * k + 1) * (8 * rows) = 8 * (2 * (k * rows) + rows) by ring]
    omega
  have above : k * rows + rows ≤ 8 * rows := by nlinarith
  have row : ((bandCentre cfg k : Int) + cfg.margin + y).toNat = (bandRow cfg k y) := rfl
  refine ⟨by omega, by omega, bandOfRow_of_row cfg (by rw [size]; omega) ?_, ?_, by rw [size]; omega⟩
  all_goals rw [size, Nat.succ_mul]; omega

/-- A yaw that is a whole number of columns from the origin gives that column back (R76). -/
theorem dirSign_mul_self {dir : Direction} (known : dir ≠ .unknown) : dirSign dir * dirSign dir = 1 := by
  cases dir with
  | plus => rfl
  | minus => rfl
  | unknown => exact absurd rfl known

/-- Settles O36: off its ends the trim is not saturated, and the formula's quotient is exact. -/
theorem reanchorPredictsTheHistoryColumn : Obligations.ReanchorPredictsTheHistoryColumn := by
  intro cfg dir strips origin trim r angle known set low high
  have exact_trim : trim = dirSign dir * (historyColumn strips r.time - originColumn cfg) * cfg.columnAngle -
      (r.yaw - origin) := by
    unfold reanchorTrim satAngle clampInt at set
    split at set
    · omega
    · split at set
      · omega
      · exact set
  have sign := dirSign_mul_self known
  have numerator : dirSign dir * (r.yaw + trim - origin) =
      (historyColumn strips r.time - originColumn cfg) * cfg.columnAngle := by
    calc dirSign dir * (r.yaw + trim - origin)
        = dirSign dir * dirSign dir * (historyColumn strips r.time - originColumn cfg) * cfg.columnAngle := by
          rw [exact_trim]; ring
      _ = _ := by rw [sign, one_mul]
  rw [predictedCentre, numerator, Int.mul_ediv_cancel _ (by omega)]
  omega

/-! ## The best offset (R97) -/

/-- The order of scored offsets, as a chain of comparisons. -/
theorem beforeOffset_iff (a b : (Int × Int) × Nat) : beforeOffset a b = true ↔
    a.2 < b.2 ∨ (a.2 = b.2 ∧ (a.1.1.natAbs + a.1.2.natAbs < b.1.1.natAbs + b.1.2.natAbs ∨
      (a.1.1.natAbs + a.1.2.natAbs = b.1.1.natAbs + b.1.2.natAbs ∧ (a.1.2.natAbs < b.1.2.natAbs ∨
        (a.1.2.natAbs = b.1.2.natAbs ∧ (a.1.2 < b.1.2 ∨ (a.1.2 = b.1.2 ∧ a.1.1 < b.1.1))))))) :=
  decide_eq_true_iff

/-- What the order of R97 compares, part after part. -/
def offsetKey (a : (Int × Int) × Nat) : ℕ ×ₗ ℕ ×ₗ ℕ ×ₗ ℤ ×ₗ ℤ :=
  toLex (a.2, toLex (a.1.1.natAbs + a.1.2.natAbs, toLex (a.1.2.natAbs, toLex (a.1.2, a.1.1))))

theorem beforeOffset_iff_key (a b : (Int × Int) × Nat) : beforeOffset a b = true ↔ offsetKey a < offsetKey b := by
  rw [beforeOffset_iff]
  simp only [offsetKey, Prod.Lex.toLex_lt_toLex]

/-- The first of a list in the order of a key: one of them, and none has a lower key. -/
theorem foldl_first {α κ : Type} [LinearOrder κ] {before : α → α → Bool} {key : α → κ}
    (order : ∀ a b, before a b = true ↔ key a < key b) (l : List α) (x : α) :
    (l.foldl (fun best o => if before o best then o else best) x ∈ x :: l) ∧
      ∀ o ∈ x :: l, key (l.foldl (fun best o => if before o best then o else best) x) ≤ key o := by
  induction l generalizing x with
  | nil => simp
  | cons y l ih =>
    obtain ⟨inside, least⟩ := ih (if before y x then y else x)
    have first := least _ (List.mem_cons_self ..)
    have kept : (if before y x then y else x) ∈ x :: y :: l ∧ key (if before y x then y else x) ≤ key x ∧
        key (if before y x then y else x) ≤ key y := by
      by_cases better : before y x = true
      · rw [if_pos better]
        exact ⟨by simp, ((order y x).mp better).le, le_rfl⟩
      · rw [if_neg better]
        exact ⟨by simp, le_rfl, not_lt.mp fun less => better ((order y x).mpr less)⟩
    obtain ⟨one, belowX, belowY⟩ := kept
    rw [List.foldl_cons]
    refine ⟨?_, fun o ho => ?_⟩
    · rcases List.mem_cons.mp inside with same | inside
      · rw [same]; exact one
      · exact List.mem_cons_of_mem _ (List.mem_cons_of_mem _ inside)
    · rcases List.mem_cons.mp ho with rfl | ho
      · exact first.trans belowX
      · rcases List.mem_cons.mp ho with rfl | ho
        · exact first.trans belowY
        · exact least o (List.mem_cons_of_mem _ ho)

/-- Settles O37, by `foldl_first` and the comparisons of `beforeOffset_iff`. -/
theorem bestOffsetIsTheFirst : Obligations.BestOffsetIsTheFirst := by
  refine ⟨fun scored best found => ?_, fun scored none => ?_, fun a b differ => ?_⟩
  · cases scored with
    | nil => cases found
    | cons x l =>
      cases found
      obtain ⟨inside, least⟩ := foldl_first beforeOffset_iff_key l x
      exact ⟨inside, fun o scored => Bool.eq_false_iff.mpr fun before =>
        ((beforeOffset_iff_key ..).mp before).not_ge (least o scored)⟩
  · cases scored with
    | nil => rfl
    | cons x l => cases none
  · rw [beforeOffset_iff, beforeOffset_iff]
    have : a.1.1 ≠ b.1.1 ∨ a.1.2 ≠ b.1.2 := by
      by_contra same
      push Not at same
      exact differ (Prod.ext same.1 same.2)
    omega

/-! ## Medians (R99) -/

theorem insertAscending_perm (v : Int) : ∀ l : List Int, (insertAscending v l).Perm (v :: l)
  | [] => .refl _
  | x :: xs => by
    unfold insertAscending
    split
    · exact .refl _
    · exact ((insertAscending_perm v xs).cons x).trans (.swap v x xs)

theorem sortAscending_perm : ∀ l : List Int, (sortAscending l).Perm l
  | [] => .refl _
  | x :: xs => (insertAscending_perm x _).trans ((sortAscending_perm xs).cons x)

theorem insertAscending_pairwise (v : Int) : ∀ {l : List Int}, l.Pairwise (· ≤ ·) → (insertAscending v l).Pairwise (· ≤ ·)
  | [], _ => List.pairwise_singleton ..
  | x :: xs, sorted => by
    obtain ⟨least, rest⟩ := List.pairwise_cons.mp sorted
    unfold insertAscending
    split
    · rename_i first
      exact List.pairwise_cons.mpr ⟨fun y hy => by
        rcases List.mem_cons.mp hy with rfl | hy
        · exact first
        · exact first.trans (least y hy), sorted⟩
    · rename_i behind
      refine List.pairwise_cons.mpr ⟨fun y hy => ?_, insertAscending_pairwise v rest⟩
      rcases List.mem_cons.mp ((insertAscending_perm v xs).mem_iff.mp hy) with rfl | hy
      · omega
      · exact least y hy

theorem sortAscending_pairwise : ∀ l : List Int, (sortAscending l).Pairwise (· ≤ ·)
  | [] => .nil
  | x :: xs => insertAscending_pairwise x (sortAscending_pairwise xs)

/-- Of a sorted list, the element at an index has that many and itself at or below it, and the others at or above. -/
theorem counts_of_sorted {l : List Int} (sorted : l.Pairwise (· ≤ ·)) {i : Nat} (inside : i < l.length) :
    i + 1 ≤ l.countP (fun v => decide (v ≤ l[i])) ∧ l.length ≤ i + l.countP (fun v => decide (l[i] ≤ v)) := by
  have low : ∀ v ∈ l.take (i + 1), v ≤ l[i] := fun v hv => by
    obtain ⟨j, hj, rfl⟩ := List.getElem_of_mem hv
    rw [List.getElem_take]
    rw [List.length_take] at hj
    rcases Nat.lt_or_ge j i with below | same
    · exact List.pairwise_iff_getElem.mp sorted j i (by omega) inside below
    · simp only [show j = i by omega, le_refl]
  have high : ∀ v ∈ l.drop i, l[i] ≤ v := fun v hv => by
    obtain ⟨j, hj, rfl⟩ := List.getElem_of_mem hv
    rw [List.getElem_drop]
    rcases Nat.eq_zero_or_pos j with rfl | above
    · simp
    · exact List.pairwise_iff_getElem.mp sorted i (i + j) inside (by rw [List.length_drop] at hj; omega) (by omega)
  constructor
  · have part := (List.take_sublist (i + 1) l).countP_le (p := fun v => decide (v ≤ l[i]))
    rw [List.countP_eq_length.mpr fun v hv => decide_eq_true (low v hv), List.length_take] at part
    omega
  · have part := (List.drop_sublist i l).countP_le (p := fun v => decide (l[i] ≤ v))
    rw [List.countP_eq_length.mpr fun v hv => decide_eq_true (high v hv), List.length_drop] at part
    omega

/-- The lower median is one of the values, and half of them or more lie on either side of it (R99). -/
theorem lowerMedian_spec {l : List Int} (some : l ≠ []) : lowerMedian l ∈ l ∧
    l.length ≤ 2 * l.countP (fun v => decide (v ≤ lowerMedian l)) ∧
    l.length ≤ 2 * l.countP (fun v => decide (lowerMedian l ≤ v)) := by
  have perm := sortAscending_perm l
  have length := perm.length_eq
  have size : 0 < l.length := List.length_pos_of_ne_nil some
  have inside : (l.length - 1) / 2 < (sortAscending l).length := by omega
  have median : lowerMedian l = (sortAscending l)[(l.length - 1) / 2] := List.getD_eq_getElem _ _ inside
  obtain ⟨low, high⟩ := counts_of_sorted (sortAscending_pairwise l) inside
  rw [← median, perm.countP_eq] at low high
  refine ⟨perm.mem_iff.mp (median ▸ List.getElem_mem inside), by omega, by omega⟩

/-- The counts of a component's values are those of the pairs. -/
theorem countP_map_filter {β : Type} (f : β → Int) (p : Int → Bool) (l : List β) :
    (l.map f).countP p = (l.filter fun o => p (f o)).length := by
  rw [List.countP_map, List.countP_eq_length_filter]; rfl

/-- An inlier as R100 says it. -/
theorem inlier_eq (median : Int × Int) :
    inlier median = fun o => decide (|o.1 - median.1| ≤ 1 ∧ |o.2 - median.2| ≤ 1) := by
  funext o
  unfold inlier
  congr 1
  rw [Int.abs_eq_natAbs, Int.abs_eq_natAbs]
  simp only [eq_iff_iff]
  omega

/-- Settles O38: the correction is the pair of lower medians, each with `lowerMedian_spec`. -/
theorem consensusIsMeasured : Obligations.ConsensusIsMeasured := by
  rintro minPatches measured c least rfl
  unfold consensus
  by_cases few : measured.length < minPatches ∨ measured = []
  · rw [if_pos few]
    exact ⟨rfl, fun _ => ⟨rfl, rfl⟩, fun _ => rfl, nofun⟩
  · rw [if_neg few]
    obtain ⟨enough, some⟩ := not_or.mp few
    refine ⟨rfl, fun fewer => absurd fewer enough, fun fewer => if_pos fewer, fun d found => ?_⟩
    dsimp only at found ⊢
    split at found
    · cases found
    · rename_i inliers
      cases found
      obtain ⟨memX, lowX, highX⟩ := lowerMedian_spec (l := measured.map Prod.fst) (by simpa using some)
      obtain ⟨memY, lowY, highY⟩ := lowerMedian_spec (l := measured.map Prod.snd) (by simpa using some)
      rw [List.length_map, countP_map_filter] at lowX highX lowY highY
      exact ⟨memX, memY, by rw [inlier_eq], by omega, lowX, highX, lowY, highY⟩

/-! ## The blend (R116, R117) -/

/-- Settles O40: the two weights are positive and add up to 2B, and the weight of the new value grows with z. -/
theorem blendStaysBetween : Obligations.BlendStaysBetween := by
  intro b z old new positive zone oldByte newByte
  have weights : 2 * b - 2 * z - 1 = 2 * (b - z - 1) + 1 := by omega
  obtain ⟨rest, total⟩ : ∃ rest, b = z + 1 + rest := ⟨b - z - 1, by omega⟩
  have weight : 2 * b - 2 * z - 1 = 2 * rest + 1 := by omega
  have between : min old new ≤ blendValue b z old new ∧ blendValue b z old new ≤ max old new := by
    unfold blendValue
    rw [weight]
    constructor
    · rw [Nat.le_div_iff_mul_le (by omega)]
      have := Nat.mul_le_mul_right (2 * rest + 1) (Nat.min_le_left old new)
      have := Nat.mul_le_mul_right (2 * z + 1) (Nat.min_le_right old new)
      subst total
      nlinarith
    · rw [← Nat.lt_succ_iff, Nat.div_lt_iff_lt_mul (by omega)]
      have := Nat.mul_le_mul_right (2 * rest + 1) (Nat.le_max_left old new)
      have := Nat.mul_le_mul_right (2 * z + 1) (Nat.le_max_right old new)
      subst total
      nlinarith
  refine ⟨between.1, between.2, by omega, rfl, ?_, fun z' grows zone' rises => ?_⟩
  · unfold blendValue
    rw [weight, ← Nat.mul_add, show 2 * rest + 1 + (2 * z + 1) = 2 * b by omega]
    rw [Nat.div_eq_of_lt_le] <;> nlinarith
  · unfold blendValue
    refine Nat.div_le_div_right ?_
    obtain ⟨more, rfl⟩ : ∃ more, z' = z + more := ⟨z' - z, by omega⟩
    obtain ⟨left, hleft⟩ : ∃ left, 2 * b - 2 * (z + more) - 1 = left := ⟨_, rfl⟩
    have split_old : 2 * b - 2 * z - 1 = left + 2 * more := by omega
    rw [split_old, hleft]
    nlinarith

/-! ## The bias of the sweep (R32) -/

theorem clampInt_eq (v lo hi : Int) (range : lo ≤ hi) : clampInt v lo hi = max lo (min hi v) := by
  unfold clampInt
  split
  · omega
  · split <;> omega

theorem clampedMean_eq (window : List Int) : clampedMean window =
    max (-32768) (min 32767 ((2 * window.sum + window.length) / (2 * window.length))) := by
  rw [clampedMean, clampInt_eq _ _ _ (by decide), windowMean, List.sum_eq_foldl]

theorem windowStill_iff (threshold : Nat) (window : List Int) :
    windowStill threshold window = true ↔ ∀ v ∈ window, |v - clampedMean window| ≤ threshold := by
  simp only [windowStill, List.all_eq_true, decide_eq_true_eq, Int.abs_eq_natAbs, Nat.cast_le]

/-- Settles O25: the two outcomes of `biasEstimable`. -/
theorem biasDecision : Obligations.BiasDecision := by
  refine fun cfg m => ⟨fun fixed => by rw [decideBias, fixed], fun auto ny np my mp hny hnp hmy hmp => ?_⟩
  subst hny hnp
  rw [← clampedMean_eq] at hmy hmp
  subst hmy hmp
  have estimable : biasEstimable cfg m = true ↔ 64 ≤ m.goodSinceArm ∧
      (∀ v ∈ m.yawWindow, |v - clampedMean m.yawWindow| ≤ cfg.stillThreshold) ∧
      (∀ v ∈ m.pitchWindow, |v - clampedMean m.pitchWindow| ≤ cfg.stillThreshold) := by
    rw [biasEstimable, Bool.and_eq_true, Bool.and_eq_true, decide_eq_true_eq, windowStill_iff, windowStill_iff, and_assoc,
      show 64 ≤ min m.goodSinceArm 256 ↔ 64 ≤ m.goodSinceArm by omega]
  rw [← estimable, decideBias, auto]
  exact ⟨fun still => if_pos still, fun moving => if_neg moving⟩

end Sys2Proof.Machine
end

section
/-! SUPPORT. What the drain-completion test leaves, and what begins or completes a drain: STOP, the time limit, the truncations
(O10, O18, O20, O26, R7, R11, R15, R58). -/

namespace Sys2Proof.Machine

/-! ## The drain-completion test (R15) -/

theorem drainTest_of_engaged {s : State} (h : anySlot s.ingest.slots .engaged = true) : drainTest s = s := by
  simp [drainTest, drained, h]

theorem drainTest_of_queue {s : State} (h : s.ingest.queue ≠ []) : drainTest s = s := by
  simp [drainTest, drained, h]

theorem drainTest_of_undrained {s : State} (h : s.ingest.queue ≠ [] ∨ anySlot s.ingest.slots .filling = true ∨
    anySlot s.ingest.slots .engaged = true) : drainTest s = s := by
  rcases h with queue | filling | engaged
  · exact drainTest_of_queue queue
  · exact drainTest_of_filling filling
  · exact drainTest_of_engaged engaged

/-- With nothing queued and every slot FREE the drain is complete. -/
theorem drainTest_of_free {s : State} (draining : s.sweep.state = .draining) (queue : s.ingest.queue = [])
    (free : ∀ slot ∈ s.ingest.slots, slot.state = .free) : drainTest s = enterDone s := by
  have other {st : SlotState} (ne : SlotState.free ≠ st) : ∀ slot ∈ s.ingest.slots, slot.state ≠ st :=
    fun slot mem => by rw [free slot mem]; exact ne
  simp only [drainTest, drained, draining, queue, anySlot_of_all (other (st := .filling) nofun),
    anySlot_of_all (other (st := .engaged) nofun), firstSlot_of_all (other (st := .held) nofun), and_self, decide_true,
    Bool.not_false, Bool.and_self, if_true]

theorem enterDone_ingestWait (s : State) : (enterDone s).arb.ingestWait = none := by
  unfold enterDone
  rcases retestStall_arb _ with same | dropped
  · rw [same]; unfold absorbUpdate; split <;> rfl
  · rw [dropped]; unfold dropFetch absorbUpdate; dsimp only; split <;> rfl

/-- Settles O20, by `enterDone_eq` with every slot FREE and by `drainsAtOnce` with one HELD. -/
theorem drainCompletion : Obligations.DrainCompletion := by
  refine fun s => ⟨fun draining queue free => ?_, fun i saved draining queue only inside poses ready => ?_, fun other => ?_⟩
  · have wait : (drainTest s).arb.ingestWait = none := by
      rw [drainTest_of_free draining queue free]; exact enterDone_ingestWait s
    obtain ⟨f, a, done⟩ := enterDone_eq s
    rw [drainTest_of_free draining queue free] at wait ⊢
    rw [done] at wait ⊢
    exact ⟨rfl, rfl, rfl, rfl, rfl, rfl, wait, rfl⟩
  · obtain ⟨-, held⟩ := drainsAtOnce_of_settlesTo draining (.refl (drainTest s))
    obtain ⟨engaged, direction, compositing, job, sweep, store, -⟩ := held i saved queue only inside poses ready
    exact ⟨engaged, direction, compositing, job, sweep, store⟩
  · rcases other with state | undrained
    · exact drainTest_of_ne s state
    · exact drainTest_of_undrained undrained

/-! ## The link stands apart -/

section Link

variable (c : ControlLink)

theorem prepareBurst_link (r : Requester) (t : Transfer) (s : State) :
    prepareBurst r t { s with ctl := c } = { prepareBurst r t s with ctl := c } := by
  unfold prepareBurst
  cases r <;> split <;> rfl

theorem retestStall_link (s : State) : retestStall { s with ctl := c } = { retestStall s with ctl := c } := by
  unfold retestStall
  dsimp only
  split
  · have same (x : Transfer) : testItem { s with ctl := c } .r0 x = testItem s .r0 x := rfl
    rw [same]
    split
    · rfl
    · split
      · rfl
      · split
        · rfl
        · exact prepareBurst_link c .r0 _ (setSide .r0 { s.fetch.p0 with waitStart := none } s)
    · split <;> rfl
  · rfl

theorem engineHalt_link (s : State) : engineHalt { s with ctl := c } = { engineHalt s with ctl := c } := by
  unfold engineHalt
  by_cases busy : inCompositing s.comp = true <;> simp [busy, dropEngine]

theorem doneBlocks_link (s : State) : doneBlocks { s with ctl := c } = { doneBlocks s with ctl := c } := by
  unfold doneBlocks
  rw [engineHalt_link]
  rfl

theorem handStrip0_link (s : State) : handStrip0 { s with ctl := c } = { handStrip0 s with ctl := c } := by
  unfold handStrip0
  dsimp only
  split
  · split <;> rfl
  · rfl

theorem drainHandOver_link (i : Nat) (s : State) : drainHandOver i { s with ctl := c } = { drainHandOver i s with ctl := c } :=
  congrArg (fun u : State => { u with ingest := { u.ingest with slots := moveSlot u.ingest.slots i .engaged } })
    (handStrip0_link c { s with place := { s.place with direction := .plus, state := .passed } })

/-- The drain-completion test neither reads nor changes the link. -/
theorem drainTest_link (s : State) : drainTest { s with ctl := c } = { drainTest s with ctl := c } := by
  unfold drainTest
  have same : drained { s with ctl := c } = drained s := rfl
  rw [same]
  split
  · dsimp only
    split
    · rw [enterDone_eq_retest, enterDone_eq_retest, doneBlocks_link]
      exact retestStall_link c (doneBlocks s)
    · exact drainHandOver_link c ..
  · rfl

theorem settlesTo.link {u t : State} (h : settlesTo u t) : settlesTo { u with ctl := c } { t with ctl := c } := by
  obtain ⟨⟨eq, lines, job, todo⟩, rest⟩ := h
  exact ⟨⟨by rw [eq], lines, job, todo⟩, rest⟩

end Link

/-! ## What begins a drain -/

/-- STOP runs in the states that take it and is answered DONE, the link aside as the ports settle (R7, R167). -/
theorem exec_stop_of_taken {s : State} (tag : Byte) (taken : commandTaken s = true)
    (state : s.sweep.state = .armed ∨ s.sweep.state = .opened ∨ s.sweep.state = .draining) :
    ∃ t, exec (.stop tag []) s = .next t ∧
      settlesTo { stopSweep (takeSlot 4 tag s) with ctl := answered s.ctl 4 tag .done 0 [] } t := by
  have run : exec (.stop tag []) s =
      .next (reply 4 tag (ranDone (settle false false (stopSweep (takeSlot 4 tag s))))) :=
    congrArg Host.Outcome.next (runCommand_of_taken taken List.length_nil (by rw [takesStop_eq]; exact decide_eq_true state))
  refine ⟨_, run, ?_⟩
  have ctl : (settle false false (stopSweep (takeSlot 4 tag s))).ctl = (takeSlot 4 tag s).ctl := by
    rw [settle_ctl, stopSweep_ctl]
  rw [reply, ranDone]
  dsimp only
  rw [ctl]
  exact settlesTo.link _ (settle_settlesTo ..)

/-- Settles O10, by the state that `stopSweep` finds; the drain-completion test is `drainTest_of_undrained` or
`drainsAtOnce_of_settlesTo`. -/
theorem stopByState : Obligations.StopByState := by
  intro s tag taken
  have opened (state : s.sweep.state = .opened) : { stopSweep (takeSlot 4 tag s) with ctl := answered s.ctl 4 tag .done 0 [] } =
      drainTest { s with
        sweep := { s.sweep with state := .draining, lastReason := .stopped, limitRunning := false }
        ctl := answered s.ctl 4 tag .done 0 [] } := by
    have drains : stopSweep (takeSlot 4 tag s) = drainTest (beginDraining .stopped (takeSlot 4 tag s)) := by
      unfold stopSweep
      rw [show (takeSlot 4 tag s).sweep.state = .opened from state]
    rw [drains]
    exact (drainTest_link (answered s.ctl 4 tag .done 0 []) (beginDraining .stopped (takeSlot 4 tag s))).symm
  refine ⟨fun armed => ?_, fun state undrained => ?_, fun u state same => ?_, fun draining => ?_⟩
  · obtain ⟨t, run, settled⟩ := exec_stop_of_taken tag taken (.inl armed)
    refine ⟨t, run, ?_⟩
    unfold stopSweep at settled
    rw [show (takeSlot 4 tag s).sweep.state = .armed from armed] at settled
    exact settled
  · obtain ⟨t, run, settled⟩ := exec_stop_of_taken tag taken (.inr (.inl state))
    refine ⟨t, run, ?_⟩
    rw [opened state, drainTest_of_undrained] at settled
    · exact settled
    · exact undrained
  · obtain ⟨t, run, settled⟩ := exec_stop_of_taken tag taken (.inr (.inl state))
    rw [opened state, ← same] at settled
    exact ⟨t, run, settled, drainsAtOnce_of_settlesTo (by rw [same]) settled⟩
  · obtain ⟨t, run, settled⟩ := exec_stop_of_taken tag taken (.inr (.inr draining))
    refine ⟨t, run, ?_⟩
    unfold stopSweep at settled
    rw [show (takeSlot 4 tag s).sweep.state = .draining from draining] at settled
    exact settled

/-- Settles O18: the expiry in OPEN begins the drain at its time, and the match of `execSweepTimeLimit` leaves every other
state alone. -/
theorem timeLimitBeginsTheDrain : Obligations.TimeLimitBeginsTheDrain := by
  intro s openTime due limit opening
  have run (state : s.sweep.state = .opened) (running : s.sweep.limitRunning = true) :
      exec .sweepTimeLimit s = .next (settle false false (drainTest { s with
        timeBase := if 0 < (due - s.timeBase).toInt then due else s.timeBase
        sweep := { s.sweep with state := .draining, lastReason := .timeLimit, limitRunning := false } })) := by
    rw [limit]
    show execSweepTimeLimit s = _
    unfold execSweepTimeLimit
    rw [state, opening]
    dsimp only
    rw [if_pos running]
    rfl
  refine ⟨fun state running undrained => ⟨_, run state running, ?_⟩, fun u state running same => ⟨_, run state running, ?_⟩,
    fun other => ?_⟩
  · rw [drainTest_of_undrained]
    swap; · exact undrained
    exact settle_settlesTo ..
  · rw [← same]
    exact ⟨settle_settlesTo .., drainsAtOnce_of_settlesTo (by rw [same]) (settle_settlesTo ..)⟩
  · refine congrArg Host.Outcome.next ?_
    split
    · rename_i state _
      rcases other with ne | stopped
      · exact absurd state ne
      · rw [if_neg (by rw [stopped]; exact nofun)]
    · rfl

/-! ## Truncations (R58) -/

/-- A truncation frees the slot of a FILLING frame, and the drain-completion test follows (R58, R60). -/
theorem truncateFrame_eq {s : State} {i : Nat} (filling : slotState s.ingest.slots i = .filling) (port : PortFrame) :
    truncateFrame i port s = drainTest { dropLines i s with
      sweep := { s.sweep with counters := { s.sweep.counters with
        truncated := holdCount (s.sweep.counters.truncated + 1) } }
      ingest := { s.ingest with
        port := port
        slots := s.ingest.slots.modify i fun slot => { slot with state := .free }
        queue := s.ingest.queue.filter fun k => decide (k ≠ i)
        lines := s.ingest.lines.filter fun l => decide (l.slot ≠ i) }
      attn := { s.attn with pendingSet := s.attn.pendingSet ||| 8 } } := by
  unfold truncateFrame freeSlot
  rw [if_neg (by rw [filling]; exact nofun)]
  rfl

/-- The four commands that truncate the frame on the port, with what is left of it there (R58). -/
theorem exec_truncates {s : State} {c : Instr} {i line : Nat} {high : Bool} {port : PortFrame}
    (on : s.ingest.port = .filling i line high)
    (truncates : (c = .pixelLineStart ∧ high = false ∧ 2 ≤ s.ingest.lines.length ∧ port = .ignored) ∨
      (c = .lineTooLong ∧ high = true ∧ port = .ignored) ∨
      (∃ words : List Half, c = .pixelLineClose words ∧ high = true ∧ words.length < s.sweepCfg.frameWidth ∧
        port = .ignored) ∨
      (c = .frameEnd ∧ port = .low)) :
    exec c s = .next (settle false false (truncateFrame i port s)) := by
  rcases truncates with ⟨rfl, rfl, full, rfl⟩ | ⟨rfl, rfl, rfl⟩ | ⟨words, rfl, rfl, short, rfl⟩ | ⟨rfl, rfl⟩
  · show execPixelLineStart s = _
    unfold execPixelLineStart
    rw [on]
    exact congrArg Host.Outcome.next (if_pos full)
  · show execLineTooLong s = _
    unfold execLineTooLong
    rw [on]
  · show execPixelLineClose words s = _
    unfold execPixelLineClose
    rw [on]
    exact congrArg Host.Outcome.next (if_pos short.ne)
  · show execFrameEnd s = _
    unfold execFrameEnd
    rw [on]

/-- Settles O26, by `exec_truncates` and `truncateFrame_eq`. -/
theorem truncationFreesTheSlot : Obligations.TruncationFreesTheSlot := by
  refine ⟨fun s other => ?_, fun s u c i line high port on filling truncates same => ?_⟩
  · show execFrameEnd s = _
    unfold execFrameEnd
    rcases other with low | ignored | ⟨tSof, header⟩
    · rw [low]; rfl
    · rw [ignored]; rfl
    · rw [header]; rfl
  · have run := exec_truncates on truncates
    rw [truncateFrame_eq filling, ← same] at run
    have state : u.sweep.state = s.sweep.state := by rw [same]
    refine ⟨_, run, fun opened => ?_, fun draining => ⟨settle_settlesTo .., ?_, fun undrained => ?_⟩⟩
    · rw [drainTest_of_ne u (by rw [state, opened]; exact nofun)]
      exact settle_settlesTo ..
    · exact drainsAtOnce_of_settlesTo (state.trans draining) (settle_settlesTo ..)
    · rw [drainTest_of_undrained (undrained.imp_right .inr)]
      exact settle_settlesTo ..

end Sys2Proof.Machine
end

section
/-! SUPPORT. Frame and header events, pixel lines, the strobe and MDRDY, a regain, the expiry of a stall, and the end of a strip's
writes (O21, O22, O23, O27, O29, O31, O43, O55). -/

namespace Sys2Proof.Machine

/-! ## Frames and lines (R46, R56) -/

/-- Settles O21, by the test of `execFrameStart` on the reset and the state. -/
theorem frameStartRecordsTheArrival : Obligations.FrameStartRecordsTheArrival := by
  intro s low
  show execFrameStart s = _
  unfold execFrameStart
  rw [low]
  dsimp only
  split <;> rfl

/-- Settles O27, by the branches of `execPixelLineStart` and `execPixelLineClose` for a line that fits. -/
theorem pixelLinesPassThroughTheBuffer : Obligations.PixelLinesPassThroughTheBuffer := by
  refine ⟨fun s i line port room => ?_, fun s i line words port width more => ?_⟩
  · show execPixelLineStart s = _
    unfold execPixelLineStart
    rw [port]
    exact congrArg Host.Outcome.next (if_neg (by omega))
  · have run : exec (.pixelLineClose words) s =
        .next (settle false false (setPort (.filling i (line + 1) false) (bufferLine i line words s))) := by
      show execPixelLineClose words s = _
      unfold execPixelLineClose
      rw [port]
      refine congrArg Host.Outcome.next ?_
      dsimp only
      rw [if_neg (not_not_intro width), if_pos more]
    exact ⟨_, run, settle_settlesTo ..⟩

/-! ## Headers in OPEN (R47 to R52) -/

/-- A header's fields by the words of its line (R47). -/
theorem parseHeader_of_length {words : List Half} (long : 16 ≤ words.length) : parseHeader words = some
    { seq := words.getD 0 0
      width := (words.getD 1 0).toNat
      height := (words.getD 2 0).toNat
      exposure := (words.getD 3 0).toNat * 256 + (highByte (words.getD 4 0)).toNat
      rowPeriod := (words.getD 5 0).toNat
      startMark := (words.getD 4 0).getLsbD 0
      stopMark := (words.getD 4 0).getLsbD 1
      guideMark := (words.getD 4 0).getLsbD 2 } :=
  if_neg (by omega)

theorem highByte_toNat (w : Half) : (highByte w).toNat = w.toNat / 256 := by
  rw [highByte, BitVec.extractLsb'_toNat, Nat.shiftRight_eq_div_pow]
  exact Nat.mod_eq_of_lt (by omega)

theorem firstSlot_eq_some {slots : List Slot} {st : SlotState} {i : Nat} (inside : i < slots.length)
    (here : slotState slots i = st) (before : ∀ j, j < i → slotState slots j ≠ st) : firstSlot slots st = some i := by
  rw [firstSlot, List.findIdx?_eq_some_iff_getElem]
  refine ⟨inside, decide_eq_true ((slotState_mem inside).symm.trans here), fun j less => ?_⟩
  have other := before j less
  rw [slotState_mem (less.trans inside)] at other
  simpa using other

/-- A header line in OPEN is admitted (R48). -/
theorem exec_headerArrival_of_opened {s : State} {tSof : Time} (port : s.ingest.port = .header tSof)
    (opened : s.sweep.state = .opened) (words : List Half) :
    exec (.headerArrival words) s = .next (settle false false (admitHeader (parseHeader words) tSof s)) := by
  rw [exec_headerArrival, execHeaderArrival, port]
  dsimp only
  rw [opened]

/-- Settles O22, by `placeHeader_of_slot` for the first FREE slot. -/
theorem admittedHeaderTakesTheLowestFreeSlot : Obligations.AdmittedHeaderTakesTheLowestFreeSlot := by
  refine ⟨fun words w each => ⟨fun short => if_pos short, fun long => ⟨_, parseHeader_of_length long, ?_⟩⟩, ?_⟩
  · rw [each 0, each 1, each 2, each 3, each 4, each 5, ← highByte_toNat]
    exact ⟨rfl, rfl, rfl, rfl, rfl, rfl, rfl, rfl⟩
  · intro s words h tSof i port opened parsed width height inside free before
    have counted := headerCounted_eq h s
    have slots : (headerCounted h s).ingest.slots = s.ingest.slots := by rw [counted]
    have cfg : (headerCounted h s).sweepCfg = s.sweepCfg := by rw [counted]
    have placed : admitHeader (some h) tSof s = fillSlot i h tSof (headerCounted h s) := by
      rw [admitHeader_some, placeHeader_of_slot (width.trans (by rw [cfg])) (height.trans (by rw [cfg]))
        (by rw [slots]; exact firstSlot_eq_some inside free before), drainTest_fillSlot (by rw [slots]; exact inside)]
    rw [exec_headerArrival_of_opened port opened, parsed, placed, fillSlot_eq, counted, ← opened]
    exact ⟨_, rfl, settle_settlesTo ..⟩

theorem placeHeader_of_full {h : Header} {s : State} (width : h.width = s.sweepCfg.frameWidth)
    (height : h.height = s.sweepCfg.frameHeight) (full : ∀ slot ∈ s.ingest.slots, slot.state ≠ .free) (tSof : Time) :
    placeHeader h tSof s = dropFrame s := by
  rw [placeHeader, if_pos ((geometryFits_iff ..).mpr ⟨width, height⟩), firstSlot_of_all full]

/-- Settles O23: a header that takes no slot is rejected or dropped by `placeHeader_of_misfit` or `placeHeader_of_full`, and
the drain-completion test follows. -/
theorem rejectedAndDroppedHeaders : Obligations.RejectedAndDroppedHeaders := by
  intro s words tSof port opened
  refine ⟨fun short => ?_, fun h sweep u parsed sweep_eq places => ?_⟩
  · rw [exec_headerArrival_of_opened port opened, show parseHeader words = none from if_pos short]
    exact ⟨_, rfl, settle_settlesTo ..⟩
  · have counted := headerCounted_eq h s
    rw [opened] at counted
    have placed : placeHeader h tSof (headerCounted h s) = u := by
      rcases places with ⟨misfit, rfl⟩ | ⟨width, height, full, rfl⟩
      · rw [placeHeader_of_misfit (by rw [counted]; exact misfit), counted, sweep_eq]
        rfl
      · rw [placeHeader_of_full (by rw [counted]; exact width) (by rw [counted]; exact height)
          (by rw [counted]; exact full), counted, sweep_eq]
        rfl
    have run : exec (.headerArrival words) s = .next (settle false false (drainTest u)) := by
      rw [exec_headerArrival_of_opened port opened, parsed, admitHeader_some, placed]
    have state : u.sweep.state = sweep.state := by rcases places with ⟨-, rfl⟩ | ⟨-, -, -, rfl⟩ <;> rfl
    have queue : u.ingest.queue = s.ingest.queue := by rcases places with ⟨-, rfl⟩ | ⟨-, -, -, rfl⟩ <;> rfl
    have slots : u.ingest.slots = s.ingest.slots := by rcases places with ⟨-, rfl⟩ | ⟨-, -, -, rfl⟩ <;> rfl
    refine ⟨_, run, settle_settlesTo .., fun stays => ?_⟩
    have same : drainTest u = u := by
      rcases stays with going | undrained
      · exact drainTest_of_ne u (by rw [state, sweep_eq, going]; exact nofun)
      · exact drainTest_of_undrained (by rw [queue, slots]; exact undrained)
    rw [same]
    exact settle_settlesTo ..

/-! ## The motion link (R23 to R26, R42) -/

/-- Settles O29, by the branches of `execSampleStrobe` and `execMdrdySeen`. -/
theorem strobeAndDataReady : Obligations.StrobeAndDataReady := by
  refine ⟨fun s due running idle same => ?_, fun s strobeTime sample window => ?_⟩
  · show execSampleStrobe s = _
    unfold execSampleStrobe
    rw [same, if_pos running]
    rcases idle with absent | ⟨start, discarding⟩
    · rw [absent]; rfl
    · rw [discarding]; rfl
  · have run : exec .mdrdySeen s = .next (if ticksSince s.timeBase strobeTime ≤ windowTicks s.sweepCfg then
        { s with motion := { s.motion with tx := .reading sample s.timeBase } } else s) := by
      show execMdrdySeen s = _
      unfold execMdrdySeen
      rw [window]
    exact ⟨fun within => run.trans (congrArg Host.Outcome.next (if_pos within)),
      fun late => run.trans (congrArg Host.Outcome.next (if_neg (Int.not_le.mpr late)))⟩

/-- The motion unit after the good sample that regains the link (R40). -/
theorem sampleMotion_of_regain {s : State} (h : regains s.motion = true) (sample : Time) (bytes : BitVec 48) :
    (sampleMotion sample bytes s).link = .sampling ∧
      (sampleMotion sample bytes s).ring.getLast? = some (poseEntry s.sweepCfg s.motion sample bytes) := by
  rw [sampleMotion, goodLink, regains_takeSample, h, estimate_eq]
  refine ⟨rfl, ?_⟩
  show (joinRing s.motion.ring (poseEntry s.sweepCfg s.motion sample bytes)).getLast? = _
  rw [joinRing, List.getLast?_concat]

/-- What a regain sends (R42, R84, R121). -/
theorem regain_eq (entry : PoseEntry) (s : State) : regain entry s = { s with
    place := { s.place with motionLost := false }
    comp := { s.comp with
      trimYaw :=
        if ((s.sweep.state = .opened ∨ s.sweep.state = .draining) ∧ s.comp.strips ≠ []) ∧ inCompositing s.comp = false then
          reanchorTrim s.sweepCfg s.place.direction s.comp.strips (s.place.originYaw.getD 0) ⟨entry.time, entry.yaw⟩
        else s.comp.trimYaw
      pendingReanchor :=
        if ((s.sweep.state = .opened ∨ s.sweep.state = .draining) ∧ s.comp.strips ≠ []) ∧ inCompositing s.comp = true then
          some ⟨entry.time, entry.yaw⟩
        else s.comp.pendingReanchor } } := by
  unfold regain sendReanchor
  dsimp only
  by_cases due : (s.sweep.state = .opened ∨ s.sweep.state = .draining) ∧ s.comp.strips ≠ []
  · rw [if_pos due]
    by_cases busy : s.comp.state = .compositing ∨ s.comp.state = .harvesting
    · have on : inCompositing s.comp = true := decide_eq_true busy
      simp [busy, due, on]
    · have off : inCompositing s.comp = false := decide_eq_false busy
      simp [busy, due, off, applyReanchor]
  · simp [due]

/-- A good sample that regains the link, with no frame waiting for motion and none to take (R42). -/
theorem goodSample_of_regain {s : State} (regained : regains s.motion = true) (placed : s.place.state ≠ .waitMotion)
    (empty : s.ingest.queue = []) (sample : Time) (bytes : BitVec 48) : goodSample sample bytes s =
      regain (poseEntry s.sweepCfg s.motion sample bytes) { s with motion := sampleMotion sample bytes s } := by
  unfold goodSample
  dsimp only
  rw [if_pos regained]
  exact engineGo_eq_of_nil (entryAnnounced_of_ne (by rw [regain_eq]; exact placed)) (by rw [regain_eq]; exact empty)

/-- Settles O31, by `goodSample_of_regain` and `regain_eq`. -/
theorem regainSendsAReanchor : Obligations.RegainSendsAReanchor := by
  intro s bytes sample start e reading lost three placed empty entry
  have regained : regains s.motion = true := decide_eq_true ⟨lost, by omega⟩
  have run : exec (.goodSample bytes) s = .next (settle false false
      (goodSample sample bytes { s with timeBase := advanceTo (readDue start) s.timeBase })) := by
    rw [exec_goodSample, execGoodSample, reading]
  obtain ⟨link, last⟩ := sampleMotion_of_regain regained sample bytes
  rw [goodSample_of_regain (by exact regained) (by exact placed) (by exact empty), regain_eq] at run
  refine ⟨_, run, ?_⟩
  rw [(settle_settlesTo ..).1.1, entry]
  refine ⟨link, last, rfl, rfl, rfl, rfl, rfl, rfl, rfl, fun due => ⟨fun free => ?_, fun busy => ?_⟩, fun none => ?_⟩
  · exact ⟨if_pos ⟨due, free⟩, if_neg fun h => Bool.false_ne_true (free.symm.trans h.2)⟩
  · exact ⟨if_neg fun h => Bool.false_ne_true (h.2.symm.trans busy), if_pos ⟨due, busy⟩⟩
  · exact ⟨if_neg fun h => none h.1, if_neg fun h => none h.1⟩

/-! ## The expiry of a stall (R160) -/

/-- Settles O55, by the branches of `expireStall` and `settle_burst` for the header it posts. -/
theorem fetchWaitExpires : Obligations.FetchWaitExpires := by
  have run (s : State) : exec .fetchWaitExpiry s = .next (settle false false (expireStall s)) := rfl
  refine ⟨fun s x start due waits transfer same => ⟨fun limited => ?_, fun unlimited => ?_⟩, fun s none => ?_⟩
  · set u := expireStall s with hu
    have ended : u = raiseCause .fetchTimeout (endWith .r0 .errorNotSettled x.item { s with timeBase := advanceTo due s.timeBase }) := by
      rw [hu, expireStall, waits, transfer, same]
      exact if_neg limited
    have posted : (sideOf u.fetch .r0).posted = some ⟨.r0, .errorNotSettled, x.item, []⟩ := by rw [ended]; rfl
    have stall : u.fetch.p0.waitStart = none := by rw [ended]; rfl
    obtain ⟨f, a, only⟩ := endWith_only .r0 .errorNotSettled x.item { s with timeBase := advanceTo due s.timeBase }
    have settled := settle_settlesTo false false u
    refine ⟨_, run s, settle_burst false false posted rfl, ?_, ?_⟩
    · exact settled.2.1.2.2.1.trans stall
    · rw [ended, only] at settled
      rw [hu] at ended
      rw [ended, only]
      exact settled.1
  · refine ⟨_, run s, ?_⟩
    rw [show expireStall s = s by rw [expireStall, waits, transfer]; exact if_pos unlimited]
    exact settle_settlesTo ..
  · refine ⟨_, run s, ?_⟩
    rw [show expireStall s = s by rw [expireStall]; rcases none with h | h <;> rw [h]; split <;> simp_all]
    exact settle_settlesTo ..

/-! ## The end of a strip's writes (R89 to R91, R119) -/

theorem mem_patchWords {cfg : Configuration} {k : Nat} {x : Int} {w : Nat} : w ∈ patchWords cfg k x ↔
    ∃ r j : Nat, r < 16 ∧ j < 16 ∧ w = cellAddress cfg (storedColumn cfg (x + j)) (bandCentre cfg k - 8 + r) / 8 := by
  simp only [patchWords, List.mem_flatMap, List.mem_dedup, List.mem_map, List.mem_range]
  constructor
  · rintro ⟨r, row, j, column, rfl⟩
    exact ⟨r, j, row, column, rfl⟩
  · rintro ⟨r, j, row, column, rfl⟩
    exact ⟨r, row, j, column, rfl⟩

theorem mem_harvestWords {cfg : Configuration} {store : CanvasStore} {columns : List Int} {w : Nat} :
    w ∈ harvestWords cfg store columns ↔
      ∃ (k : Nat) (x : Int) (r j : Nat), k < 8 ∧ x ∈ columns ∧ r < 16 ∧ j < 16 ∧
        (∀ i : Nat, i < 16 → coverageIndex k (storedColumn cfg (x + i)) ∈ store.coverage) ∧
        w = cellAddress cfg (storedColumn cfg (x + j)) (bandCentre cfg k - 8 + r) / 8 := by
  simp only [harvestWords, List.mem_flatMap, List.mem_filter, mem_bands, eligible_iff, mem_patchWords]
  constructor
  · rintro ⟨k, band, x, ⟨column, covered⟩, r, j, row, at_, same⟩
    exact ⟨k, x, r, j, band, column, row, at_, covered, same⟩
  · rintro ⟨k, x, r, j, band, column, row, at_, covered, same⟩
    exact ⟨k, band, x, ⟨column, covered⟩, r, j, row, at_, same⟩

/-- The writes are complete: the harvest is asked for (R119). -/
def writesComplete (s : State) : State :=
  { dropEngine .compositor s with
    comp := { s.comp with state := .harvesting }
    reg := { s.reg with state := .harvesting, openingHarvest := false } }

theorem completeWrites_of_done {s : State} {job : StripJob} (compositing : s.comp.state = .compositing)
    (current : s.comp.job = some job) (planned : job.planned = true) (stored : s.comp.todo = [])
    (read : readsLeft s .compositor = []) : completeWrites s = writesComplete s := by
  rw [completeWrites, compositing, current]
  dsimp only
  rw [if_pos (by rw [planned, stored, readsDone, read]; rfl)]
  rfl

theorem readsDone_of_left {s : State} {unit : EngineUnit} (left : readsLeft s unit ≠ []) : readsDone s unit = false := by
  rw [readsDone, List.isEmpty_eq_false_iff]; exact left

/-- The words that the harvest has to read once the writes are complete (R89 to R91). -/
theorem readsLeft_writesComplete {s : State} {job : StripJob} (current : s.comp.job = some job)
    (unplanned : s.arb.regReads = none) :
    readsLeft (settle false false (writesComplete s)) .registration = leadWords s job ++ openingWords s job := by
  obtain ⟨reads, -⟩ := settle_reads false false (writesComplete s)
  have none : engineReads (writesComplete s).arb .registration = none := unplanned
  have words : registrationWords (writesComplete s) = leadWords s job ++ openingWords s job := by
    have job' : (writesComplete s).comp.job = some job := current
    rw [registrationWords, job']
    rfl
  have planned : plannedReads (writesComplete s) .registration = some (leadWords s job ++ openingWords s job) := by
    rw [plannedReads, none, if_pos (by rfl)]
    exact congrArg some words
  show (settle false false (writesComplete s)).arb.regReads.getD [] = _
  rw [reads]
  exact congrArg (·.getD []) planned

/-- Settles O43, by `completeWrites_of_done`, `mem_harvestWords` and the reads left that hold both events back. -/
theorem writesCompleteAskForTheHarvest : Obligations.WritesCompleteAskForTheHarvest := by
  refine ⟨fun s job compositing current planned stored read => ?_, fun cfg store columns w => mem_harvestWords,
    fun s => ⟨fun left => ?_, fun left => ?_⟩⟩
  · have run : exec .stripWritesComplete s = .next (settle false false (writesComplete s)) := by
      rw [← completeWrites_of_done compositing current planned stored read]; rfl
    have comp : (settle false false (writesComplete s)).comp = (writesComplete s).comp :=
      settle_comp_of_ne _ _ _ (show CompState.harvesting ≠ .compositing from nofun)
    refine ⟨_, run, (congrArg Compositor.job comp).trans current, (congrArg Compositor.todo comp).trans stored,
      settle_settlesTo .., fun unplanned w => ?_⟩
    rw [readsLeft_writesComplete current unplanned, List.mem_append, leadWords, openingWords, harvestsOpening]
    by_cases opening : job.strip0 = true ∧ s.sweepCfg.mode = .ring
    · simp [opening]
    · rw [if_neg (by simpa using opening)]
      simp only [List.not_mem_nil, or_false]
      exact ⟨.inl, fun h => h.resolve_right fun ⟨strip0, ring, _⟩ => opening ⟨strip0, ring⟩⟩
  · have same : completeWrites s = s := by
      unfold completeWrites
      split
      · rw [readsDone_of_left left, Bool.and_false]; rfl
      · rfl
    exact ⟨_, rfl, by rw [same]; exact settle_settlesTo ..⟩
  · have same : completeHarvest s = s := by
      unfold completeHarvest
      split
      · rw [readsDone_of_left left]; rfl
      · rfl
    exact ⟨_, rfl, by rw [same]; exact settle_settlesTo ..⟩

end Sys2Proof.Machine
end

section
/-! SUPPORT. The attention commands, the status snapshot field by field and the link's other transactions (O12, O13, O14, O17,
R166 to R175, 10.4). -/

namespace Sys2Proof.Machine

/-! ## READ_ATTENTION (R174) -/

theorem activeCauses_getLsbD (a : Attention) (i : Nat) :
    (activeCauses a).getLsbD i = (a.pendingSet.getLsbD i && a.enableSet.getLsbD i) := BitVec.getLsbD_and

theorem mem_causeCodes {code : Nat} : code ∈ ([1, 2, 3, 4, 5, 6, 7] : List Nat) ↔ 1 ≤ code ∧ code ≤ 7 := by
  simp only [List.mem_cons, List.not_mem_nil, or_false]; omega

/-- The answer is 0 exactly with no cause that is pending and enabled. -/
theorem attentionAnswer_eq_zero_iff (a : Attention) :
    attentionAnswer a = 0 ↔ ∀ i, i < 7 → (activeCauses a).getLsbD i = false := by
  unfold attentionAnswer
  split
  · rename_i code found
    have active := List.find?_some found
    obtain ⟨least, most⟩ := mem_causeCodes.mp (List.mem_of_find?_eq_some found)
    refine ⟨fun zero => by omega, fun clear => ?_⟩
    rw [clear (code - 1) (by omega)] at active
    exact absurd active nofun
  · rename_i found
    refine ⟨fun _ i less => ?_, fun _ => rfl⟩
    have clear := List.find?_eq_none.mp found (i + 1) (mem_causeCodes.mpr ⟨by omega, by omega⟩)
    simpa using clear

/-- The answer is the lowest code of a cause that is pending and enabled. -/
theorem attentionAnswer_least {a : Attention} (some : attentionAnswer a ≠ 0) : attentionAnswer a ≤ 7 ∧
    (activeCauses a).getLsbD (attentionAnswer a - 1) = true ∧
      ∀ i, i + 1 < attentionAnswer a → (activeCauses a).getLsbD i = false := by
  unfold attentionAnswer at some ⊢
  split
  · rename_i code found
    obtain ⟨least, most⟩ := mem_causeCodes.mp (List.mem_of_find?_eq_some found)
    refine ⟨most, by simpa using List.find?_some found, fun i less => ?_⟩
    obtain ⟨active, before, behind, codes, earlier⟩ := List.find?_eq_some_iff_append.mp found
    have place : i + 1 ∈ before := by
      have inside : i + 1 ∈ before ++ code :: behind := codes ▸ mem_causeCodes.mpr ⟨by omega, by omega⟩
      have sorted : (before ++ code :: behind).Pairwise (· < ·) := codes ▸ by decide
      rcases List.mem_append.mp inside with h | h
      · exact h
      · obtain ⟨-, tail, -⟩ := List.pairwise_append.mp sorted
        rcases List.mem_cons.mp h with h | h
        · omega
        · exact absurd ((List.pairwise_cons.mp tail).1 _ h) (by omega)
    simpa using earlier _ place
  · rename_i found
    rw [found] at some
    exact absurd rfl some

/-- Settles O13, by `attentionAnswer_eq_zero_iff` and `attentionAnswer_least`. -/
theorem readAttentionAnswersTheFirstCause : Obligations.ReadAttentionAnswersTheFirstCause := by
  intro s tag taken
  simp only [← activeCauses_getLsbD]
  refine ⟨attentionAnswer s.attn, ?_, attentionAnswer_eq_zero_iff _, attentionAnswer_least, ?_⟩
  · refine congrArg Host.Outcome.next ((runCommand_of_taken taken List.length_nil rfl).trans ?_)
    show ({ s with ctl := answered s.ctl 7 tag .done 0 (natBytes 1 (attentionAnswer s.attn)) } : State) = _
    rw [show natBytes 1 (attentionAnswer s.attn) = [BitVec.ofNat 8 (attentionAnswer s.attn)] by simp [natBytes]]
  · rw [ne_eq, attentionAnswer_eq_zero_iff, atnHigh_iff]
    simp [activeCauses_getLsbD]

/-! ## ACK_ATTENTION (R175) -/

/-- ACK_ATTENTION's run with the code of its payload byte. -/
theorem exec_ackAttention_of_taken {s : State} (tag code : Byte) (taken : commandTaken s = true) :
    exec (.ackAttention tag [code]) s = .next (reply 8 tag (acknowledge code.toNat (takeSlot 8 tag s))) := by
  refine congrArg Host.Outcome.next ((runCommand_of_taken taken List.length_singleton rfl).trans ?_)
  rw [show bytesNat [code] 0 1 = code.toNat by simp [bytesNat]]

theorem causeMark_getLsbD {i : Nat} (less : i < 7) (j : Nat) : (causeMark (i + 1)).getLsbD j = decide (j = i) := by
  rw [causeMark, Nat.add_sub_cancel]
  by_cases h : j = i
  · subst h; simp [less]
  · simp [h]; omega

theorem and_causeMark_eq_zero_iff {i : Nat} (less : i < 7) (pending : BitVec 7) :
    pending &&& causeMark (i + 1) = 0 ↔ pending.getLsbD i = false := by
  rw [BitVec.eq_of_getLsbD_eq_iff]
  simp only [BitVec.getLsbD_and, causeMark_getLsbD less]
  constructor
  · intro h
    simpa using h i less
  · intro clear j _
    by_cases same : j = i
    · subst same; simp [clear]
    · simp [same]

/-- Settles O14, by the branches of `acknowledge`. -/
theorem ackAttentionByCause : Obligations.AckAttentionByCause := by
  intro s tag code taken
  rw [exec_ackAttention_of_taken tag code taken]
  refine ⟨fun outside => ?_, fun i same less clear => ?_, fun i same less pending motion lost => ?_,
    fun i same less pending other => ?_⟩
  · rw [acknowledge, if_pos (by omega)]
    rfl
  · have none : (takeSlot 8 tag s).attn.pendingSet &&& causeMark (i + 1) = 0 := (and_causeMark_eq_zero_iff less _).mpr clear
    rw [same, acknowledge, if_neg (by omega), if_pos none]
    rfl
  · have some : ¬(takeSlot 8 tag s).attn.pendingSet &&& causeMark (i + 1) = 0 := by
      rw [and_causeMark_eq_zero_iff less]; exact Bool.not_eq_false _ ▸ pending
    have active : i + 1 = causeCode .motionLost ∧ (takeSlot 8 tag s).motion.link = .lost :=
      ⟨by subst motion; rfl, lost⟩
    rw [same, acknowledge, if_neg (by omega), if_neg some, if_pos active]
    rfl
  · have some : ¬(takeSlot 8 tag s).attn.pendingSet &&& causeMark (i + 1) = 0 := by
      rw [and_causeMark_eq_zero_iff less]; exact Bool.not_eq_false _ ▸ pending
    have inactive : ¬(i + 1 = causeCode .motionLost ∧ (takeSlot 8 tag s).motion.link = .lost) :=
      fun ⟨motion, lost⟩ => other ⟨Nat.succ_injective motion, lost⟩
    refine ⟨s.attn.pendingSet &&& ~~~(causeMark (i + 1)), ?_, fun j => ?_⟩
    · rw [same, acknowledge, if_neg (by omega), if_neg some, if_neg inactive]
      rfl
    · by_cases inside : j < 7
      · rw [BitVec.getLsbD_and, BitVec.getLsbD_not, causeMark_getLsbD less, decide_eq_true inside, Bool.true_and, decide_not]
      · rw [BitVec.getLsbD_of_ge _ _ (by omega), BitVec.getLsbD_of_ge s.attn.pendingSet _ (by omega), Bool.false_and]

/-! ## The status snapshot (R172) -/

theorem snapshotMarks_eq (s : State) : snapshotMarks s = flagWord [s.sweep.openPending, s.sweep.openTime.isSome,
    s.place.originYaw.isSome, s.comp.clean.isSome, s.comp.closureError.isSome, s.comp.closurePoor, false, false] := by
  simp only [snapshotMarks, flagBit_eq, flagWord, Bool.toNat_false]
  ring

/-- The fields of the status snapshot. -/
def snapshotFields (s : State) : List (Nat × Nat) :=
  [(1, stateCode s.sweep.state), (1, reasonCode s.sweep.lastReason), (1, snapshotMarks s),
    (1, directionCode s.place.direction), (4, (s.sweep.openTime.getD 0).toNat),
    (6, signedCode 6 (s.place.originYaw.getD 0)), (6, signedCode 6 (s.place.originPitch.getD 0)),
    (2, signedCode 2 s.motion.biasYaw), (2, signedCode 2 s.motion.biasPitch),
    (1, biasSourceCode s.motion.biasSource), (1, selfResultCode s.selfTest.result),
    (6, signedCode 6 s.comp.trimYaw), (6, signedCode 6 s.comp.trimPitch), (4, signedCode 4 s.comp.front),
    (4, signedCode 4 s.comp.settled), (4, signedCode 4 (s.comp.clean.getD 0)),
    (2, unsignedCode 2 s.comp.strips.length), (1, signedCode 1 ((s.comp.closureError.map Prod.fst).getD 0)),
    (1, signedCode 1 ((s.comp.closureError.map Prod.snd).getD 0)), (1, s.attn.pendingSet.toNat),
    (1, s.attn.enableSet.toNat)] ++
  (counterList s).map fun n => (4, unsignedCode 4 n)

/-- The lengths of those fields. -/
def snapshotWidths : List Nat :=
  [1, 1, 1, 1, 4, 6, 6, 2, 2, 1, 1, 6, 6, 4, 4, 4, 2, 1, 1, 1, 1] ++ List.replicate 13 4

theorem snapshotFields_widths (s : State) : (snapshotFields s).map Prod.fst = snapshotWidths := rfl

theorem statusSnapshot_eq (s : State) : statusSnapshot s = fieldBytes (snapshotFields s) ++ [] := by
  unfold statusSnapshot snapshotFields fieldBytes
  simp only [timeField, optSigned, signedField_eq, unsignedField_eq]
  simp only [List.flatMap_append, List.flatMap_cons, List.flatMap_nil, List.append_nil, List.append_assoc]
  rw [List.flatMap_map]

section Snapshot

variable (s : State)

theorem snapshotField (i : Nat) {pos n v : Nat} (hi : (snapshotFields s)[i]? = some (n, v))
    (start : (snapshotWidths.take i).sum = pos) : FieldAt (snapshotFields s) pos n v :=
  .of_index (snapshotFields_widths s) i hi start

theorem snapshotField_counter {i : Nat} (h : i < 13) :
    FieldAt (snapshotFields s) (56 + 4 * i) 4 (unsignedCode 4 ((counterList s).getD i 0 : Nat)) :=
  snapshotField s (21 + i) (by interval_cases i <;> rfl) (by interval_cases i <;> rfl)

theorem statusSnapshot_signed : ∀ f ∈ [(8, 6, s.place.originYaw.getD 0), (14, 6, s.place.originPitch.getD 0),
      (20, 2, s.motion.biasYaw), (22, 2, s.motion.biasPitch), (26, 6, s.comp.trimYaw), (32, 6, s.comp.trimPitch),
      (38, 4, s.comp.front), (42, 4, s.comp.settled), (46, 4, s.comp.clean.getD 0),
      (52, 1, (s.comp.closureError.map Prod.fst).getD 0), (53, 1, (s.comp.closureError.map Prod.snd).getD 0)],
    fitsSigned f.2.1 f.2.2 → signedAt (statusSnapshot s) f.1 f.2.1 = f.2.2 := by
  rw [statusSnapshot_eq]
  simp only [List.forall_mem_cons]
  exact ⟨signedAt_field _ (snapshotField s 5 rfl rfl), signedAt_field _ (snapshotField s 6 rfl rfl),
    signedAt_field _ (snapshotField s 7 rfl rfl), signedAt_field _ (snapshotField s 8 rfl rfl),
    signedAt_field _ (snapshotField s 11 rfl rfl), signedAt_field _ (snapshotField s 12 rfl rfl),
    signedAt_field _ (snapshotField s 13 rfl rfl), signedAt_field _ (snapshotField s 14 rfl rfl),
    signedAt_field _ (snapshotField s 15 rfl rfl), signedAt_field _ (snapshotField s 17 rfl rfl),
    signedAt_field _ (snapshotField s 18 rfl rfl), List.forall_mem_nil _⟩

theorem statusSnapshot_strips (fits : s.comp.strips.length < 65536) :
    bytesNat (statusSnapshot s) 50 2 = s.comp.strips.length := by
  rw [statusSnapshot_eq]
  exact_mod_cast bytesNat_unsigned [] (snapshotField s 16 rfl rfl) (Int.natCast_nonneg _) (by norm_num; exact_mod_cast fits)

theorem statusSnapshot_counter {i n : Nat} (h : i < 13) (fits : n < 4294967296) (value : (counterList s).getD i 0 = n) :
    bytesNat (statusSnapshot s) (56 + 4 * i) 4 = n := by
  rw [statusSnapshot_eq, ← value]
  rw [← value] at fits
  exact_mod_cast bytesNat_unsigned [] (snapshotField_counter s h) (Int.natCast_nonneg _) (by norm_num; exact_mod_cast fits)

end Snapshot

/-- The snapshot shows nothing of the link. -/
theorem statusSnapshot_takeSlot (kind tag : Byte) (s : State) : statusSnapshot (takeSlot kind tag s) = statusSnapshot s := by
  unfold statusSnapshot snapshotMarks counterList
  rfl

/-- Settles O12, by the fields of `statusSnapshot_eq`. -/
theorem queryReturnsTheSnapshot : Obligations.QueryReturnsTheSnapshot := by
  intro s tag p same
  rw [same]
  refine ⟨fun taken => ?_, ?_, ?_, ?_, fun i bit => ?_, ?_, ?_, ?_, ?_, statusSnapshot_signed s, statusSnapshot_strips s, ?_, ?_,
    fun i n place fits value => statusSnapshot_counter s place fits value⟩
  · show execQuery tag [] s = _
    rw [execQuery, runCommand_of_taken taken List.length_nil rfl, statusSnapshot_takeSlot]
    generalize statusSnapshot s = shown
    rfl
  · rw [statusSnapshot_eq, List.append_nil, fieldBytes_length, snapshotFields_widths]
    rfl
  all_goals rw [statusSnapshot_eq]
  · rw [getD_field (pos := 0) [] (snapshotField s 0 rfl rfl)]
    cases s.sweep.state <;> rfl
  · rw [getD_field (pos := 1) [] (snapshotField s 1 rfl rfl)]
    cases s.sweep.lastReason <;> rfl
  · exact getLsbD_byte [] (snapshotMarks_eq s ▸ snapshotField s 2 rfl rfl) bit
  · rw [getD_field (pos := 3) [] (snapshotField s 3 rfl rfl)]
    cases s.place.direction <;> rfl
  · exact bytesNat_field_of_lt [] (snapshotField s 4 rfl rfl) (s.sweep.openTime.getD 0).isLt
  · rw [getD_field (pos := 24) [] (snapshotField s 9 rfl rfl)]
    cases s.motion.biasSource <;> rfl
  · rw [getD_field (pos := 25) [] (snapshotField s 10 rfl rfl)]
    cases s.selfTest.result <;> rfl
  · exact bytesNat_field_of_lt [] (snapshotField s 19 rfl rfl) (s.attn.pendingSet.isLt.trans (by norm_num))
  · exact bytesNat_field_of_lt [] (snapshotField s 20 rfl rfl) (s.attn.enableSet.isLt.trans (by norm_num))

/-! ## Replies and the other transactions (R166, R168) -/

/-- The fields of a reply before its payload. -/
def replyFields (r : Reply) : List (Nat × Nat) :=
  [(1, r.tag.toNat), (1, r.kind.toNat), (1, resultCode r.result), (1, r.detail), (2, r.payload.length)]

theorem replyBytes_eq (r : Reply) : replyBytes r = fieldBytes (replyFields r) ++ r.payload := by
  have byte (b : Byte) : natBytes 1 b.toNat = [b] := by simp [natBytes]
  simp only [replyBytes, replyFields, fieldBytes, List.flatMap_cons, List.flatMap_nil, byte, List.append_nil, List.append_assoc,
    List.cons_append, List.nil_append]

theorem replyField (r : Reply) (i : Nat) {pos n v : Nat} (hi : (replyFields r)[i]? = some (n, v))
    (start : (([1, 1, 1, 1, 2] : List Nat).take i).sum = pos) : FieldAt (replyFields r) pos n v :=
  .of_index rfl i hi start

theorem replyFields_length (r : Reply) : (fieldBytes (replyFields r)).length = 6 := fieldBytes_length _

theorem csoByte_of_lt {s t : State} {n : Nat} (more : List Byte) (inside : n < s.ctl.cso.length)
    (cso : t.ctl.cso = s.ctl.cso ++ more) : csoByte t n = csoByte s n := by
  rw [csoByte, csoByte, cso, List.getElem?_append_left inside, List.getElem?_eq_getElem inside]

theorem csoByte_of_unpolled {s : State} (unpolled : s.ctl.polled = false) (n : Nat) : csoByte s n = s.ctl.cso.getD n 0 := by
  rw [csoByte, unpolled, List.getD_eq_getElem?_getD]
  cases s.ctl.cso[n]? <;> rfl

/-- Settles O17, by `replyBytes_eq` for a reply's bytes and by the branches of `execReplyTransaction` and
`execTransactionStart`. -/
theorem statusAndReplyTransactions : Obligations.StatusAndReplyTransactions := by
  refine ⟨?_, fun s clocked status latched => ⟨?_, fun some r ready held => ?_, fun some other => ?_⟩, fun s => ⟨?_, ?_⟩⟩
  · rintro r p rfl
    rw [replyBytes_eq]
    refine ⟨by rw [List.length_append, replyFields_length], ?_, ?_, ?_, fun fits => ?_, fun fits => ?_, fun i => ?_⟩
    · rw [getD_field (pos := 0) _ (replyField r 0 rfl rfl), BitVec.ofNat_toNat, BitVec.setWidth_eq]
    · rw [getD_field (pos := 1) _ (replyField r 1 rfl rfl), BitVec.ofNat_toNat, BitVec.setWidth_eq]
    · rw [getD_field (pos := 2) _ (replyField r 2 rfl rfl)]
      cases r.result <;> rfl
    · exact bytesNat_field_of_lt _ (replyField r 3 rfl rfl) fits
    · exact bytesNat_field_of_lt _ (replyField r 4 rfl rfl) fits
    · rw [← replyFields_length r, List.getD_append_right _ _ _ _ (Nat.le_add_right ..), Nat.add_sub_cancel_left]
  · show execReplyTransaction 0 s = _
    rw [execReplyTransaction, latched]
    rfl
  · have served : servedBytes s.ctl clocked = (replyBytes r).take clocked := by rw [servedBytes, latched, ready, held]
    refine ⟨_, ?_, rfl, fun n inside => csoByte_of_lt _ inside rfl, fun i inside => ?_⟩
    · show execReplyTransaction clocked s = _
      rw [execReplyTransaction, latched]
      refine congrArg Host.Outcome.next ?_
      dsimp only
      rw [if_neg some, if_pos ready, served]
    · rw [csoByte_of_unpolled rfl]
      show (s.ctl.cso ++ (replyBytes r).take clocked).getD (s.ctl.cso.length + i) 0 = _
      rw [List.getD_append_right _ _ _ _ (Nat.le_add_right ..), Nat.add_sub_cancel_left, List.getD_eq_getElem?_getD,
        List.getElem?_take_of_lt inside, List.getD_eq_getElem?_getD]
  · have served : servedBytes s.ctl clocked = [] := by
      rw [servedBytes, latched]
      cases status
      case replyReady => exact absurd rfl other
      all_goals rfl
    refine ⟨_, ?_, rfl, fun n beyond => ?_⟩
    · show execReplyTransaction clocked s = _
      rw [execReplyTransaction, latched]
      refine congrArg Host.Outcome.next ?_
      dsimp only
      rw [if_neg some, if_neg other, served, List.append_nil]
    · rw [csoByte_of_unpolled rfl]
      exact List.getD_eq_default _ _ beyond
  · intro reset
    exact congrArg Host.Outcome.next (if_pos reset)
  · intro released status code row
    have run : exec .transactionStart s = .next { s with ctl := { s.ctl with
        latched := some (linkStatus s.ctl), cso := natBytes 1 (linkStatusCode (linkStatus s.ctl)), polled := false } } :=
      congrArg Host.Outcome.next (if_neg (by rw [released]; exact nofun))
    have both : linkStatus s.ctl = status ∧ natBytes 1 (linkStatusCode (linkStatus s.ctl)) = [code] := by
      rcases row with ⟨held, rfl, rfl⟩ | ⟨empty, held, rfl, rfl⟩ | ⟨empty, none, rfl, rfl⟩
      · rw [linkStatus, if_pos held]; exact ⟨rfl, rfl⟩
      · rw [linkStatus, empty, if_neg nofun, if_pos held]; exact ⟨rfl, rfl⟩
      · rw [linkStatus, empty, none, if_neg nofun, if_neg nofun]; exact ⟨rfl, rfl⟩
    obtain ⟨same, carried⟩ := both
    rw [run, carried, same]

end Sys2Proof.Machine
end

section
/-! SUPPORT. The configuration record as CONFIGURE reads, checks and clamps it, and the checks of a fetch request (O6, O52,
R151, R156, R170, R171). -/

namespace Sys2Proof.Machine

/-! ## Codes of the record (R170, 10.4) -/

theorem bytesNat_zero (payload : List Byte) (pos : Nat) : bytesNat payload pos 0 = 0 := by
  rw [bytesNat, List.take_zero]; rfl

theorem bytesNat_succ {payload : List Byte} {pos len : Nat} (inside : pos + len < payload.length) :
    bytesNat payload pos (len + 1) = bytesNat payload pos len * 256 + (payload.getD (pos + len) 0).toNat := by
  have byte : payload[pos + len]? = some (payload.getD (pos + len) 0) := by
    rw [List.getD_eq_getElem _ _ inside, List.getElem?_eq_getElem inside]
  rw [bytesNat, bytesNat, List.take_add_one, List.getElem?_drop, byte, List.foldl_append]
  rfl

/-- The byte that a field of one byte holds. -/
theorem ofNat_bytesNat_one (payload : List Byte) (pos : Nat) : BitVec.ofNat 8 (bytesNat payload pos 1) = payload.getD pos 0 := by
  rw [bytesNat, List.take_one, List.head?_drop, List.getD_eq_getElem?_getD]
  cases payload[pos]? <;> simp

theorem modeOf_isRing (code : Nat) : (modeOf code).getD .linear = .ring ↔ code = 1 := by
  rcases code with _ | _ | code
  · exact ⟨nofun, nofun⟩
  · exact ⟨fun _ => rfl, fun _ => rfl⟩
  · exact ⟨nofun, fun h => absurd h (by omega)⟩

theorem biasModeOf_isFixed (code : Nat) : (biasModeOf code).getD .auto = .fixed ↔ code = 1 := by
  rcases code with _ | _ | code
  · exact ⟨nofun, nofun⟩
  · exact ⟨fun _ => rfl, fun _ => rfl⟩
  · exact ⟨nofun, fun h => absurd h (by omega)⟩

theorem serviceOrderOf_isRotate (code : Nat) : (serviceOrderOf code).getD .fixed = .rotate ↔ code = 1 := by
  rcases code with _ | _ | code
  · exact ⟨nofun, nofun⟩
  · exact ⟨fun _ => rfl, fun _ => rfl⟩
  · exact ⟨nofun, fun h => absurd h (by omega)⟩

theorem biasModeOf_isSome (code : Nat) : (biasModeOf code).isSome = true ↔ code ≤ 1 := by
  rcases code with _ | _ | code
  · exact ⟨fun _ => Nat.zero_le 1, fun _ => rfl⟩
  · exact ⟨fun _ => le_rfl, fun _ => rfl⟩
  · exact ⟨nofun, fun h => absurd h (by omega)⟩

theorem serviceOrderOf_isSome (code : Nat) : (serviceOrderOf code).isSome = true ↔ code ≤ 1 := by
  rcases code with _ | _ | code
  · exact ⟨fun _ => Nat.zero_le 1, fun _ => rfl⟩
  · exact ⟨fun _ => le_rfl, fun _ => rfl⟩
  · exact ⟨nofun, fun h => absurd h (by omega)⟩

theorem axisOf_eq_some {code : Nat} (names : code ≤ 2) : axisOf code = some ([Axis.x, .y, .z].getD code .x) := by
  interval_cases code <;> rfl

theorem axisOf_eq_none {code : Nat} (beyond : 2 < code) : axisOf code = none := by
  obtain ⟨more, rfl⟩ := Nat.exists_eq_add_of_lt beyond
  rw [show 2 + more + 1 = more + 3 by omega]
  rfl

theorem axisOf_inj {a b : Nat} (ha : a ≤ 2) (hb : b ≤ 2) :
    [Axis.x, .y, .z].getD a .x = [Axis.x, .y, .z].getD b .x ↔ a = b := by
  interval_cases a <;> interval_cases b <;> decide

/-- An axis map byte that names two different axes (R28). -/
theorem parseAxisMap_eq_some {b : Nat} (yaw : b % 4 ≤ 2) (pitch : b / 8 % 4 ≤ 2) (differ : b % 4 ≠ b / 8 % 4) :
    parseAxisMap b = some ⟨[Axis.x, .y, .z].getD (b % 4) .x, decide (b / 4 % 2 = 1),
      [Axis.x, .y, .z].getD (b / 8 % 4) .x, decide (b / 32 % 2 = 1)⟩ := by
  rw [parseAxisMap, axisOf_eq_some yaw, axisOf_eq_some pitch]
  exact if_neg fun same => differ ((axisOf_inj yaw pitch).mp same)

theorem parseAxisMap_isSome (b : Nat) :
    (parseAxisMap b).isSome = true ↔ b % 4 ≤ 2 ∧ b / 8 % 4 ≤ 2 ∧ b % 4 ≠ b / 8 % 4 := by
  constructor
  · intro named
    by_cases yaw : b % 4 ≤ 2
    · by_cases pitch : b / 8 % 4 ≤ 2
      · refine ⟨yaw, pitch, fun same => ?_⟩
        rw [parseAxisMap, axisOf_eq_some yaw, axisOf_eq_some pitch] at named
        dsimp only at named
        rw [if_pos (by rw [same])] at named
        exact absurd named nofun
      · rw [parseAxisMap, axisOf_eq_none (not_le.mp pitch)] at named
        revert named
        cases axisOf (b % 4) <;> exact nofun
    · rw [parseAxisMap, axisOf_eq_none (not_le.mp yaw)] at named
      exact absurd named nofun
  · rintro ⟨yaw, pitch, differ⟩
    rw [parseAxisMap_eq_some yaw pitch differ]
    rfl

/-! ## The refuse fields (R170) -/

/-- What R170 asks of a refuse field of the record whose numbers `n` gives by byte and length. -/
def fieldAdmits (n : Nat → Nat → Nat) : Nat → Prop
  | 1 => 320 ≤ n 0 2 ∧ n 0 2 ≤ 1280 ∧ n 0 2 % 16 = 0
  | 2 => 240 ≤ n 2 2 ∧ n 2 2 ≤ 960 ∧ n 2 2 % 8 = 0
  | 3 => n 4 1 ≤ 128 ∧ n 4 1 % 4 = 0 ∧ 2 * n 4 1 + 128 ≤ n 2 2
  | 4 => 256 ≤ n 5 2 ∧ n 5 2 ≤ 16383
  | 5 => n 7 1 = 0 ∨ (n 7 1 = 1 ∧ 1266 ≤ n 5 2 ∧ (20736000 + n 5 2 - 1) / n 5 2 % 2 = 0)
  | 6 => n 7 1 = 1 ∨ (n 0 2 + 128 ≤ n 8 2 ∧ n 8 2 ≤ 16384 ∧ n 8 2 % 16 = 0)
  | 7 => n 10 2 ∈ [250, 500, 1000, 2000]
  | 8 => n 12 1 ∈ [1, 4, 16, 64]
  | 9 => n 13 2 ≤ 4095 ∧ 6000 ≤ n 12 1 * (n 13 2 + 1) ∧ n 12 1 * (n 13 2 + 1) ≤ 96000
  | 10 => n 15 1 % 4 ≤ 2 ∧ n 15 1 / 8 % 4 ≤ 2 ∧ n 15 1 % 4 ≠ n 15 1 / 8 % 4
  | 11 => n 16 1 ≤ 1
  | 14 => n 21 1 ∈ [8, 16, 32, 64]
  | 15 => n 22 1 ≤ 1
  | _ => True

theorem modeCheck_iff (code columnAngle : Nat) :
    (match modeOf code with
      | none => false
      | some .linear => true
      | some .ring => ringAllowed columnAngle) = true ↔
      code = 0 ∨ (code = 1 ∧ 1266 ≤ columnAngle ∧ (20736000 + columnAngle - 1) / columnAngle % 2 = 0) := by
  rcases code with _ | _ | code
  · exact ⟨fun _ => .inl rfl, fun _ => rfl⟩
  · refine (show ringAllowed columnAngle = true ↔ _ from decide_eq_true_iff).trans ?_
    omega
  · exact ⟨nofun, fun h => by omega⟩

theorem widthCheck_iff (code frameWidth canvasWidth : Nat) :
    (match modeOf code with
      | some .ring => true
      | _ => inSteps canvasWidth (frameWidth + 128) 16384 16) = true ↔
      code = 1 ∨ (frameWidth + 128 ≤ canvasWidth ∧ canvasWidth ≤ 16384 ∧ canvasWidth % 16 = 0) := by
  have steps : inSteps canvasWidth (frameWidth + 128) 16384 16 = true ↔
      frameWidth + 128 ≤ canvasWidth ∧ canvasWidth ≤ 16384 ∧ canvasWidth % 16 = 0 := decide_eq_true_iff
  rcases code with _ | _ | code
  · exact steps.trans ⟨.inr, fun h => h.resolve_left nofun⟩
  · exact ⟨fun _ => .inl rfl, fun _ => rfl⟩
  · exact steps.trans ⟨.inr, fun h => h.resolve_left (by omega)⟩

/-- Each check of the record is R170's for its field. -/
theorem refuseChecks_iff {payload : List Byte} {field : Nat} {ok : Bool}
    (mem : (field, ok) ∈ refuseChecks (parseConfiguration payload)) :
    ok = true ↔ fieldAdmits (bytesNat payload) field := by
  simp only [refuseChecks, List.mem_cons, List.not_mem_nil, or_false, Prod.mk.injEq] at mem
  rcases mem with ⟨rfl, rfl⟩ | ⟨rfl, rfl⟩ | ⟨rfl, rfl⟩ | ⟨rfl, rfl⟩ | ⟨rfl, rfl⟩ | ⟨rfl, rfl⟩ | ⟨rfl, rfl⟩ | ⟨rfl, rfl⟩ |
    ⟨rfl, rfl⟩ | ⟨rfl, rfl⟩ | ⟨rfl, rfl⟩ | ⟨rfl, rfl⟩ | ⟨rfl, rfl⟩
  · exact decide_eq_true_iff
  · exact decide_eq_true_iff
  · rw [Bool.and_eq_true, inSteps, decide_eq_true_iff, decide_eq_true_iff]
    exact ⟨fun ⟨⟨_, most, step⟩, rows⟩ => ⟨most, step, rows⟩, fun ⟨most, step, rows⟩ => ⟨⟨Nat.zero_le _, most, step⟩, rows⟩⟩
  · exact decide_eq_true_iff
  · exact modeCheck_iff ..
  · exact widthCheck_iff ..
  · exact List.contains_iff_mem
  · exact List.contains_iff_mem
  · exact decide_eq_true_iff
  · exact parseAxisMap_isSome _
  · exact biasModeOf_isSome _
  · exact List.contains_iff_mem
  · exact serviceOrderOf_isSome _

theorem firstRefused_of_pass {raw : RawConfiguration} (pass : ∀ check ∈ refuseChecks raw, check.2 = true) :
    firstRefused raw = none := by
  rw [firstRefused, List.find?_eq_none.mpr fun check mem => by rw [pass check mem]; exact nofun]
  rfl

theorem firstRefused_of_first {raw : RawConfiguration} {before after : List (Nat × Bool)} {field : Nat}
    (checks : refuseChecks raw = before ++ (field, false) :: after) (pass : ∀ check ∈ before, check.2 = true) :
    firstRefused raw = some field := by
  rw [firstRefused, checks, List.find?_append, List.find?_eq_none.mpr fun check mem => by rw [pass check mem]; exact nofun]
  rfl

/-! ## The clamp fields (R171) -/

theorem clampNat_eq {lo hi : Nat} (range : lo ≤ hi) (v : Nat) : clampNat v lo hi = max lo (min v hi) := by
  unfold clampNat; split
  · omega
  · split <;> omega

theorem clampNat_zero (v hi : Nat) : clampNat v 0 hi = min v hi := by
  rw [clampNat_eq (Nat.zero_le hi), Nat.zero_max]

theorem downTo_eq (step v : Nat) : downTo step v = v / step * step := by
  have := Nat.div_add_mod' v step
  rw [downTo]; omega

theorem clampConfiguration_eq {c : Configuration} (blend : c.blend ≤ 256) : clampConfiguration c = { c with
    motionLatency := min c.motionLatency 65535
    captureLatency := min c.captureLatency 1048575
    stillThreshold := max 1 (min c.stillThreshold 4096)
    motionWait := max 1 (min c.motionWait 16)
    searchRange := max 4 (min c.searchRange 32)
    minPatches := max 1 (min c.minPatches 8)
    sadLimit := max 256 (min c.sadLimit 65280)
    sadMargin := min c.sadMargin 4096
    textureThreshold := min c.textureThreshold 131071
    seamReach := max c.blend (min c.seamReach 256) / 4 * 4
    jumpLimit := min c.jumpLimit 64 / 4 * 4
    minOverlap := max 16 (min c.minOverlap 512)
    minAdvance := max 2 (min c.minAdvance 256) / 2 * 2
    closureTolerance := min c.closureTolerance 32
    sweepTimeLimit := max 24000000 (min c.sweepTimeLimit 1440000000)
    fetchWaitLimit := min c.fetchWaitLimit 24000000 } := by
  simp only [clampConfiguration, clampNat_zero, clampNat_eq blend, downTo_eq, clampNat_eq (show 1 ≤ 4096 by decide),
    clampNat_eq (show 1 ≤ 16 by decide), clampNat_eq (show 4 ≤ 32 by decide), clampNat_eq (show 1 ≤ 8 by decide),
    clampNat_eq (show 256 ≤ 65280 by decide), clampNat_eq (show 16 ≤ 512 by decide), clampNat_eq (show 2 ≤ 256 by decide),
    clampNat_eq (show 24000000 ≤ 1440000000 by decide)]

/-- Two lists differ at as many places as their pairs are apart. -/
theorem zip_filter_ne_length (l m : List Nat) : ((l.zip m).filter fun p => decide (p.1 ≠ p.2)).length =
    (List.zipWith (fun a b => decide (b ≠ a)) l m).countP id := by
  have pairs : List.zipWith (fun a b => decide (b ≠ a)) l m = (l.zip m).map fun p => decide (p.2 ≠ p.1) := by
    rw [List.zip, List.map_zipWith]
  rw [← List.countP_eq_length_filter, pairs, List.countP_map]
  exact List.countP_congr fun p _ => by simp only [Function.comp_apply, id_eq, decide_eq_true_eq]; exact ne_comm

/-- A clamped record is in the ranges of R170. -/
theorem clampConfiguration_clamped {c : Configuration} (blend : c.blend ≤ 256) (steps : c.blend % 4 = 0) :
    clampConfiguration (clampConfiguration c) = clampConfiguration c := by
  rw [clampConfiguration_eq blend, clampConfiguration_eq (by exact blend)]
  simp only [Configuration.mk.injEq, true_and, and_true]
  omega

/-! ## CONFIGURE (R170, R171) -/

theorem exec_configure_of_taken {s : State} {payload : List Byte} (tag : Byte) (taken : commandTaken s = true)
    (length : payload.length = 64) (state : s.sweep.state = .idle ∨ s.sweep.state = .done) :
    exec (.configure tag payload) s = .next (reply 1 tag (configureBody payload (takeSlot 1 tag s))) :=
  congrArg Host.Outcome.next (runCommand_of_taken taken length (by rw [idleOrDone_eq]; exact decide_eq_true state))

/-- Settles O6: `configureBody` by the first refused field, `refuseChecks_iff` for the checks, the codes of the record for its
fields, and `clampConfiguration_eq` for the clamped record. -/
theorem configureIsWholeOrNothing : Obligations.ConfigureIsWholeOrNothing := by
  refine ⟨fun s tag payload taken length state => ⟨fun n changed pass => ?_, fun before after field checks pass => ?_⟩,
    fun payload n numbers => ⟨rfl, fun field ok mem => ?_⟩, fun payload n values length numbers same => ?_,
    fun c d blend same => ?_⟩
  · rw [exec_configure_of_taken tag taken length state, configureBody, firstRefused_of_pass pass, ← changed]
    rfl
  · rw [exec_configure_of_taken tag taken length state, configureBody, firstRefused_of_first checks pass]
    rfl
  · have admits := refuseChecks_iff mem
    rw [← numbers] at admits
    refine ⟨?_, ?_, ?_, ?_, ?_, ?_, ?_, ?_, ?_, ?_, ?_, ?_, ?_⟩
    all_goals intro at_; subst at_; exact admits
  · subst numbers
    have nothing : values.fill = ⟨payload.getD 56 0, payload.getD 57 0, payload.getD 58 0⟩ := by
      rw [← ofNat_bytesNat_one payload 56, ← ofNat_bytesNat_one payload 57, ← ofNat_bytesNat_one payload 58, same]
      rfl
    subst same
    refine ⟨fun pos len => ⟨bytesNat_zero .., fun inside => bytesNat_succ (by omega)⟩, rfl, rfl, rfl, rfl, modeOf_isRing _,
      rfl, rfl, rfl, rfl, fun yaw pitch differ => ?_, biasModeOf_isFixed _, rfl, rfl, rfl, serviceOrderOf_isRotate _,
      rfl, rfl, rfl, rfl, rfl, rfl, rfl, rfl, rfl, rfl, rfl, rfl, rfl, rfl, rfl, rfl, nothing⟩
    show (parseAxisMap (bytesNat payload 15 1)).getD _ = _
    rw [parseAxisMap_eq_some yaw pitch differ]
    rfl
  · have sizes : c.blend = 8 ∨ c.blend = 16 ∨ c.blend = 32 ∨ c.blend = 64 := by simpa using blend
    have again : clampConfiguration d = d := by rw [same]; exact clampConfiguration_clamped (by omega) (by omega)
    rw [clampConfiguration_eq (by omega)] at same
    refine ⟨same, ?_, ?_⟩
    · rw [changedFields, zip_filter_ne_length]
      rfl
    · rw [same] at again ⊢
      dsimp only
      refine ⟨?_, ?_, ?_, ?_, ?_, ?_, ?_, ?_, ?_, ?_, ?_, ?_, ?_, ?_, ?_, ?_, ?_, ?_, ?_, ?_, ?_, ?_, ?_, ?_, ?_, ?_, ?_, ?_, again⟩
      all_goals omega

/-! ## The checks of a request (R151) -/

theorem itemLimit_canvas_ring {s : State} (ring : s.sweepCfg.mode = .ring) : itemLimit s .canvas =
    ((20736000 + s.sweepCfg.columnAngle - 1) / s.sweepCfg.columnAngle + 15) / 16 := by
  rw [itemLimit, groupCount, ring]
  rfl

/-- A column group is ready when all its columns are settled (R156). -/
theorem groupReady_iff (s : State) (g : Nat) : groupReady s g = true ↔ ∀ i, i < 16 → columnSettled s (16 * g + i) = true := by
  simp only [groupReady, List.all_eq_true, List.mem_range]

theorem columnSettled_linear {s : State} (state : s.sweep.state = .opened ∨ s.sweep.state = .draining)
    (linear : s.sweepCfg.mode = .linear) (x : Nat) : columnSettled s x = true ↔ (x : Int) < s.comp.settled := by
  rw [columnSettled]
  rcases state with h | h <;> rw [h, linear] <;> exact decide_eq_true_iff

theorem columnSettled_ring {s : State} (state : s.sweep.state = .opened ∨ s.sweep.state = .draining)
    (ring : s.sweepCfg.mode = .ring) (x : Nat) : columnSettled s x = true ↔
      ∃ clean, s.comp.clean = some clean ∧ clean ≤ x ∧ (x : Int) < s.comp.settled ∧ x < ringWidth s.sweepCfg := by
  rw [columnSettled]
  cases clean : s.comp.clean with
  | none =>
    refine ⟨fun h => ?_, fun ⟨_, h, _⟩ => absurd h nofun⟩
    rcases state with h' | h' <;> rw [h', ring] at h <;> exact absurd h Bool.false_ne_true
  | some g =>
    have holds : (∃ clean, some g = some clean ∧ clean ≤ (x : Int) ∧ (x : Int) < s.comp.settled ∧ x < ringWidth s.sweepCfg) ↔
        g ≤ (x : Int) ∧ (x : Int) < s.comp.settled ∧ x < ringWidth s.sweepCfg :=
      ⟨fun ⟨_, same, h⟩ => Option.some.inj same ▸ h, fun h => ⟨g, rfl, h⟩⟩
    rw [holds]
    rcases state with h | h <;> rw [h, ring] <;> exact decide_eq_true_iff

/-- Settles O52, by the order of the tests in `checkRequest` and by `groupReady_iff`. -/
theorem requestChecksAndGroupReadiness : Obligations.RequestChecksAndGroupReadiness := by
  refine ⟨fun s q => ⟨rfl, fun guide => ?_, fun sweep => ⟨fun none => ?_, fun some => ?_⟩, fun invalid => ?_⟩,
    fun s cfg same => ?_, fun s g => ⟨fun done => ?_, fun state linear => ?_, fun state ring => ?_⟩⟩
  · simp [checkRequest, guide, sweepKind]
  · have state : s.sweep.state = .idle ∨ s.sweep.state = .armed ∨ s.sweep.state = .test := by simpa using none
    simp [checkRequest, sweep, state]
  · have state : ¬(s.sweep.state = .idle ∨ s.sweep.state = .armed ∨ s.sweep.state = .test) := by simpa using some
    have kind : q.kind ≠ .guide ∧ q.kind ≠ .invalid := by constructor <;> rintro h <;> rw [h] at sweep <;> exact absurd sweep nofun
    have check : checkRequest s q false = if q.kind = .invalid ∨ q.count = 0 then Option.some .errorRange
        else if itemLimit s q.kind < q.first + q.count then Option.some .errorRange else Option.none := by
      rw [checkRequest, if_neg nofun, if_neg fun h => state h.2, if_neg kind.1]
    rw [check]
    refine ⟨fun zero => if_pos (.inr zero), fun beyond => ?_, fun items within => ?_⟩
    · rw [if_pos beyond, ite_self]
    · rw [if_neg (by simp [kind.2, items]), if_neg (by omega)]
  · simp [checkRequest, invalid, sweepKind]
  · subst same
    refine ⟨fun linear => ?_, itemLimit_canvas_ring, rfl, fun done => if_pos done, fun other => if_neg other⟩
    rw [itemLimit, groupCount, linear]
  · rw [groupReady_iff]
    intro i _
    rw [columnSettled, done]
  · simp only [groupReady_iff, columnSettled_linear state linear]
    exact ⟨fun all => by have := all 15 (by decide); push_cast at this; exact this, fun last i less => by push_cast; omega⟩
  · simp only [groupReady_iff, columnSettled_ring state ring]
    constructor
    · intro all
      obtain ⟨clean, present, least, -⟩ := all 0 (by decide)
      obtain ⟨-, -, -, settled, width⟩ := all 15 (by decide)
      push_cast at least settled
      exact ⟨clean, present, by omega, settled, width⟩
    · rintro ⟨clean, present, least, settled, width⟩ i less
      exact ⟨clean, present, by push_cast; omega, by push_cast; omega, by omega⟩

/-! ## The reset state -/

theorem poolSound_reset : poolSound State.reset :=
  (poolSound_iff _).mpr (pool_sound_of_discarded rfl (fun i => by rcases i with _ | _ | _ | _ | _ | _ | i <;> rfl)
    (fun _ => rfl) rfl rfl rfl rfl nofun)

/-- Settles O60: each value is that of `State.reset`, and its pool is sound by `poolSound_reset`. -/
theorem resetStateIsSound : Obligations.ResetStateIsSound := by
  refine ⟨rfl, poolSound_reset, rfl, nofun, ⟨Nat.zero_le _, Nat.zero_le _, Nat.zero_le _, fun _ => ⟨rfl, rfl⟩⟩, rfl, rfl, rfl, rfl,
    rfl, rfl, rfl, rfl, rfl, rfl, rfl, rfl, rfl, rfl, rfl, rfl, rfl, rfl, rfl, rfl, rfl, rfl, rfl, rfl, rfl, rfl, rfl, rfl,
    rfl, rfl, rfl, rfl, rfl, rfl, rfl, rfl, rfl, rfl, rfl, rfl, rfl, rfl, rfl, rfl, rfl, rfl, rfl, rfl, rfl, rfl, rfl, rfl,
    rfl, rfl, rfl, rfl, ?_, rfl, rfl, rfl, rfl, rfl, rfl, rfl, rfl, rfl, rfl, rfl, rfl, rfl, rfl, rfl, ?_⟩
  · intro r
    cases r <;> exact ⟨rfl, rfl, rfl, rfl⟩
  · exact fun slot mem => by rw [List.eq_of_mem_replicate mem]

end Sys2Proof.Machine
end

section
/-! SUPPORT. The canvas discard of ABORT and SELFTEST, with what they stop (O8, O11, O16, R17, R163, R179). -/

namespace Sys2Proof.Machine

/-! ## The canvas discard (R163) -/

/-- Settles O8, by `sideOf_discardFetch` and the cases of `sideOf_discardSide`. -/
theorem canvasDiscardAtTheFetchPort : Obligations.CanvasDiscardAtTheFetchPort := by
  rintro s r _ rfl
  obtain ⟨f, a, only⟩ := discardFetch_only s
  have bus : (discardFetch s).fetch.bus = s.fetch.bus := by simp [discardFetch]
  have side := (sideOf_discardFetch r s).trans (sideOf_discardSide r r s)
  rw [if_pos rfl] at side
  have held : (sideOf (discardFetch s).fetch r).held = staleHeld (sideOf s.fetch r).held := by
    rw [side]
    split
    · rfl
    · split
      · simp [endedSide]
      · rfl
  refine ⟨held, bus, by rw [only], by rw [only], by rw [only], fun x transfer => ?_⟩
  rw [transfer] at side
  dsimp only at side
  refine ⟨fun canvas goes => ?_, fun canvas ends => ?_, fun other => ?_⟩
  · rw [side, if_pos ⟨canvas, goes⟩]
    exact ⟨rfl, rfl⟩
  · rw [side, if_neg fun h => Bool.false_ne_true (h.2.symm.trans ends)]
    exact ⟨rfl, transfer, rfl⟩
  · rw [side, if_neg fun h => Bool.false_ne_true (other.symm.trans h.1)]
    exact ⟨rfl, transfer⟩

/-! ## The engine stopped (R130) -/

/-- What the stop of the whole engine leaves, the arbiter aside. -/
theorem engineStopped_eq (s : State) : ∃ a, compositorStop (engineHalt s) = { s with
    place := { s.place with state := .ready, work := none, saved := none }
    reg := { s.reg with state := .idle, openingHarvest := false }
    comp := { s.comp with
      state := .ready, job := none, waiting := none, pendingReanchor := none, todo := [], halted := false }
    arb := a } := by
  refine ⟨(compositorStop (engineHalt s)).arb, ?_⟩
  unfold compositorStop engineHalt dropEngine
  by_cases busy : inCompositing s.comp = true <;> simp [busy]

theorem engineStopped_ingestWait (s : State) : (compositorStop (engineHalt s)).arb.ingestWait = s.arb.ingestWait := by
  show (engineHalt s).arb.ingestWait = _
  rw [engineHalt_arb]
  split <;> rfl

theorem engineStopped_fetchBurst {s : State} {b : FetchRead} {data : List Byte} {live : Bool}
    (h : s.arb.inProgress = some (.fetch b data live)) :
    (compositorStop (engineHalt s)).arb.inProgress = some (.fetch b data live) :=
  dropEngine_fetchBurst .compositor (engineHalt_fetchBurst h)

/-! ## ABORT (R17) -/

/-- ABORT's values for every block but the fetch port, before the discard there (R17). -/
def abortedBlocks (s : State) : State :=
  let s1 := compositorStop (engineHalt (discardSlots s))
  { s1 with
    sweep := { s1.sweep with state := .idle, lastReason := .aborted, openPending := false, limitRunning := false }
    motion := stopMotion s1.motion
    reg := Registration.reset
    store := { s1.store with coverage := [], computed := [] } }

theorem abortSweep_eq (s : State) : abortSweep s = discardFetch (abortedBlocks s) := rfl

theorem discardSlots_eq (s : State) : ∃ a, discardSlots s = { s with
    sweep := { s.sweep with counters := { s.sweep.counters with
      discarded := holdCount (s.sweep.counters.discarded + occupiedSlots s.ingest.slots) } }
    ingest := { s.ingest with
      port := if s.ingest.port = .low then .low else .ignored
      slots := s.ingest.slots.map fun slot => { slot with state := .free }
      queue := [], lines := [] }
    arb := a } := by
  refine ⟨(discardSlots s).arb, ?_⟩
  rw [← discardSlots_port]
  rfl

/-- What ABORT leaves, field by field; the arbiter aside. -/
theorem abortedBlocks_eq (s : State) : ∃ a, abortedBlocks s = { s with
    sweep := { s.sweep with
      state := .idle, lastReason := .aborted, openPending := false, limitRunning := false
      counters := { s.sweep.counters with
        discarded := holdCount (s.sweep.counters.discarded + occupiedSlots s.ingest.slots) } }
    motion := stopMotion s.motion
    ingest := { s.ingest with
      port := if s.ingest.port = .low then .low else .ignored
      slots := s.ingest.slots.map fun slot => { slot with state := .free }
      queue := [], lines := [] }
    place := { s.place with state := .ready, work := none, saved := none }
    reg := Registration.reset
    comp := { s.comp with
      state := .ready, job := none, waiting := none, pendingReanchor := none, todo := [], halted := false }
    store := { s.store with coverage := [], computed := [] }
    arb := a } := by
  obtain ⟨b, discarded⟩ := discardSlots_eq s
  obtain ⟨a, stopped⟩ := engineStopped_eq (discardSlots s)
  refine ⟨a, ?_⟩
  rw [abortedBlocks, stopped, discarded]

theorem abortedBlocks_atRest (s : State) : AtRest (abortedBlocks s) := by
  have ingest : (abortedBlocks s).ingest.lines = [] := by obtain ⟨a, blocks⟩ := abortedBlocks_eq s; rw [blocks]
  exact ⟨ingest, rfl, rfl, engineStopped_ingestWait _, engineStopped_engineWait _⟩

/-- The discard at the fetch port by ABORT, once everything has settled (R163). -/
theorem canvasDiscarded_abortSweep (s : State) : canvasDiscarded s (settle false false (abortSweep s)) := by
  have fetch : (abortedBlocks s).fetch = s.fetch := by obtain ⟨a, blocks⟩ := abortedBlocks_eq s; rw [blocks]
  rw [abortSweep_eq]
  exact (settle_discardFetch (abortedBlocks s)).from fetch fun b data live h =>
    engineStopped_fetchBurst (freeLines_fetchBurst h)

theorem asksWithdrawn_abortSweep (s : State) : asksWithdrawn (settle false false (abortSweep s)).arb := by
  rw [abortSweep_eq]
  exact AtRest.asksWithdrawn_settle (discardSide_atRest .r1 (discardSide_atRest .r0 (abortedBlocks_atRest s)))

/-- What ABORT leaves once everything has settled; fetch port and arbiter aside. -/
theorem settle_abortSweep_eq (s : State) : ∃ f a r n, settle false false (abortSweep s) = { s with
    sweep := { s.sweep with
      state := .idle, lastReason := .aborted, openPending := false, limitRunning := false
      counters := { s.sweep.counters with
        discarded := holdCount (s.sweep.counters.discarded + occupiedSlots s.ingest.slots) } }
    motion := stopMotion s.motion
    ingest := { s.ingest with
      port := if s.ingest.port = .low then .low else .ignored
      slots := s.ingest.slots.map fun slot => { slot with state := .free }
      queue := [], lines := [] }
    place := { s.place with state := .ready, work := none, saved := none }
    reg := Registration.reset
    comp := { s.comp with
      state := .ready, job := none, waiting := none, pendingReanchor := none, todo := [], halted := false }
    store := { s.store with coverage := [], computed := [] }
    fetch := f, arb := a, freeIndex := n, selfTest := { s.selfTest with run := r } } := by
  obtain ⟨f, a, discarded⟩ := discardFetch_only (abortedBlocks s)
  obtain ⟨b, blocks⟩ := abortedBlocks_eq s
  rw [abortSweep_eq, discarded, blocks]
  exact settle_eq_of_idle _ _ _ rfl nofun

/-- ABORT's run in the states that it ends or leaves alone. -/
theorem exec_abort_of_taken {s : State} (tag : Byte) (taken : commandTaken s = true) : exec (.abort tag []) s =
    .next (reply 5 tag (ranDone (settle false false (abortBody (takeSlot 5 tag s))))) :=
  congrArg Host.Outcome.next (runCommand_of_taken taken List.length_nil rfl)

/-- Settles O11: ABORT's blocks are given by `settle_abortSweep_eq`, its fetch port by `canvasDiscarded_abortSweep`. -/
theorem abortByState : Obligations.AbortByState := by
  refine fun s tag taken => ⟨fun state => ?_, fun state => ?_⟩
  · have same : abortBody (takeSlot 5 tag s) = takeSlot 5 tag s := by
      unfold abortBody
      rcases state with h | h | h <;> rw [show (takeSlot 5 tag s).sweep.state = _ from h]
    have settled := settlesTo.link (answered s.ctl 5 tag .done 0 []) (settle_settlesTo false false (takeSlot 5 tag s))
    refine ⟨_, exec_abort_of_taken tag taken, ?_⟩
    rw [same, reply, ranDone, settle_ctl]
    exact settled
  · have run : exec (.abort tag []) s =
        .next (reply 5 tag (ranDone (settle false false (abortSweep (takeSlot 5 tag s))))) := by
      rw [exec_abort_of_taken tag taken, abortBody]
      rcases state with h | h | h | h <;> rw [show (takeSlot 5 tag s).sweep.state = _ from h]
    have asks := asksWithdrawn_abortSweep (takeSlot 5 tag s)
    have discarded := canvasDiscarded_abortSweep (takeSlot 5 tag s)
    obtain ⟨f, a, r, n, aborted⟩ := settle_abortSweep_eq (takeSlot 5 tag s)
    rw [aborted] at run asks discarded
    exact ⟨_, run, rfl, rfl, rfl, rfl, rfl, rfl, rfl, rfl, rfl, rfl, rfl, rfl, rfl, asks, discarded⟩

/-! ## SELFTEST (R179) -/

/-- SELFTEST's values for every block but the fetch port, with the tests begun, before the discard there (R179). -/
def testedBlocks (s : State) : State :=
  let s1 := freeLines (compositorStop (engineHalt s))
  startTests { s1 with
    sweep := { s1.sweep with state := .test }
    motion := selfTestMotion s1.motion
    reg := Registration.reset }

theorem discardSide_startTests (r : Requester) (s : State) :
    discardSide r (startTests s) = startTests (discardSide r s) := by
  unfold discardSide
  simp only [show (startTests s).fetch = s.fetch from rfl]
  cases (sideOf s.fetch r).transfer with
  | none => cases r <;> rfl
  | some x =>
    dsimp only
    by_cases canvas : sweepKind x.req.kind = true
    · rw [if_pos canvas, if_pos canvas]
      by_cases ends : endingOnBus s.fetch r (x.req.again && (sideOf s.fetch r).held.isNone) = true
      · rw [if_pos ends, if_pos ends]
        cases r <;> rfl
      · rw [if_neg ends, if_neg ends]
        cases r <;> rfl
    · rw [if_neg canvas, if_neg canvas]
      cases r <;> rfl

theorem beginSelftest_eq (s : State) : beginSelftest s = discardFetch (testedBlocks s) := by
  rw [discardFetch, testedBlocks, discardSide_startTests, discardSide_startTests]
  rfl

/-- What SELFTEST leaves, field by field; the arbiter aside. -/
theorem testedBlocks_eq (s : State) : ∃ a, testedBlocks s = { s with
    sweep := { s.sweep with state := .test }
    motion := selfTestMotion s.motion
    ingest := { s.ingest with lines := [] }
    place := { s.place with state := .ready, work := none, saved := none }
    reg := Registration.reset
    comp := { s.comp with
      state := .ready, job := none, waiting := none, pendingReanchor := none, todo := [], halted := false }
    selfTest := ⟨.running, some ⟨1, 0, 0, none⟩⟩
    arb := a } := by
  obtain ⟨a, stopped⟩ := engineStopped_eq s
  refine ⟨(testedBlocks s).arb, ?_⟩
  rw [testedBlocks, stopped]
  rfl

theorem testedBlocks_atRest (s : State) : AtRest (testedBlocks s) :=
  ⟨rfl, rfl, rfl, rfl, engineStopped_engineWait s⟩

/-- The discard at the fetch port by SELFTEST, once everything has settled (R163). -/
theorem canvasDiscarded_beginSelftest (s : State) : canvasDiscarded s (settle false false (beginSelftest s)) := by
  have fetch : (testedBlocks s).fetch = s.fetch := by obtain ⟨a, blocks⟩ := testedBlocks_eq s; rw [blocks]
  rw [beginSelftest_eq]
  exact (settle_discardFetch (testedBlocks s)).from fetch fun b data live h =>
    freeLines_fetchBurst (engineStopped_fetchBurst h)

theorem asksWithdrawn_beginSelftest (s : State) : asksWithdrawn (settle false false (beginSelftest s)).arb := by
  rw [beginSelftest_eq]
  exact AtRest.asksWithdrawn_settle (discardSide_atRest .r1 (discardSide_atRest .r0 (testedBlocks_atRest s)))

/-- What SELFTEST leaves once everything has settled; fetch port and arbiter aside. -/
theorem settle_beginSelftest_eq (s : State) : ∃ f a r n, settle false false (beginSelftest s) = { s with
    sweep := { s.sweep with state := .test }
    motion := selfTestMotion s.motion
    ingest := { s.ingest with lines := [] }
    place := { s.place with state := .ready, work := none, saved := none }
    reg := Registration.reset
    comp := { s.comp with
      state := .ready, job := none, waiting := none, pendingReanchor := none, todo := [], halted := false }
    fetch := f, arb := a, freeIndex := n, selfTest := ⟨.running, r⟩ } := by
  obtain ⟨f, a, discarded⟩ := discardFetch_only (testedBlocks s)
  obtain ⟨b, blocks⟩ := testedBlocks_eq s
  rw [beginSelftest_eq, discarded, blocks]
  exact settle_eq_of_idle _ _ _ rfl nofun

/-- Settles O16: SELFTEST's blocks are given by `settle_beginSelftest_eq`, its fetch port by
`canvasDiscarded_beginSelftest`. -/
theorem selftestBegins : Obligations.SelftestBegins := by
  intro s tag taken state
  have run : exec (.selftest tag []) s = .next (settle false false (beginSelftest (takeSlot 10 tag s))) := by
    have passes : refusedBy 0 idleOrDone [] s = none := by
      rw [refusedBy, idleOrDone_eq]
      simp [state]
    show execSelftest tag [] s = _
    rw [execSelftest, if_pos taken, passes]
  have asks := asksWithdrawn_beginSelftest (takeSlot 10 tag s)
  have discarded := canvasDiscarded_beginSelftest (takeSlot 10 tag s)
  obtain ⟨f, a, r, n, begun⟩ := settle_beginSelftest_eq (takeSlot 10 tag s)
  rw [begun] at run asks discarded
  exact ⟨_, run, rfl, rfl, rfl, rfl, rfl, rfl, asks, discarded, rfl, rfl, rfl, rfl, rfl, rfl, rfl, rfl⟩

end Sys2Proof.Machine
end

section
/-! SUPPORT. Bytes stored with their check data, the self-test client while everything settles, and the end and the bursts of the
tests (O4, R144, R179, R180). -/

namespace Sys2Proof.Machine

/-! ## Bytes stored (R144) -/

section StoreBytes

variable {st : CanvasStore} {addr : Nat} {bytes : List Byte}

theorem memRead_storeBytes_same (sound : memWf st.mem = true) {i : Nat} (inside : i < bytes.length) :
    memRead (storeBytes addr bytes st).mem (addr + i) = bytes.getD i 0 :=
  memRead_memWriteBytes_same bytes sound inside

theorem memRead_storeBytes_other (sound : memWf st.mem = true) {a : Nat} (outside : a < addr ∨ addr + bytes.length ≤ a) :
    memRead (storeBytes addr bytes st).mem a = memRead st.mem a :=
  memRead_memWriteBytes_other bytes sound outside

theorem mem_singleFlaws_rewriteWords {words : List Nat} {w : Nat} :
    w ∈ (rewriteWords words st).singleFlaws ↔ w ∈ st.singleFlaws ∧ w ∉ words := by
  simp [rewriteWords]

theorem mem_multiFlaws_rewriteWords {words : List Nat} {w : Nat} :
    w ∈ (rewriteWords words st).multiFlaws ↔ w ∈ st.multiFlaws ∧ w ∉ words := by
  simp [rewriteWords]

end StoreBytes

/-! ## The self-test client while everything settles -/

/-- From `s` to `t` the tests stay: no test fails, and a run that has ended or failed asks for no more. -/
structure TestsKept (s t : State) : Prop where
  state : t.sweep.state = s.sweep.state
  failed : t.selfTest.run.map SelfRun.failed = s.selfTest.run.map SelfRun.failed
  ended : (∀ r, s.selfTest.run = some r → r.failed.isSome = true) →
    t.selfTest = s.selfTest ∧ (s.arb.selfWait = none → t.arb.selfWait = none)

theorem TestsKept.of_same {s t : State} (state : t.sweep.state = s.sweep.state) (tests : t.selfTest = s.selfTest)
    (waits : s.arb.selfWait = none → t.arb.selfWait = none) : TestsKept s t :=
  ⟨state, by rw [tests], fun _ => ⟨tests, waits⟩⟩

theorem TestsKept.refl (s : State) : TestsKept s s := .of_same rfl rfl id

theorem TestsKept.trans {s t u : State} (h : TestsKept s t) (k : TestsKept t u) : TestsKept s u := by
  refine ⟨k.state.trans h.state, k.failed.trans h.failed, fun ended => ?_⟩
  obtain ⟨same, waits⟩ := h.ended ended
  obtain ⟨same', waits'⟩ := k.ended (same ▸ ended)
  exact ⟨same'.trans same, waits' ∘ waits⟩

theorem OnlyFetch.testsKept {s t : State} (only : OnlyFetch s t) (waits : t.arb.selfWait = s.arb.selfWait) :
    TestsKept s t := by
  obtain ⟨f, a, rfl⟩ := only
  exact .of_same rfl rfl fun none => waits.trans none

theorem ingestAsk_testsKept (s : State) : TestsKept s (ingestAsk s) := by
  unfold ingestAsk; repeat' split
  all_goals exact .of_same rfl rfl id

theorem engineAsk_testsKept (s : State) : TestsKept s (engineAsk s) := by
  unfold engineAsk; repeat' split
  all_goals exact .of_same rfl rfl id

theorem fetchAskNext_testsKept (s : State) : TestsKept s (fetchAskNext s) := by
  refine (fetchAskNext_only s).testsKept ?_
  unfold fetchAskNext; repeat' split
  · rfl
  · rw [fetchAsk_arb]
  · rw [fetchAsk_arb]
  · rfl

theorem nextTestBurst_failed (r : SelfRun) : (nextTestBurst r).failed = r.failed := by
  unfold nextTestBurst; repeat' split
  all_goals rfl

theorem selfAsk_testsKept (s : State) : TestsKept s (selfAsk s) := by
  unfold selfAsk
  split
  · exact .refl s
  · split
    · exact .refl s
    · rename_i r run
      split
      · exact .refl s
      · rename_i going
        refine ⟨rfl, ?_, fun ended => absurd (.inl (ended r run)) going⟩
        show (some (nextTestBurst r)).map SelfRun.failed = _
        rw [run, Option.map_some, Option.map_some, nextTestBurst_failed]

theorem askAll_testsKept (s : State) : TestsKept s (askAll s) :=
  (((ingestAsk_testsKept s).trans (engineAsk_testsKept _)).trans (fetchAskNext_testsKept _)).trans (selfAsk_testsKept _)

theorem grantClient_testsKept (c : Client) (s : State) : TestsKept s (grantClient c s) := by
  unfold grantClient
  split <;> split
  iterate 6 exact .of_same rfl rfl id
  · exact .of_same rfl rfl fun _ => rfl
  · exact .refl s

theorem grantWaiting_testsKept (s : State) : TestsKept s (grantWaiting s) := by
  unfold grantWaiting; repeat' split
  · exact .refl s
  · exact grantClient_testsKept ..
  · exact .refl s

theorem grantArrived_testsKept (s : State) : TestsKept s (grantArrived s) := by
  unfold grantArrived; repeat' split
  · exact .refl s
  · exact .refl s
  · exact grantClient_testsKept ..
  · exact (TestsKept.of_same (s := s) (t := { s with freeIndex := s.freeIndex + 2 }) rfl rfl id).trans (grantClient_testsKept ..)
  · exact .refl s

theorem takeBus_testsKept (r : Requester) (s : State) : TestsKept s (takeBus r s) :=
  (takeBus_only r s).testsKept (by rw [takeBus_arb])

theorem settleBus_testsKept (b : Bool) (s : State) : TestsKept s (settleBus b s) := by
  unfold settleBus; repeat' split
  · exact .refl s
  · exact .refl s
  · exact takeBus_testsKept ..
  · exact takeBus_testsKept ..
  · exact takeBus_testsKept ..
  all_goals
    exact (TestsKept.of_same (s := s) (t := { s with freeIndex := s.freeIndex + 1 }) rfl rfl id).trans (takeBus_testsKept ..)

theorem requestsStanding_testsKept (s : State) : TestsKept s (requestsStanding s) := by
  obtain ⟨jobs, todo, prepared⟩ : ∃ job todo, prepareStrip s = { s with comp := { s.comp with job := job, todo := todo } } := by
    unfold prepareStrip; repeat' split
    all_goals exact ⟨_, _, rfl⟩
  rw [requestsStanding, engineWithdraw_eq, prepared]
  exact .of_same rfl rfl id

theorem settle_testsKept (b m : Bool) (s : State) : TestsKept s (settle b m s) := by
  have tail (x : State) : TestsKept x (askAll (grantArrived (askAll (settleBus b x)))) :=
    (((settleBus_testsKept b x).trans (askAll_testsKept _)).trans (grantArrived_testsKept _)).trans (askAll_testsKept _)
  cases m
  · exact (requestsStanding_testsKept s).trans (tail _)
  · exact ((requestsStanding_testsKept s).trans (grantWaiting_testsKept _)).trans (tail _)

/-! ## The end of the tests (R179, R180) -/

theorem outcomeAllowed_iff (s : State) (r : SelfRun) (outcome : Nat) : outcomeAllowed s r outcome = true ↔
    r.failed = some outcome ∨
      (r.failed = none ∧ 3 ≤ r.test ∧ selfOutstanding s.arb = false ∧ (outcome = 0 ∨ (3 ≤ outcome ∧ outcome ≤ 6))) := by
  rw [outcomeAllowed]
  cases failed : r.failed with
  | some test =>
    simp only [decide_eq_true_eq, Option.some.injEq, reduceCtorEq, false_and, or_false]
    exact eq_comm
  | none =>
    have verdict : outcome = unitVerdict outcome s.store ↔ outcome = 0 ∨ (3 ≤ outcome ∧ outcome ≤ 6) := by
      rw [unitVerdict_eq]; split <;> omega
    simp [verdict, and_assoc]

theorem clearedStore_eq (store : CanvasStore) : ({ clearAllFlags (setAllFlags store) with coverage := [], computed := [] } : CanvasStore) =
    { store with coverage := [], computed := [] } := by
  unfold clearAllFlags setAllFlags
  generalize List.range coverageFlags = coverage
  generalize List.range computedFlags = computed
  rfl

/-- What the end of the tests leaves (R179, R180). -/
theorem endTests_eq (outcome : Nat) (s : State) : endTests outcome s = { dropSelf s with
    sweep := { s.sweep with state := .idle }
    motion := if outcome = 0 ∨ 4 ≤ outcome then { s.motion with integ := Integrator.zero, ring := [] } else s.motion
    reg := if outcome = 0 ∨ 5 ≤ outcome then { s.reg with lead := [], opening := [] } else s.reg
    store := { s.store with coverage := [], computed := [] }
    selfTest := ⟨if outcome = 0 then .passed else .failed outcome, none⟩
    attn := if outcome = 0 then s.attn else { s.attn with pendingSet := s.attn.pendingSet ||| 1 }
    ctl := completed s.ctl (natBytes 1 outcome) } := by
  have store : ({ (testTraces outcome (dropSelf s)).store with coverage := [], computed := [] } : CanvasStore) =
      { s.store with coverage := [], computed := [] } := by
    rw [testTraces]
    dsimp only
    split
    · exact clearedStore_eq s.store
    · rfl
  have ran (test : Nat) {α : Type} (a b : α) : (if testRan test outcome = true then a else b) =
      if outcome = 0 ∨ test ≤ outcome then a else b := if_congr decide_eq_true_iff rfl rfl
  have traces : testTraces outcome (dropSelf s) = { dropSelf s with
      store := (testTraces outcome (dropSelf s)).store
      motion := if outcome = 0 ∨ 4 ≤ outcome then { s.motion with integ := Integrator.zero, ring := [] } else s.motion
      reg := if outcome = 0 ∨ 5 ≤ outcome then { s.reg with lead := [], opening := [] } else s.reg } := by
    rw [← ran, ← ran]
    rfl
  rw [endTests, finishCommand_eq]
  by_cases passed : outcome = 0
  · rw [if_pos passed, if_pos passed, if_pos passed]
    dsimp only
    rw [store, traces]
    rfl
  · rw [if_neg passed, if_neg passed, if_neg passed]
    dsimp only [raiseCause]
    rw [store, traces]
    rfl

/-! ## A burst of the memory tests (R180) -/

theorem testBytes_length (b : SelfBurst) : (testBytes b).length = 64 := by
  rw [testBytes, List.length_map, List.length_range]

theorem testBytes_getD (b : SelfBurst) {i : Nat} (inside : i < 64) :
    (testBytes b).getD i 0 = testValue b.pass (b.offset + i) := by
  rw [List.getD_eq_getElem _ _ (by rw [testBytes_length]; exact inside)]
  simp only [testBytes, List.getElem_map, List.getElem_range]

theorem memBytes_eq_testBytes_iff (mem : List Host.Cell) (b : SelfBurst) :
    memBytes mem (testAddress b) 64 = testBytes b ↔
      ∀ i, i < 64 → memRead mem (testAddress b + i) = testValue b.pass (b.offset + i) := by
  rw [memBytes, testBytes, List.map_inj_left]
  simp only [List.mem_range]

theorem readBackFails_iff (b : SelfBurst) (e : MemErrors) (store : CanvasStore) : readBackFails b e store = true ↔
    (∃ i, i < 64 ∧ memRead store.mem (testAddress b + i) ≠ testValue b.pass (b.offset + i)) ∨
      ∃ w ∈ touchedWords (testAddress b) 64, w ∈ e.differs ∨ wordFails store e w := by
  have bad : (!(badWords (touchedWords (testAddress b) 64) e store).isEmpty) = true ↔
      ∃ w ∈ touchedWords (testAddress b) 64, wordFails store e w := by
    rw [Bool.not_eq_true', ← Bool.not_eq_true, badWords_isEmpty_iff]
    push Not
    rfl
  rw [readBackFails, Bool.or_eq_true, Bool.or_eq_true, bad, decide_eq_true_iff, ne_eq, memBytes_eq_testBytes_iff, List.any_eq_true,
    or_assoc]
  push Not
  simp only [List.contains_iff_mem, and_or_left, exists_or]

theorem completeSelf_only (b : SelfBurst) (live : Bool) (e : MemErrors) (s : State) :
    ∃ store arb run, completeSelf b live e s =
      { s with store := store, arb := arb, selfTest := { s.selfTest with run := run } } := by
  unfold completeSelf
  dsimp only
  repeat' split
  all_goals exact ⟨_, _, _, rfl⟩

/-- A burst of the memory tests touches the store and the tests alone, once everything has settled. -/
theorem settle_completeSelf_rest (b : SelfBurst) (live : Bool) (e : MemErrors) (s : State) (t : State)
    (settled : t = settle false true (completeSelf b live e (memoryFreed s))) :
    restAs { s with store := t.store, selfTest := t.selfTest } t ∧ t.selfTest.result = s.selfTest.result := by
  obtain ⟨store, arb, run, only⟩ := completeSelf_only b live e (memoryFreed s)
  obtain ⟨⟨same, lines, job, todo⟩, -⟩ := settle_settlesTo false true (completeSelf b live e (memoryFreed s))
  rw [← settled, only] at same
  rw [← settled, only] at lines job todo
  have store' : t.store = store := by rw [same]
  have result : t.selfTest.result = s.selfTest.result := by rw [same]; rfl
  refine ⟨⟨?_, lines, job, todo⟩, result⟩
  have tests : t.selfTest = ⟨s.selfTest.result, t.selfTest.run⟩ := by rw [← result]
  conv_lhs => rw [same]
  rw [store', tests]
  rfl

theorem exec_selftestComplete {s : State} {r : SelfRun} (outcome : Nat) (state : s.sweep.state = .test)
    (run : s.selfTest.run = some r) : exec (.selftestComplete outcome) s =
      .next (if outcomeAllowed s r outcome = true then settle false false (endTests outcome s) else s) := by
  show execSelftestComplete outcome s = _
  rw [execSelftestComplete, state, run]

theorem movable_selfTest (b : SelfBurst) (live : Bool) (move : EngineMove) (s : State) :
    Movable (.selfTest b live) move s := nofun

/-- A burst of the memory tests completes (R180). -/
theorem exec_burst_selfTest {s : State} {b : SelfBurst} {live : Bool} (inProgress : s.arb.inProgress = some (.selfTest b live))
    (move : EngineMove) (e : MemErrors) : exec (.memoryBurstComplete move e) s =
      .next (settle false true (completeSelf b live e (memoryFreed s))) :=
  by
  rw [exec_burst_of_movable inProgress (movable_selfTest b live move s)]
  rfl

theorem storeBytes_eq (addr : Nat) (bytes : List Byte) (st : CanvasStore) : storeBytes addr bytes st = { st with
    mem := (storeBytes addr bytes st).mem
    singleFlaws := (storeBytes addr bytes st).singleFlaws
    multiFlaws := (storeBytes addr bytes st).multiFlaws } := rfl

section Burst

variable {s t : State} {b : SelfBurst} {live : Bool} {e : MemErrors} {words : List Nat}
  (settled : t = settle false true (completeSelf b live e (memoryFreed s)))
  (touched : words = touchedWords (testAddress b) 64)
include settled touched

/-- A burst of the memory tests that writes stores its value with new check data, and no test fails. -/
theorem selfBurst_writes (sound : memorySound s) (writes : b.pass % 2 = 0) :
    t.store = { s.store with
      mem := t.store.mem, singleFlaws := t.store.singleFlaws, multiFlaws := t.store.multiFlaws } ∧
    (∀ i, i < 64 → memRead t.store.mem (testAddress b + i) = testValue b.pass (b.offset + i)) ∧
    (∀ a, (a < testAddress b ∨ testAddress b + 64 ≤ a) → memRead t.store.mem a = memRead s.store.mem a) ∧
    (∀ w, w ∈ t.store.singleFlaws ↔ w ∈ s.store.singleFlaws ∧ w ∉ words) ∧
    (∀ w, w ∈ t.store.multiFlaws ↔ w ∈ s.store.multiFlaws ∧ w ∉ words) ∧
    t.selfTest.run.map SelfRun.failed = s.selfTest.run.map SelfRun.failed := by
  obtain ⟨bytes, same⟩ : ∃ bytes, bytes = testBytes b := ⟨_, rfl⟩
  have length : bytes.length = 64 := by rw [same, testBytes_length]
  have done : completeSelf b live e (memoryFreed s) =
      { memoryFreed s with store := storeBytes (testAddress b) bytes s.store } := by
    rw [same]; exact if_pos writes
  rw [done] at settled
  have store : t.store = storeBytes (testAddress b) bytes s.store := by rw [settled, settle_store]
  have kept : t.selfTest.run.map SelfRun.failed = s.selfTest.run.map SelfRun.failed := by
    rw [settled]; exact (settle_testsKept ..).failed
  rw [store, touched, ← length]
  refine ⟨storeBytes_eq .., fun i inside => ?_, fun a outside => ?_, fun w => ?_, fun w => ?_, kept⟩
  · rw [memRead_storeBytes_same sound inside, same, testBytes_getD b (by rw [← length]; exact inside)]
  · exact memRead_storeBytes_other sound outside
  · exact mem_singleFlaws_rewriteWords
  · exact mem_multiFlaws_rewriteWords

/-- A burst of the memory tests that reads back checks its words, and fails its test exactly where `readBackFails_iff` says. -/
theorem selfBurst_reads (reads : b.pass % 2 = 1) :
    t.store = (checkWords words e s).store ∧
    ((live = true ∧ ((∃ i, i < 64 ∧ memRead s.store.mem (testAddress b + i) ≠ testValue b.pass (b.offset + i)) ∨
        ∃ w ∈ words, w ∈ e.differs ∨ wordFails s.store e w)) →
      t.selfTest.run = s.selfTest.run.map (fun r => { r with failed := some b.test }) ∧ t.arb.selfWait = none) ∧
    (¬(live = true ∧ ((∃ i, i < 64 ∧ memRead s.store.mem (testAddress b + i) ≠ testValue b.pass (b.offset + i)) ∨
        ∃ w ∈ words, w ∈ e.differs ∨ wordFails s.store e w)) →
      t.selfTest.run.map SelfRun.failed = s.selfTest.run.map SelfRun.failed) := by
  have fails : (live && readBackFails b e s.store) = true ↔ live = true ∧
      ((∃ i, i < 64 ∧ memRead s.store.mem (testAddress b + i) ≠ testValue b.pass (b.offset + i)) ∨
        ∃ w ∈ words, w ∈ e.differs ∨ wordFails s.store e w) := by
    rw [Bool.and_eq_true, readBackFails_iff, touched]
  have done : completeSelf b live e (memoryFreed s) =
      if (live && readBackFails b e s.store) = true then failTest b.test (checkWords words e (memoryFreed s))
      else checkWords words e (memoryFreed s) := by
    rw [touched]
    exact if_neg (by omega)
  have kept := settle_testsKept false true (completeSelf b live e (memoryFreed s))
  have store : t.store = (completeSelf b live e (memoryFreed s)).store := by rw [settled, settle_store]
  rw [← settled, done] at kept
  rw [done] at store
  rw [← fails]
  refine ⟨?_, fun failed => ?_, fun passed => ?_⟩
  · rw [store]
    split <;> rfl
  · rw [if_pos failed] at kept
    obtain ⟨tests, waits⟩ := kept.ended fun r run => by
      obtain ⟨r', -, rfl⟩ := Option.map_eq_some_iff.mp run
      rfl
    exact ⟨congrArg SelfTest.run tests, waits rfl⟩
  · rw [if_neg passed] at kept
    exact kept.failed

end Burst

/-- Settles O4: the end of the tests is `endTests_eq` where `outcomeAllowed_iff` lets it come, and a burst is
`selfBurst_writes` or `selfBurst_reads`. -/
theorem selfTestEnds : Obligations.SelfTestEnds := by
  refine ⟨fun s r outcome ends state run same => ⟨fun other => ?_, fun allowed => ?_⟩,
    fun s b live move e words sound inProgress touched => ?_⟩
  · rw [exec_selftestComplete outcome state run, if_neg (by rw [outcomeAllowed_iff, ← same]; exact other)]
  · have kept := settle_testsKept false false (endTests outcome s)
    rw [exec_selftestComplete outcome state run, if_pos (by rw [outcomeAllowed_iff, ← same]; exact allowed)]
    rw [endTests_eq] at kept ⊢
    exact ⟨_, rfl, congrArg SelfTest.run (kept.ended nofun).1, settle_settlesTo ..⟩
  · obtain ⟨rest, result⟩ := settle_completeSelf_rest b live e s _ rfl
    exact ⟨_, exec_burst_selfTest inProgress move e, rest, result, selfBurst_writes rfl touched sound,
      selfBurst_reads rfl touched⟩

end Sys2Proof.Machine
end

section
/-! SUPPORT. An abandon (R152), and O53 from it. -/

namespace Sys2Proof.Machine

/-! ## The message and the transfer it ends -/

section Abandon

variable {r : Requester} {m : BitVec 40} {s : State}

theorem exec_fetchAbandon (inactive : requestActive m = false) :
    exec (.fetchAbandon r m) s = .next (settle false false (messageArrives r m s)) :=
  congrArg Host.Outcome.next (if_neg (by rw [inactive]; exact Bool.false_ne_true))

theorem messageArrives_of_inactive (h : (sideOf s.fetch r).line = .shifting) (running : s.sweep.state ≠ .init)
    (inactive : requestActive m = false) : messageArrives r m s = abandonTransfer r (lineIdle r s) := by
  simp only [messageArrives, h, if_neg running, inactive, Bool.false_eq_true, if_false]
  rfl

/-- An expiry has ended the transfer: its ERROR NOT_SETTLED header waits for the bus or is on it (R152, R160). -/
theorem expiredTransfer_iff {f : FetchPort} : expiredTransfer f r = true ↔
    (∃ b, (sideOf f r).posted = some b ∧ b.status = .errorNotSettled) ∨
      ∃ b, f.bus = some b ∧ b.requester = r ∧ b.status = .errorNotSettled := by
  unfold expiredTransfer
  cases (sideOf f r).posted <;> cases f.bus <;> simp

theorem expiredTransfer_lineIdle : expiredTransfer (lineIdle r s).fetch r = expiredTransfer s.fetch r := by
  cases r <;> rfl

theorem endingOnBus_lineIdle (again : Bool) :
    endingOnBus (lineIdle r s).fetch r again = endingOnBus s.fetch r again := by
  simp only [endingOnBus, lineIdle, setSide_bus]

theorem abandonTransfer_of_none (none : (sideOf s.fetch r).transfer = none) : abandonTransfer r s = s := by
  simp only [abandonTransfer, none]

variable {x : Transfer}

theorem abandonTransfer_of_expired (expired : expiredTransfer s.fetch r = true) : abandonTransfer r s = s := by
  unfold abandonTransfer
  dsimp only
  split
  · rfl
  · exact if_pos expired

variable (transfer : (sideOf s.fetch r).transfer = some x) (going : expiredTransfer s.fetch r = false)
include transfer going

theorem abandonTransfer_of_ending (ending : endingOnBus s.fetch r x.req.again = true) :
    abandonTransfer r s = setSide r { sideOf s.fetch r with held := none } s := by
  simp only [abandonTransfer, transfer, going, ending, Bool.false_eq_true, if_false, if_true]

theorem abandonTransfer_of_running (running : endingOnBus s.fetch r x.req.again = false) :
    abandonTransfer r s = endWith r .abandoned (nextItem x) (setSide r { sideOf s.fetch r with held := none } s) := by
  simp only [abandonTransfer, transfer, going, running, Bool.false_eq_true, if_false]

end Abandon

/-! ## The statement -/

/-- What an ended transfer shows once everything has settled. -/
theorem settle_abandoned {s : State} (r : Requester) (x : Transfer) (t : State)
    (ended : t = settle false false
      (endWith r .abandoned (nextItem x) (setSide r { sideOf s.fetch r with held := none } s))) :
    restAs s t ∧ (sideOf t.fetch r).held = none ∧ (sideOf t.fetch r).waitStart = none ∧
      (sideOf t.fetch r).line = (sideOf s.fetch r).line ∧
      burstOf t.fetch r = some ⟨r, .abandoned, nextItem x, []⟩ := by
  subst ended
  have settled := settle_settlesTo false false
    (endWith r .abandoned (nextItem x) (setSide r { sideOf s.fetch r with held := none } s))
  obtain ⟨-, held, wait, -, line⟩ := settled.side r
  exact ⟨((setSide_only ..).trans (endWith_only ..)).rest.trans settled.1, held.trans (by simp [endedSide]),
    wait.trans (by simp [endedSide]), line.trans (by simp [endedSide]),
    settle_burst _ _ (by simp [endedSide]) rfl⟩

/-- Settles O53: the message reaches `abandonTransfer` with its line idle, by whether a transfer still goes on and whether
its ending burst is on the bus. -/
theorem abandonEndsTheTransfer : Obligations.AbandonEndsTheTransfer := by
  intro s r m inactive running shifting
  have ends : exec (.fetchAbandon r m) s = .next (settle false false (abandonTransfer r (lineIdle r s))) := by
    rw [exec_fetchAbandon inactive, messageArrives_of_inactive shifting running inactive]
  rw [ends]
  constructor
  · intro ended
    refine ⟨_, rfl, ?_⟩
    have ignored : abandonTransfer r (lineIdle r s) = lineIdle r s := by
      rcases ended with none | expired
      · exact abandonTransfer_of_none (by rw [sideOf_lineIdle, none])
      · exact abandonTransfer_of_expired (expiredTransfer_lineIdle.trans (expiredTransfer_iff.mpr expired))
    rw [ignored]
    exact settle_settlesTo ..
  · intro x transfer notPosted notOnBus
    have going : expiredTransfer (lineIdle r s).fetch r = false := by
      rw [expiredTransfer_lineIdle, Bool.eq_false_iff, ne_eq, expiredTransfer_iff]
      rintro (⟨b, posted, status⟩ | ⟨b, bus, owner, status⟩)
      · exact notPosted b posted status
      · exact notOnBus b bus owner status
    have transfers : (sideOf (lineIdle r s).fetch r).transfer = some x := by rw [sideOf_lineIdle, transfer]
    refine ⟨fun ending => ⟨_, rfl, ?_⟩, fun still => ⟨_, rfl, ?_⟩⟩
    · rw [abandonTransfer_of_ending transfers going ((endingOnBus_lineIdle _).trans ending), sideOf_lineIdle]
      have same : setSide r { sideOf s.fetch r with line := .idle, held := none } (lineIdle r s) =
          setSide r { sideOf s.fetch r with line := .idle, held := none } s := by
        cases r <;> rfl
      rw [← same]
      exact settle_settlesTo ..
    · rw [abandonTransfer_of_running transfers going ((endingOnBus_lineIdle _).trans still)]
      obtain ⟨rest, held, wait, line, burst⟩ := settle_abandoned (s := lineIdle r s) r x _ rfl
      exact ⟨(setSide_only ..).rest.trans rest, held, wait, line.trans (by rw [sideOf_lineIdle]), burst⟩

end Sys2Proof.Machine
end

section
/-! SUPPORT. The return bus: a burst's bytes and pins, and what its completion leaves (R155, R161, R162), with O54 from
them. -/

namespace Sys2Proof.Machine

/-! ## A burst's bytes (R185) -/

/-- The fields of a burst before its data. -/
def burstFields (b : ReturnBurst) : List (Nat × Nat) :=
  [(1, requesterCode b.requester), (1, burstStatusCode b.status), (2, unsignedCode 2 b.item), (2, b.data.length), (1, 0),
    (1, 0)]

theorem burstBytes_eq (b : ReturnBurst) : burstBytes b = fieldBytes (burstFields b) ++ b.data := by
  have spare : ([0, 0] : List Byte) = natBytes 1 0 ++ natBytes 1 0 := rfl
  simp only [burstBytes, burstHeader, burstFields, unsignedField_eq, fieldBytes, List.flatMap_cons, List.flatMap_nil,
    List.append_nil, List.append_assoc, spare]

theorem burstField (b : ReturnBurst) (i : Nat) {pos n v : Nat} (hi : (burstFields b)[i]? = some (n, v))
    (start : (([1, 1, 2, 2, 1, 1] : List Nat).take i).sum = pos) : FieldAt (burstFields b) pos n v :=
  .of_index rfl i hi start

theorem burstFields_length (b : ReturnBurst) : (fieldBytes (burstFields b)).length = 8 := fieldBytes_length _

theorem burstBytes_length (b : ReturnBurst) : (burstBytes b).length = 8 + b.data.length := by
  rw [burstBytes_eq, List.length_append, burstFields_length]

theorem wordsOf_length : ∀ bytes : List Byte, (wordsOf bytes).length = (bytes.length + 1) / 2
  | [] => rfl
  | [_] => by simp [wordsOf]
  | a :: b :: rest => by
    rw [wordsOf, List.length_cons, wordsOf_length rest, List.length_cons, List.length_cons]
    omega

theorem toNat_word (a b : Byte) : ((a ++ b : Half)).toNat = a.toNat * 256 + b.toNat := by
  have low : b.toNat < 2 ^ 8 := b.isLt
  rw [show (a ++ b : Half).toNat = a.toNat <<< 8 ||| b.toNat from BitVec.toNat_append a b,
    ← Nat.shiftLeft_add_eq_or_of_lt low, Nat.shiftLeft_eq]

/-- A word of the bus carries two bytes, the earlier in the high half (R182). -/
theorem wordsOf_toNat : ∀ (bytes : List Byte) (i : Nat), 2 * i < bytes.length → ((wordsOf bytes).getD i 0).toNat =
    (bytes.getD (2 * i) 0).toNat * 256 + (bytes.getD (2 * i + 1) 0).toNat
  | [], _, inside => absurd inside (Nat.not_lt_zero _)
  | [a], i, inside => by
    obtain rfl : i = 0 := by have : 2 * i < 1 := inside; omega
    exact toNat_word a 0
  | a :: b :: rest, 0, _ => toNat_word a b
  | a :: b :: rest, i + 1, inside => by
    have tail : 2 * i < rest.length := by have : 2 * (i + 1) < rest.length + 1 + 1 := inside; omega
    have later := wordsOf_toNat rest i tail
    rwa [wordsOf, List.getD_cons_succ, show 2 * (i + 1) = 2 * i + 1 + 1 by omega, List.getD_cons_succ,
      List.getD_cons_succ, List.getD_cons_succ, List.getD_cons_succ]

/-- The bytes of a burst by position. -/
theorem burstBytes_shown (b : ReturnBurst) :
    (burstBytes b).getD 0 0 = (match b.requester with | .r0 => 0 | .r1 => 1) ∧
    (burstBytes b).getD 1 0 = (match b.status with
      | .data => 0 | .dataLast => 1 | .waiting => 2 | .errorRange => 3 | .errorNoSweep => 4 | .errorNotSettled => 5
      | .errorMemory => 6 | .abandoned => 7) ∧
    (b.item < 65536 → bytesNat (burstBytes b) 2 2 = b.item) ∧
    (b.data.length < 65536 → bytesNat (burstBytes b) 4 2 = b.data.length) ∧
    (burstBytes b).getD 6 0 = 0 ∧ (burstBytes b).getD 7 0 = 0 ∧
    ∀ i, (burstBytes b).getD (8 + i) 0 = b.data.getD i 0 := by
  rw [burstBytes_eq]
  refine ⟨?_, ?_, fun fits => ?_, fun fits => ?_, ?_, ?_, fun i => ?_⟩
  · rw [getD_field (pos := 0) _ (burstField b 0 rfl rfl)]
    cases b.requester <;> rfl
  · rw [getD_field (pos := 1) _ (burstField b 1 rfl rfl)]
    cases b.status <;> rfl
  · exact_mod_cast bytesNat_unsigned b.data (burstField b 2 rfl rfl) (Int.natCast_nonneg _) (by exact_mod_cast fits)
  · exact bytesNat_field_of_lt _ (burstField b 3 rfl rfl) fits
  · rw [getD_field (pos := 6) _ (burstField b 4 rfl rfl)]
    rfl
  · rw [getD_field (pos := 7) _ (burstField b 5 rfl rfl)]
    rfl
  · have behind : (fieldBytes (burstFields b)).length ≤ 8 + i := (burstFields_length b).le.trans (Nat.le_add_right ..)
    rw [List.getD_append_right _ _ _ _ behind, burstFields_length, Nat.add_sub_cancel_left]

theorem fdWords_of_bus {s : State} {b : ReturnBurst} (bus : s.fetch.bus = some b) :
    fdWords s = wordsOf (burstBytes b) := by
  rw [fdWords, bus]

/-- The pins while a burst is on the bus (R185). -/
theorem pins_of_bus {s : State} {b : ReturnBurst} (bus : s.fetch.bus = some b) :
    fvalidPin s = true ∧ fidPin s = some (match b.requester with | .r0 => 0 | .r1 => 1) ∧
      (fdWords s).length = 4 + (b.data.length + 1) / 2 ∧
      ∀ i, 2 * i < (burstBytes b).length → ((fdWords s).getD i 0).toNat =
        ((burstBytes b).getD (2 * i) 0).toNat * 256 + ((burstBytes b).getD (2 * i + 1) 0).toNat := by
  rw [fdWords_of_bus bus, wordsOf_length, burstBytes_length, fvalidPin, fidPin, bus]
  refine ⟨rfl, ?_, by omega, fun i inside => wordsOf_toNat _ i (by rwa [burstBytes_length])⟩
  rw [Option.map_some]
  cases b.requester <;> rfl

/-! ## What settles at a completion -/

/-- The state in which the bus takes a burst: a strip prepared, the reads planned, and at a memory burst's completion the
next one granted. -/
def beforeBus (m : Bool) (s : State) : State :=
  if m then grantWaiting (engineWithdraw (planReads (prepareStrip s))) else engineWithdraw (planReads (prepareStrip s))

theorem settle_eq (c m : Bool) (s : State) :
    settle c m s = askAll (grantArrived (askAll (settleBus c (beforeBus m s)))) := rfl

/-- Before the bus takes a burst the fetch port is as it was. -/
theorem beforeBus_fetch (m : Bool) (s : State) : (beforeBus m s).fetch = s.fetch := by
  have planned : (engineWithdraw (planReads (prepareStrip s))).fetch = s.fetch :=
    (engineWithdraw_fetch _).trans (prepareStrip_fetch s)
  cases m
  · exact planned
  · exact (grantWaiting_fetch _).trans planned

theorem beforeBus_config (m : Bool) (s : State) : (beforeBus m s).config = s.config := by
  have planned : OnlyPort s (engineWithdraw (planReads (prepareStrip s))) :=
    ((prepareStrip_only s).trans (planReads_only _)).trans (engineWithdraw_only _)
  have granted : OnlyPort s (beforeBus m s) := by
    cases m
    · exact planned
    · exact planned.trans (grantWaiting_only _)
  obtain ⟨_, _, _, _, _, _, _, same⟩ := granted
  rw [same]

/-- A part of the fetch port that asking for reads keeps is, once everything has settled, what the bus leaves. -/
theorem settle_port_part {α : Type} (part : FetchPort → α) (asked : ∀ u, part (askAll u).fetch = part u.fetch)
    (c m : Bool) (s : State) : part (settle c m s).fetch = part (settleBus c (beforeBus m s)).fetch := by
  rw [settle_eq, asked, grantArrived_fetch, asked]

section Settled

variable (c m : Bool) {r : Requester} {s : State}

theorem settle_phase_at (free : (sideOf s.fetch r).posted = none) :
    (sideOf (settle c m s).fetch r).phase = (sideOf s.fetch r).phase := by
  rw [settle_port_part (fun f => (sideOf f r).phase) (askAll_phase r), settleBus_phase, beforeBus_fetch]
  rwa [beforeBus_fetch]

/-- A part of the transfer that asking for bytes does not change is kept with no data burst posted. -/
theorem settle_part_at {α : Type} (part : Transfer → α) (hp : ∀ t, part (unasked t) = part t)
    (free : noDataPosted (sideOf s.fetch r)) :
    (sideOf (settle c m s).fetch r).transfer.map part = (sideOf s.fetch r).transfer.map part := by
  have parts : part ∘ unasked = part := funext hp
  have kept := congrArg (Option.map part)
    (settle_port_part (fun f => (sideOf f r).transfer.map unasked) (askAll_unasked r) c m s)
  rw [settleBus_transfer _ _ _ (by rwa [beforeBus_fetch]), beforeBus_fetch] at kept
  simpa only [Option.map_map, parts] using kept

theorem advanceTransfer_pass (cfg : Configuration) (t : Transfer) (len : Nat) :
    (advanceTransfer cfg t len).pass = t.pass := by
  unfold advanceTransfer; split <;> rfl

theorem takeBus_pass (q : Requester) (u : State) :
    (sideOf (takeBus q u).fetch r).transfer.map Transfer.pass = (sideOf u.fetch r).transfer.map Transfer.pass := by
  unfold takeBus
  dsimp only
  split
  · rfl
  · rename_i b _
    have advanced (x : Option Transfer) (n : Nat) :
        (x.map fun t => advanceTransfer u.sweepCfg t n).map Transfer.pass = x.map Transfer.pass := by
      cases x <;> simp [advanceTransfer_pass]
    show (sideOf (setSide q _ u).fetch r).transfer.map Transfer.pass = _
    rw [sideOf_setSide]
    split
    · subst q
      cases b.status
      case data => exact advanced ..
      case dataLast => exact advanced ..
      all_goals rfl
    · rfl

theorem settleBus_pass :
    (sideOf (settleBus c s).fetch r).transfer.map Transfer.pass = (sideOf s.fetch r).transfer.map Transfer.pass := by
  unfold settleBus; repeat' split
  · rfl
  · rfl
  · exact takeBus_pass ..
  · exact takeBus_pass ..
  · exact takeBus_pass ..
  all_goals exact takeBus_pass (r := r) _ { s with freeIndex := s.freeIndex + 1 }

/-- The number of the pass is kept whatever the bus takes. -/
theorem settle_pass :
    (sideOf (settle c m s).fetch r).transfer.map Transfer.pass = (sideOf s.fetch r).transfer.map Transfer.pass := by
  have asked (u : State) : (sideOf (askAll u).fetch r).transfer.map Transfer.pass =
      (sideOf u.fetch r).transfer.map Transfer.pass := by
    have kept := congrArg (Option.map Transfer.pass) (askAll_unasked r u)
    rwa [Option.map_map, Option.map_map, show Transfer.pass ∘ unasked = Transfer.pass from rfl] at kept
  rw [settle_port_part (fun f => (sideOf f r).transfer.map Transfer.pass) asked, settleBus_pass, beforeBus_fetch]

/-! ### A side that neither posts nor prepares -/

theorem takeBus_side (q : Requester) (free : (sideOf s.fetch r).posted = none) :
    sideOf (takeBus q s).fetch r = sideOf s.fetch r := by
  unfold takeBus
  dsimp only
  split
  · rfl
  · show sideOf (setSide q _ s).fetch r = _
    rw [sideOf_setSide, if_neg]
    rintro rfl
    simp_all

theorem settleBus_side (free : (sideOf s.fetch r).posted = none) :
    sideOf (settleBus c s).fetch r = sideOf s.fetch r := by
  unfold settleBus; repeat' split
  · rfl
  · rfl
  · exact takeBus_side _ free
  · exact takeBus_side _ free
  · exact takeBus_side _ free
  all_goals exact takeBus_side (s := { s with freeIndex := s.freeIndex + 1 }) _ free

theorem fetchWants_of_phase (still : (sideOf s.fetch r).phase ≠ .preparing) : fetchWants s r = none := by
  unfold fetchWants
  dsimp only
  split
  · rfl
  · exact if_neg fun h => still h.1

theorem fetchAskNext_side (still : (sideOf s.fetch r).phase ≠ .preparing) :
    sideOf (fetchAskNext s).fetch r = sideOf s.fetch r := by
  have ask (q : Requester) (b : FetchRead) (hb : fetchWants s q = some b) :
      sideOf (fetchAsk b s).fetch r = sideOf s.fetch r := by
    show sideOf (setSide b.requester _ s).fetch r = _
    rw [sideOf_setSide, if_neg]
    rintro rfl
    have none := fetchWants_of_phase still
    rw [fetchWants_requester hb, hb] at none
    cases none
  unfold fetchAskNext
  split
  · rfl
  · split
    · exact ask _ _ ‹_›
    · split
      · exact ask _ _ ‹_›
      · rfl

theorem askAll_side (still : (sideOf s.fetch r).phase ≠ .preparing) :
    sideOf (askAll s).fetch r = sideOf s.fetch r := by
  have same : (engineAsk (ingestAsk s)).fetch = s.fetch := (engineAsk_fetch _).trans (ingestAsk_fetch s)
  unfold askAll
  rw [selfAsk_fetch, fetchAskNext_side (by rwa [same]), same]

/-- A side with nothing posted and no burst in preparation stays as it is. -/
theorem settle_side_of_still (free : (sideOf s.fetch r).posted = none)
    (still : (sideOf s.fetch r).phase ≠ .preparing) :
    sideOf (settle c m s).fetch r = sideOf s.fetch r := by
  have bus : sideOf (settleBus c (beforeBus m s)).fetch r = sideOf s.fetch r := by
    rw [settleBus_side c (by rwa [beforeBus_fetch]), beforeBus_fetch]
  have asked : sideOf (askAll (settleBus c (beforeBus m s))).fetch r =
      sideOf s.fetch r := by
    rw [askAll_side (by rwa [bus]), bus]
  rw [settle_eq, askAll_side (by rwa [grantArrived_fetch, asked]), grantArrived_fetch, asked]

/-! ### The bus -/

theorem askAll_busTurn (u : State) : (askAll u).fetch.busTurn = u.fetch.busTurn := by
  have ask (b : FetchRead) (u : State) : (fetchAsk b u).fetch.busTurn = u.fetch.busTurn := by
    unfold fetchAsk; cases b.requester <;> rfl
  unfold askAll
  rw [selfAsk_fetch, ← ingestAsk_fetch u, ← engineAsk_fetch (ingestAsk u)]
  unfold fetchAskNext; repeat' split
  · rfl
  · exact ask ..
  · exact ask ..
  · rfl

/-- The burst on the bus and the bus turn mark are what the bus has taken. -/
theorem settle_bus (s : State) :
    (settle c m s).fetch.bus = (settleBus c (beforeBus m s)).fetch.bus ∧
      (settle c m s).fetch.busTurn =
        (settleBus c (beforeBus m s)).fetch.busTurn :=
  ⟨settle_port_part FetchPort.bus (fun u => (askAll_posts u).1) c m s, settle_port_part FetchPort.busTurn askAll_busTurn c m s⟩

theorem takeBus_of_posted {b : ReturnBurst} (posted : (sideOf s.fetch r).posted = some b) :
    (takeBus r s).fetch.bus = some b ∧ (takeBus r s).fetch.busTurn = r := by
  simp only [takeBus, posted, and_self]

/-- With one requester's burst posted the idle bus takes that one. -/
theorem settle_bus_of_one {b : ReturnBurst} (idle : s.fetch.bus = none) (posted : (sideOf s.fetch r).posted = some b)
    (other : (sideOf s.fetch (otherRequester r)).posted = none) :
    (settle c m s).fetch.bus = some b ∧ (settle c m s).fetch.busTurn = r := by
  obtain ⟨bus, turn⟩ := settle_bus c m s
  rw [bus, turn]
  rw [← beforeBus_fetch m s] at idle posted other
  generalize beforeBus m s = u at idle posted other
  have taken : settleBus c u = takeBus r u := by
    unfold settleBus
    cases r <;> simp_all [sideOf, otherRequester]
  rw [taken]
  exact takeBus_of_posted posted

/-- With both requesters' bursts posted the bus that a burst has left takes the one that the service order chooses. -/
theorem settle_bus_of_both {p0 p1 : ReturnBurst} (idle : s.fetch.bus = none) (posted0 : s.fetch.p0.posted = some p0)
    (posted1 : s.fetch.p1.posted = some p1) {q : Requester} (choice : busChoice s.config.serviceOrder s.fetch.busTurn = q)
    {b : ReturnBurst} (chosen : (sideOf s.fetch q).posted = some b) :
    (settle true m s).fetch.bus = some b ∧ (settle true m s).fetch.busTurn = q := by
  obtain ⟨bus, turn⟩ := settle_bus true m s
  rw [bus, turn]
  rw [← beforeBus_config m s] at choice
  rw [← beforeBus_fetch m s] at idle posted0 posted1 choice chosen
  generalize beforeBus m s = u at idle posted0 posted1 choice chosen
  have taken : settleBus true u = takeBus q u := by
    simp [settleBus, idle, posted0, posted1, choice]
  rw [taken]
  exact takeBus_of_posted chosen

end Settled

/-! ## The next burst is served (R153, R154) -/

section Served

variable {r : Requester} {s v : State} {y : Transfer}

theorem prepareBurst_pass : (sideOf (prepareBurst r y v).fetch r).transfer.map Transfer.pass = some y.pass := by
  unfold prepareBurst; split <;> simp [postData]

theorem serveNext_pass (held : (sideOf v.fetch r).transfer = some y) :
    (sideOf (serveNext r v).fetch r).transfer.map Transfer.pass = some y.pass := by
  unfold serveNext
  rw [held]
  dsimp only
  split
  · exact prepareBurst_pass
  · split
    · exact prepareBurst_pass
    · simp [startStall, held]
    · simp [endedSide, held]

theorem serveNext_of_tested (held : (sideOf v.fetch r).transfer = some y) (tested : y.tested = true) :
    serveNext r v = prepareBurst r y v := by
  simp [serveNext, held, tested]

/-- A burst prepared or copied, once everything has settled. -/
theorem settle_prepareBurst (c : Bool) (free : (sideOf v.fetch r).posted = none) (t : State)
    (ht : t = settle c false (prepareBurst r y v)) :
    (memoryKind y.req.kind = true →
      (sideOf t.fetch r).phase = .preparing ∧ (sideOf t.fetch r).transfer.map Transfer.item = some y.item ∧
      (sideOf t.fetch r).transfer.map Transfer.byte = some y.byte) ∧
    (y.req.kind = .guide → burstOf t.fetch r = some ⟨r, .dataLast, y.item, guideBytes v.comp.guide⟩) ∧
    (y.req.kind = .strips → burstOf t.fetch r =
      some ⟨r, dataStatus v.sweepCfg y (stripItem v y.item).length, y.item, stripItem v y.item⟩) := by
  subst ht
  refine ⟨fun kind => ?_, fun kind => ?_, fun kind => ?_⟩
  · have unposted : (sideOf (prepareBurst r y v).fetch r).posted = none := by
      rw [prepareBurst_of_memory kind, sideOf_setSide, if_pos rfl]
      exact free
    rw [settle_phase_at c false unposted, settle_part_at c false Transfer.item (fun _ => rfl) (noDataPosted_of_none unposted),
      settle_part_at c false Transfer.byte (fun _ => rfl) (noDataPosted_of_none unposted), prepareBurst_of_memory kind,
      sideOf_setSide, if_pos rfl]
    exact ⟨rfl, rfl, rfl⟩
  · rw [prepareBurst_of_guide kind]
    refine settle_burst _ _ ((postData_posted _).trans ?_) rfl
    simp [dataStatus, kind]
  · rw [prepareBurst_of_strips kind]
    exact settle_burst _ _ (postData_posted _) rfl

/-- A transfer served with nothing posted, once everything has settled. -/
theorem settle_serveNext (c : Bool) (port : OnlyPort s v) (held : (sideOf v.fetch r).transfer = some y)
    (free : (sideOf v.fetch r).posted = none) : servesNext s r y (settle c false (serveNext r v)) := by
  have settled := settle_settlesTo c false (serveNext r v)
  obtain ⟨req, -, wait, limit, -⟩ := settled.side r
  have test := testItem_of_onlyPort port r y
  have strip := stripItem_of_onlyPort port y.item
  obtain ⟨comp, cfg, clock, limits⟩ : v.comp.guide = s.comp.guide ∧ v.sweepCfg = s.sweepCfg ∧
      v.timeBase = s.timeBase ∧ v.config = s.config := by
    obtain ⟨_, _, _, _, _, _, _, rfl⟩ := port
    exact ⟨rfl, rfl, rfl, rfl⟩
  refine ⟨req.trans ((serveNext_side r v).2.trans (by rw [held]; rfl)), (settle_pass c false).trans (serveNext_pass held),
    fun ready => ?_, fun untested stall => ?_, fun untested range => ?_⟩
  · have served : serveNext r v = prepareBurst r y v := by
      rcases ready with tested | ready
      · exact serveNext_of_tested held tested
      · exact serveNext_of_ready held (test.trans ready)
    rw [← comp, ← strip, ← cfg]
    exact settle_prepareBurst c free _ (by rw [served])
  · rw [serveNext_of_stall held untested (test.trans stall)] at wait limit ⊢
    exact ⟨settle_burst _ _ (by simp [startStall]) rfl, wait.trans (by simp [startStall, clock]),
      limit.trans (by simp [startStall, limits])⟩
  · rw [serveNext_of_range held untested (test.trans range)]
    exact settle_burst _ _ (by rw [sideOf_endWith, if_pos rfl]; rfl) rfl

end Served

/-! ## The burst completes (R150, R159, R162) -/

/-- The bus is idle. -/
def busFreed (s : State) : State := { s with fetch := { s.fetch with bus := none } }

theorem sideOf_busFreed (r : Requester) (s : State) : sideOf (busFreed s).fetch r = sideOf s.fetch r := by
  cases r <;> rfl

theorem busFreed_port (s : State) : OnlyFetch s (busFreed s) := ⟨_, _, rfl⟩

theorem exec_returnBurstComplete {s : State} {b : ReturnBurst} (bus : s.fetch.bus = some b) :
    exec .returnBurstComplete s = .next (settle true false (afterBurst b (busFreed s))) := by
  have completed : completeBus s = afterBurst b (busFreed s) := by rw [completeBus, bus]; rfl
  show execReturnBurstComplete s = _
  rw [execReturnBurstComplete, if_pos (by rw [bus]; rfl), completed]

section AfterBurst

variable {b : ReturnBurst} {u : State} {x : Transfer}

section Free

variable {r : Requester} (owner : r = b.requester) (held : (sideOf u.fetch r).transfer = some x)
  (free : (sideOf u.fetch r).posted = none)
include owner held free

theorem afterBurst_of_ends (ends : endsTransfer b.status x.req.again = true ∨
    b.status = .dataLast ∧ (sideOf u.fetch r).held.isSome = true) : afterBurst b u = endTransfer r u := by
  subst owner
  unfold afterBurst
  dsimp only
  rw [held, free]
  cases status : b.status
  case dataLast =>
    show (if x.req.again = true ∧ (sideOf u.fetch b.requester).held.isNone = true then _ else _) = _
    refine if_neg fun ⟨again, alone⟩ => ?_
    rcases ends with ends | ⟨-, waits⟩
    · rw [status, again] at ends
      cases ends
    · rw [Option.isNone_iff_eq_none.mp alone] at waits
      cases waits
  all_goals simp_all [endsTransfer]

theorem afterBurst_of_again (status : b.status = .dataLast) (again : x.req.again = true)
    (alone : (sideOf u.fetch r).held = none) : afterBurst b u =
      serveNext r (setSide r { sideOf u.fetch r with
        transfer := some ⟨x.req, firstItem x.req, 0, [], 0, false, none, x.pass + 1⟩, phase := .preparing } u) := by
  subst owner
  simp [afterBurst, held, free, status, again, alone]

theorem afterBurst_of_data (status : b.status = .data) : afterBurst b u = serveNext r u := by
  subst owner
  simp [afterBurst, held, free, status]

variable (status : b.status = .waiting)
include status

theorem afterBurst_of_rangeAfter {item : Nat} (later : x.rangeAfter = some item) :
    afterBurst b u = endWith r .errorRange item u := by
  subst owner
  simp [afterBurst, held, free, status, later]

theorem afterBurst_of_stallEnded (plain : x.rangeAfter = none) (ended : (sideOf u.fetch r).waitStart = none) :
    afterBurst b u = serveNext r u := by
  subst owner
  simp [afterBurst, held, free, status, plain, ended]

theorem afterBurst_of_stalled (plain : x.rangeAfter = none) (stalled : (sideOf u.fetch r).waitStart ≠ none) :
    afterBurst b u = setSide r { sideOf u.fetch r with phase := .stalled } u := by
  subst owner
  simp [afterBurst, held, free, status, plain, Option.isSome_iff_ne_none, stalled]

end Free

/-- With a burst of its requester posted, one that ends no transfer at its completion leaves that posted. -/
theorem afterBurst_of_posted (status : b.status = .data ∨ b.status = .waiting ∨ b.status = .dataLast)
    (posted : (sideOf u.fetch b.requester).posted.isSome = true) :
    afterBurst b u = u ∨ afterBurst b u = setSide b.requester { sideOf u.fetch b.requester with phase := .posted } u := by
  unfold afterBurst
  dsimp only
  cases (sideOf u.fetch b.requester).transfer with
  | none => exact .inl rfl
  | some t => rcases status with h | h | h <;> rw [h] <;> exact .inr (if_pos posted)

end AfterBurst

/-! ### A transfer ends -/

section Ends

variable {r : Requester} {u : State}

theorem endTransfer_of_alone (alone : (sideOf u.fetch r).held = none) : endTransfer r u = setSide r
    { sideOf u.fetch r with transfer := none, phase := .preparing, waitStart := none, held := none } u := by
  simp [endTransfer, alone]

theorem endTransfer_of_held {q : FetchReq} {stale : Bool} (held : (sideOf u.fetch r).held = some (q, stale)) :
    endTransfer r u = takeRequest r q stale (setSide r
      { sideOf u.fetch r with transfer := none, phase := .preparing, waitStart := none, held := none } u) := by
  simp [endTransfer, held]

theorem serveNext_held : (sideOf (serveNext r u).fetch r).held = (sideOf u.fetch r).held := by
  have prepared (t : Transfer) : (sideOf (prepareBurst r t u).fetch r).held = (sideOf u.fetch r).held := by
    unfold prepareBurst; split <;> simp [postData]
  unfold serveNext
  split
  · rfl
  · split
    · exact prepared _
    · split
      · exact prepared _
      · simp [startStall]
      · simp [endedSide]

theorem takeRequest_held (q : FetchReq) (stale : Bool) :
    (sideOf (takeRequest r q stale u).fetch r).held = (sideOf u.fetch r).held := by
  unfold takeRequest
  dsimp only
  split
  · simp [endedSide]
  · rw [serveNext_held]; simp

/-- With no request held the requester is left without a transfer, and the bus takes the other's posted burst. -/
theorem settle_endTransfer_alone (idle : u.fetch.bus = none) (free : (sideOf u.fetch r).posted = none)
    (alone : (sideOf u.fetch r).held = none) (t : State) (ht : t = settle true false (endTransfer r u)) :
    (sideOf t.fetch r).transfer = none ∧ (sideOf t.fetch r).waitStart = none ∧
      ∀ next, (sideOf u.fetch (otherRequester r)).posted = some next →
        t.fetch.bus = some next ∧ t.fetch.busTurn = otherRequester r := by
  subst ht
  rw [endTransfer_of_alone alone]
  obtain ⟨req, -, wait, -⟩ := (settle_settlesTo true false (setSide r
    { sideOf u.fetch r with transfer := none, phase := .preparing, waitStart := none, held := none } u)).side r
  refine ⟨?_, wait.trans (by simp), fun next posted => settle_bus_of_one true false (by simpa using idle) ?_ ?_⟩
  · rwa [sideOf_setSide, if_pos rfl, Option.map_none, Option.map_eq_none_iff] at req
  · rw [sideOf_setSide, if_neg (by cases r <;> decide), posted]
  · rw [show otherRequester (otherRequester r) = r by cases r <;> rfl, sideOf_setSide, if_pos rfl, free]

/-- A held request is taken. -/
theorem settle_endTransfer_held {q : FetchReq} {stale : Bool} (held : (sideOf u.fetch r).held = some (q, stale))
    (c : Bool) : (sideOf (settle c false (endTransfer r u)).fetch r).held = none ∧
      (sideOf (settle c false (endTransfer r u)).fetch r).transfer.map Transfer.req = some q := by
  obtain ⟨req, kept, -⟩ := (settle_settlesTo c false (endTransfer r u)).side r
  rw [endTransfer_of_held held] at req kept ⊢
  exact ⟨kept.trans ((takeRequest_held ..).trans (by simp)), req.trans (takeRequest_req ..)⟩

end Ends

/-! ## The statement -/

/-- What a completed burst leaves at its requester, which has nothing else posted. -/
theorem settle_afterBurst {s : State} {b : ReturnBurst} {x : Transfer} {r : Requester} {p : PortSide}
    (owner : r = b.requester) (side : p = sideOf s.fetch r) (transfer : p.transfer = some x) (free : p.posted = none)
    (t : State) (ht : t = settle true false (afterBurst b (busFreed s))) :
    (endsTransfer b.status x.req.again = true → p.held = none →
      (sideOf t.fetch r).transfer = none ∧ (sideOf t.fetch r).waitStart = none ∧
      ∀ next, (sideOf s.fetch (otherRequester r)).posted = some next →
        t.fetch.bus = some next ∧ t.fetch.busTurn = otherRequester r) ∧
    ((endsTransfer b.status x.req.again = true ∨ b.status = .dataLast) → ∀ q stale, p.held = some (q, stale) →
      (sideOf t.fetch r).held = none ∧ (sideOf t.fetch r).transfer.map Transfer.req = some q) ∧
    (b.status = .dataLast → x.req.again = true → p.held = none →
      servesNext s r ⟨x.req, firstItem x.req, 0, [], 0, false, none, x.pass + 1⟩ t) ∧
    (b.status = .data → servesNext s r x t) ∧
    (b.status = .waiting →
      (∀ item, x.rangeAfter = some item → burstOf t.fetch r = some ⟨r, .errorRange, item, []⟩) ∧
      (x.rangeAfter = none → p.waitStart = none → servesNext s r x t) ∧
      (x.rangeAfter = none → p.waitStart ≠ none →
        (sideOf t.fetch r).phase = .stalled ∧ (sideOf t.fetch r).transfer = some x ∧
        (sideOf t.fetch r).waitStart = p.waitStart ∧ (sideOf t.fetch r).posted = none)) := by
  have freed : sideOf (busFreed s).fetch r = p := (sideOf_busFreed r s).trans side.symm
  rw [← sideOf_busFreed (otherRequester r)]
  have port : OnlyPort s (busFreed s) := (busFreed_port s).port
  rw [← freed] at transfer free ⊢
  subst ht
  refine ⟨fun ends alone => ?_, fun ends q stale held => ?_, fun status again alone => ?_, fun status => ?_,
    fun status => ⟨fun item later => ?_, fun plain ended => ?_, fun plain stalled => ?_⟩⟩
  · exact settle_endTransfer_alone rfl free alone _ (by rw [afterBurst_of_ends owner transfer free (.inl ends)])
  · rw [afterBurst_of_ends owner transfer free (ends.imp_right fun status => ⟨status, by rw [held]; rfl⟩)]
    exact settle_endTransfer_held held true
  · rw [afterBurst_of_again owner transfer free status again alone]
    exact settle_serveNext true (port.trans (setSide_only ..).port) (by rw [sideOf_setSide, if_pos rfl])
      (by rw [sideOf_setSide, if_pos rfl]; exact free)
  · rw [afterBurst_of_data owner transfer free status]
    exact settle_serveNext true port transfer free
  · rw [afterBurst_of_rangeAfter owner transfer free status later]
    exact settle_burst _ _ (by rw [sideOf_endWith, if_pos rfl]; rfl) rfl
  · rw [afterBurst_of_stallEnded owner transfer free status plain ended]
    exact settle_serveNext true port transfer free
  · rw [afterBurst_of_stalled owner transfer free status plain stalled, settle_side_of_still]
    · rw [sideOf_setSide, if_pos rfl]
      exact ⟨rfl, transfer, rfl, free⟩
    · rw [sideOf_setSide, if_pos rfl]
      exact free
    · rw [sideOf_setSide, if_pos rfl]
      exact nofun

/-- With both requesters' bursts posted, the bus takes the one that the service order chooses (R161). -/
theorem settle_afterBurst_both {s : State} {b p0 p1 : ReturnBurst}
    (status : b.status = .data ∨ b.status = .waiting ∨ b.status = .dataLast) (posted0 : s.fetch.p0.posted = some p0)
    (posted1 : s.fetch.p1.posted = some p1) {q : Requester} (choice : busChoice s.config.serviceOrder s.fetch.busTurn = q)
    {next : ReturnBurst} (chosen : (sideOf s.fetch q).posted = some next) (t : State)
    (ht : t = settle true false (afterBurst b (busFreed s))) : t.fetch.bus = some next ∧ t.fetch.busTurn = q := by
  subst ht
  have posted : (sideOf (busFreed s).fetch b.requester).posted.isSome = true := by
    rw [sideOf_busFreed]
    cases b.requester
    · exact congrArg Option.isSome posted0
    · exact congrArg Option.isSome posted1
  rcases afterBurst_of_posted status posted with same | same
  · rw [same]
    exact settle_bus_of_both false (s := busFreed s) rfl posted0 posted1 choice ((congrArg _ (sideOf_busFreed q s)).trans chosen)
  · have kept (o : Requester) : (sideOf (afterBurst b (busFreed s)).fetch o).posted = (sideOf s.fetch o).posted := by
      rw [same, sideOf_setSide, ← sideOf_busFreed o s]
      split
      · subst o; rfl
      · rfl
    refine settle_bus_of_both false (s := afterBurst b (busFreed s)) ?_ ((kept .r0).trans posted0) ((kept .r1).trans posted1) ?_
      ((kept q).trans chosen)
    · rw [same, setSide_bus]; rfl
    · rw [same, setSide_config, setSide_busTurn]; exact choice

/-- Settles O54: the bytes by `burstBytes_shown` and `pins_of_bus`, the completion by `settle_afterBurst`, and the bus's
choice by `settle_afterBurst_both`. -/
theorem returnBurstCompletes : Obligations.ReturnBurstCompletes := by
  refine ⟨?_, fun s idle => ?_, fun s b x r p bus owner side transfer free => ?_,
    fun s b p0 p1 bus status posted0 posted1 => ?_⟩
  · rintro b _ rfl
    obtain ⟨requester, code, item, length, spare6, spare7, data⟩ := burstBytes_shown b
    exact ⟨burstBytes_length b, requester, code, item, length, spare6, spare7, data, fun s bus => pins_of_bus bus⟩
  · simp [fvalidPin, fidPin, fdWords, idle]
  · rw [exec_returnBurstComplete bus]
    exact ⟨_, rfl, ((busFreed_port s).trans (afterBurst_only ..)).rest.trans (settle_settlesTo ..).1,
      settle_afterBurst owner side transfer free _ rfl⟩
  · rw [exec_returnBurstComplete bus]
    refine ⟨_, rfl, ((busFreed_port s).trans (afterBurst_only ..)).rest.trans (settle_settlesTo ..).1,
      fun first => ?_, fun rotate turn => ?_⟩
    · refine settle_afterBurst_both (q := .r1) status posted0 posted1 ?_ posted1 _ rfl
      rcases first with fixed | turn
      · rw [fixed]; rfl
      · rw [turn]; cases s.config.serviceOrder <;> rfl
    · exact settle_afterBurst_both (q := .r0) status posted0 posted1 (by rw [rotate, turn]; rfl) posted0 _ rfl

end Sys2Proof.Machine
end

section
/-! SUPPORT. A write burst of the ingest unit completes (R56, R144, R146), with O46 from it. -/

namespace Sys2Proof.Machine

section IngestBurst

variable {s : State} {b : IngestBurst} {live : Bool}

theorem exec_burst_ingest (inProgress : s.arb.inProgress = some (.ingest b live)) (move : EngineMove) (e : MemErrors) :
    exec (.memoryBurstComplete move e) s = .next (settle false true (completeIngest b live (memoryFreed s))) := by
  rw [exec_burst_of_movable inProgress (movable_ingest b live)]
  rfl

/-- The burst's bytes are stored. -/
def ingestStored (b : IngestBurst) (s : State) : State :=
  { memoryFreed s with store := storeBytes b.addr b.bytes s.store }

theorem ingestStored_only (b : IngestBurst) (s : State) :
    OnlyFetch { s with store := storeBytes b.addr b.bytes s.store } (ingestStored b s) := ⟨_, _, rfl⟩

theorem completeIngest_dropped : completeIngest b false (memoryFreed s) = ingestStored b s := rfl

theorem completeIngest_live : completeIngest b true (memoryFreed s) =
    if b.last = true then lineWritten (ingestStored b s) else ingestStored b s := rfl

theorem countLine_eq (l : BufferedLine) (slots : List Slot) : countLine l slots =
    slots.modify l.slot fun slot => { slot with info := { slot.info with
      linesWritten :=
        if slot.info.linesWritten = l.line then slot.info.linesWritten + 1 else slot.info.linesWritten } } := by
  refine congrArg (slots.modify l.slot ·) (funext fun slot => ?_)
  split <;> rfl

/-- The oldest line is written: its entry goes, and it counts if it is its slot's next. -/
theorem lineWritten_of_cons {l : BufferedLine} {rest : List BufferedLine} (lines : s.ingest.lines = l :: rest) :
    lineWritten s = { s with ingest := { s.ingest with
      lines := rest
      slots := s.ingest.slots.modify l.slot fun slot => { slot with info := { slot.info with
        linesWritten :=
          if slot.info.linesWritten = l.line then slot.info.linesWritten + 1 else slot.info.linesWritten } } } } := by
  simp only [lineWritten, lines, countLine_eq]

theorem completeIngest_store : (completeIngest b live (memoryFreed s)).store = storeBytes b.addr b.bytes s.store := by
  unfold completeIngest lineWritten
  dsimp only
  repeat' split
  all_goals rfl

/-- Beside the fetch port and the arbiter, a live burst changes the store, and with its line's last the line buffer and the
slot. -/
theorem completeIngest_rest {l : BufferedLine} {rest : List BufferedLine} (lines : s.ingest.lines = l :: rest) :
    OnlyFetch { s with
      store := storeBytes b.addr b.bytes s.store
      ingest := { s.ingest with
        lines := if b.last then rest else l :: rest
        slots :=
          if b.last then
            s.ingest.slots.modify l.slot fun slot => { slot with info := { slot.info with
              linesWritten :=
                if slot.info.linesWritten = l.line then slot.info.linesWritten + 1 else slot.info.linesWritten } }
          else s.ingest.slots } } (completeIngest b true (memoryFreed s)) := by
  rw [completeIngest_live]
  cases b.last with
  | true =>
    rw [if_pos rfl, lineWritten_of_cons (s := ingestStored b s) lines]
    exact ⟨_, _, rfl⟩
  | false =>
    simp only [Bool.false_eq_true, if_false, ← lines]
    exact ingestStored_only b s

end IngestBurst

/-- Settles O46: the bytes by the lemmas about `storeBytes`, the frame by `completeIngest_rest`. -/
theorem ingestBurstStoresItsBytes : Obligations.IngestBurstStoresItsBytes := by
  intro s b live move e sound inProgress
  have rest := (settle_settlesTo false true (completeIngest b live (memoryFreed s))).1
  have store : (settle false true (completeIngest b live (memoryFreed s))).store = storeBytes b.addr b.bytes s.store := by
    rw [settle_store, completeIngest_store]
  refine ⟨_, exec_burst_ingest inProgress move e, ?_⟩
  generalize settle false true (completeIngest b live (memoryFreed s)) = t at rest store
  rw [store]
  refine ⟨fun i inside => memRead_storeBytes_same sound inside, fun a outside => memRead_storeBytes_other sound outside,
    fun w => ⟨mem_singleFlaws_rewriteWords, mem_multiFlaws_rewriteWords⟩, storeBytes_eq .., fun dropped => ?_,
    fun l more begun lines => ?_⟩
  · subst dropped
    exact (ingestStored_only b s).rest.trans rest
  · subst begun
    exact (completeIngest_rest lines).rest.trans rest

end Sys2Proof.Machine
end

section
/-! SUPPORT. A fetch read: the bytes it takes at its grant and what its completion leaves (R138 to R140, R144 to R146,
R154), with O49 from them. -/

namespace Sys2Proof.Machine

/-! ## The bytes read (R139, R141) -/

section Bytes

variable {cfg : Configuration} {store : CanvasStore}

theorem fetchBytes_length (b : FetchRead) : (fetchBytes cfg store b).length = b.len := by simp [fetchBytes]

theorem fetchBytes_getD_canvas {b : FetchRead} {i : Nat} (inside : i < b.len) (kind : b.kind = .canvas) :
    (fetchBytes cfg store b).getD i 0 = groupByte cfg store b.item (b.offset + i) := by
  rw [List.getD_eq_getElem _ _ (by rw [fetchBytes_length]; exact inside)]
  simp only [fetchBytes, List.getElem_map, List.getElem_range, kind]

theorem fetchBytes_getD_preview {b : FetchRead} {i : Nat} (inside : i < b.len) (kind : b.kind = .preview) :
    (fetchBytes cfg store b).getD i 0 = previewByte cfg store b.item (b.offset + i) := by
  rw [List.getD_eq_getElem _ _ (by rw [fetchBytes_length]; exact inside)]
  simp only [fetchBytes, List.getElem_map, List.getElem_range, kind]

theorem flagSet_iff (flags : List Nat) (i : Nat) : flagSet flags i = true ↔ i ∈ flags := by simp [flagSet]

/-- A byte of a column group lies at its place in the canvas area (R134). -/
theorem cellAddress_of_group (group n : Nat) : cellAddress cfg (16 * group + n % 32 / 2) (n / 32) =
    canvasArea + group * (canvasHeight cfg * 32) + (n - n % 2) := by
  have column : (16 * group + n % 32 / 2) / 16 = group := by omega
  rw [cellAddress, column]
  omega

theorem previewAddress_of_byte (row n : Nat) :
    previewAddress cfg (n / 2) row = previewArea + row * previewWidth cfg * 2 + (n - n % 2) := by
  rw [previewAddress]
  omega

/-- The fill at a byte: Y at an even one, U at the odd one of an even column and V at that of an odd one (R140). -/
theorem fill_of_byte (fill : FillPixel) {n column : Nat} (parity : column % 2 = n / 2 % 2) :
    (if n % 2 = 0 then fill.y else fillChroma fill column) =
      if n % 2 = 0 then fill.y else if n % 4 = 1 then fill.u else fill.v := by
  unfold fillChroma
  split
  · rfl
  · have even : column % 2 = 0 ↔ n % 4 = 1 := by omega
    simp only [even]

section Group

variable {group n : Nat}

theorem groupByte_of_written
    (written : coverageIndex (bandOfRow cfg (n / 32)) (16 * group + n % 32 / 2) ∈ store.coverage) :
    groupByte cfg store group n = memRead store.mem (canvasArea + group * (canvasHeight cfg * 32) + n) := by
  simp only [groupByte, readCell, if_pos ((flagSet_iff ..).mpr written), cellAddress_of_group]
  split
  · congr 1; omega
  · congr 1; omega

theorem groupByte_of_unwritten
    (unwritten : coverageIndex (bandOfRow cfg (n / 32)) (16 * group + n % 32 / 2) ∉ store.coverage) :
    groupByte cfg store group n =
      if n % 2 = 0 then store.fill.y else if n % 4 = 1 then store.fill.u else store.fill.v := by
  simp only [groupByte, readCell, if_neg (fun set => unwritten ((flagSet_iff ..).mp set))]
  exact fill_of_byte store.fill (by omega)

end Group

section Preview

variable {row n : Nat}

theorem previewByte_of_computed (computed : n / 2 ∈ store.computed) : previewByte cfg store row n =
    memRead store.mem (previewArea + row * previewWidth cfg * 2 + n) := by
  simp only [previewByte, readPreview, if_pos ((flagSet_iff ..).mpr computed), previewAddress_of_byte]
  split
  · congr 1; omega
  · congr 1; omega

theorem previewByte_of_uncomputed (uncomputed : n / 2 ∉ store.computed) : previewByte cfg store row n =
    if n % 2 = 0 then store.fill.y else if n % 4 = 1 then store.fill.u else store.fill.v := by
  simp only [previewByte, readPreview, if_neg (fun set => uncomputed ((flagSet_iff ..).mp set))]
  exact fill_of_byte store.fill rfl

end Preview

end Bytes

/-! ## A read completes (R154) -/

section Read

variable {s : State} {b : FetchRead} {data : List Byte} {live : Bool} {e : MemErrors}

/-- The read's words are checked. -/
def fetchChecked (b : FetchRead) (e : MemErrors) (s : State) : State :=
  checkWords (touchedWords b.addr b.len) e (memoryFreed s)

theorem fetchChecked_only (b : FetchRead) (e : MemErrors) (s : State) :
    OnlyFetch { s with store := (checkWords (touchedWords b.addr b.len) e s).store } (fetchChecked b e s) :=
  ⟨_, _, rfl⟩

theorem exec_burst_fetch (inProgress : s.arb.inProgress = some (.fetch b data live)) (move : EngineMove)
    (e : MemErrors) : exec (.memoryBurstComplete move e) s =
      .next (settle false true (completeFetch b data live e (memoryFreed s))) := by
  rw [exec_burst_of_movable inProgress nofun]
  rfl

theorem completeFetch_ended : completeFetch b data false e (memoryFreed s) = fetchChecked b e s := rfl

theorem completeFetch_of_sound (sound : ∀ w ∈ touchedWords b.addr b.len, ¬wordFails s.store e w) :
    completeFetch b data true e (memoryFreed s) = fetchData b.requester data (fetchChecked b e s) := by
  simp only [completeFetch, if_true]
  exact if_pos ((badWords_isEmpty_iff ..).mpr sound)

theorem completeFetch_of_fault (fault : ∃ w ∈ touchedWords b.addr b.len, wordFails s.store e w) :
    completeFetch b data true e (memoryFreed s) = fetchError b.requester (fetchChecked b e s) := by
  obtain ⟨w, read, fails⟩ := fault
  simp only [completeFetch, if_true]
  exact if_neg fun sound => (badWords_isEmpty_iff ..).mp sound w read fails

theorem completeFetch_only (b : FetchRead) (data : List Byte) (live : Bool) (e : MemErrors) (s : State) :
    OnlyFetch { s with store := (checkWords (touchedWords b.addr b.len) e s).store }
      (completeFetch b data live e (memoryFreed s)) := by
  refine (fetchChecked_only b e s).trans ?_
  unfold completeFetch
  dsimp only
  split
  · split
    · exact fetchData_only ..
    · exact fetchError_only ..
  · exact .refl _

end Read

section Live

variable {v : State} {r : Requester} {x : Transfer} {data : List Byte} (transfer : (sideOf v.fetch r).transfer = some x)
include transfer

/-- The bytes complete the burst, which is posted. -/
theorem settle_fetchData_whole (c m : Bool)
    (whole : burstLength v.sweepCfg x ≤ x.inHand.length + data.length) :
    burstOf (settle c m (fetchData r data v)).fetch r =
      some ⟨r, dataStatus v.sweepCfg x (x.inHand.length + data.length), x.item, x.inHand ++ data⟩ := by
  have posts : fetchData r data v = postData r x (x.inHand ++ data) v := by
    simp only [fetchData, transfer, List.length_append, if_pos whole]
  rw [posts, ← List.length_append]
  exact settle_burst c m (postData_posted _) rfl

/-- The bytes are in hand, and the burst is not whole yet. -/
theorem settle_fetchData_part (c m : Bool) (free : (sideOf v.fetch r).posted = none)
    (part : x.inHand.length + data.length < burstLength v.sweepCfg x) :
    (sideOf (settle c m (fetchData r data v)).fetch r).transfer.map Transfer.inHand = some (x.inHand ++ data) := by
  have keeps : fetchData r data v =
      setSide r { sideOf v.fetch r with transfer := some { x with inHand := x.inHand ++ data } } v := by
    simp only [fetchData, transfer, List.length_append, if_neg (Nat.not_le_of_lt part)]
  have side : sideOf (fetchData r data v).fetch r =
      { sideOf v.fetch r with transfer := some { x with inHand := x.inHand ++ data } } := by
    rw [keeps, sideOf_setSide, if_pos rfl]
  rw [settle_part_at c m Transfer.inHand (fun _ => rfl) (noDataPosted_of_none (by rw [side, free])), side]
  rfl

theorem settle_fetchError (c m : Bool) :
    burstOf (settle c m (fetchError r v)).fetch r = some ⟨r, .errorMemory, x.item, []⟩ := by
  have ends : fetchError r v = endWith r .errorMemory x.item v := by simp only [fetchError, transfer]
  rw [ends]
  exact settle_burst c m (by rw [sideOf_endWith, if_pos rfl]; rfl) rfl

end Live

/-- What settles leaves as it was, beside the two ports. -/
theorem restAs.kept {u t : State} (rest : restAs u t) : t.store = u.store ∧ t.attn = u.attn ∧ t.sweep = u.sweep ∧
    t.ctl = u.ctl ∧ t.comp.strips = u.comp.strips ∧ t.motion = u.motion := by
  obtain ⟨same, -⟩ := rest
  rw [same]
  exact ⟨rfl, rfl, rfl, rfl, rfl, rfl⟩

/-- Settles O49: the bytes by `groupByte` and `previewByte` where the flag is set and where it is not, and a completion by
whether its transfer has ended and a word fails. -/
theorem fetchReadCompletes : Obligations.FetchReadCompletes := by
  refine ⟨fun s b waits => ?_, ?_, ?_, fun s b data move e inProgress => ?_⟩
  · rw [grantClient_fetch_eq waits]
  · rintro cfg store b i _ inside rfl
    refine ⟨fetchBytes_length b, fun kind => ?_, fun kind => ?_⟩
    · rw [fetchBytes_getD_canvas inside kind]
      exact ⟨groupByte_of_written, groupByte_of_unwritten⟩
    · rw [fetchBytes_getD_preview inside kind]
      exact ⟨previewByte_of_computed, previewByte_of_uncomputed⟩
  · rintro s b data x move e _ inProgress transfer free rfl
    have rest := (completeFetch_only b data true e s).rest.trans
      (settle_settlesTo false true (completeFetch b data true e (memoryFreed s))).1
    obtain ⟨store, attn, sweep, ctl, strips, motion⟩ := rest.kept
    refine ⟨_, exec_burst_fetch inProgress move e, store, attn, sweep, ctl, strips, motion, fun sound whole => ?_,
      fun sound part => ?_, fun fault => ?_⟩
    · rw [completeFetch_of_sound sound]
      exact settle_fetchData_whole (v := fetchChecked b e s) transfer false true whole
    · rw [completeFetch_of_sound sound]
      exact settle_fetchData_part (v := fetchChecked b e s) transfer false true free part
    · rw [completeFetch_of_fault fault]
      exact settle_fetchError (v := fetchChecked b e s) transfer false true
  · have settled := settle_settlesTo false true (completeFetch b data false e (memoryFreed s))
    exact ⟨_, exec_burst_fetch inProgress move e, (completeFetch_only b data false e s).rest.trans settled.1,
      settled.side .r0, settled.side .r1⟩

end Sys2Proof.Machine
end

section
/-! SUPPORT. The pixels that a write burst stores and the flags that it completes (R118, R141, R144). -/

namespace Sys2Proof.Machine

/-! ## The words read first (R144) -/

section Merged

variable {units : List WriteUnit} {w : Nat}

/-- The four places of a pixel in a word. -/
def pixelPlaces (w : Nat) : Finset Nat := (Finset.range 4).image fun i => 8 * w + 2 * i

theorem pixelPlaces_card (w : Nat) : (pixelPlaces w).card = 4 := by
  rw [pixelPlaces, Finset.card_image_of_injective _ fun i j same => by simpa using same, Finset.card_range]

/-- The places in a word that a burst writes. -/
def placesIn (units : List WriteUnit) (w : Nat) : Finset Nat :=
  ((units.filter (unitInWord w)).map WriteUnit.addr).toFinset

theorem mem_placesIn (a : Nat) : a ∈ placesIn units w ↔ ∃ u ∈ units, u.addr / 8 = w ∧ u.addr = a := by
  simp [placesIn, unitInWord, and_assoc]

/-- A word is written in part exactly when one of its four pixels is none of the burst's. -/
theorem partialWord_iff (even : ∀ u ∈ units, u.addr % 2 = 0) :
    partialWord units w = true ↔ ∃ i, i < 4 ∧ ∀ u ∈ units, u.addr ≠ 8 * w + 2 * i := by
  have mem := mem_placesIn (units := units) (w := w)
  have within : placesIn units w ⊆ pixelPlaces w := by
    intro a isPlace
    obtain ⟨u, unit, word, rfl⟩ := (mem a).mp isPlace
    have := even u unit
    exact Finset.mem_image.mpr ⟨u.addr % 8 / 2, Finset.mem_range.mpr (by omega), by omega⟩
  have count : ((units.filter (unitInWord w)).map WriteUnit.addr).dedup.length = (placesIn units w).card :=
    (List.card_toFinset _).symm
  have fewer : (placesIn units w).card < 4 ↔ ¬ pixelPlaces w ⊆ placesIn units w := by
    rw [← pixelPlaces_card w]
    constructor
    · exact fun less all => absurd (Finset.card_le_card all) (Nat.not_le_of_lt less)
    · exact fun missing => Finset.card_lt_card ⟨within, missing⟩
  rw [partialWord, decide_eq_true_iff, count, fewer, Finset.not_subset]
  constructor
  · rintro ⟨a, isPlace, missing⟩
    obtain ⟨i, place, rfl⟩ := Finset.mem_image.mp isPlace
    have := Finset.mem_range.mp place
    exact ⟨i, this, fun u unit same => missing ((mem _).mpr ⟨u, unit, by omega, same⟩)⟩
  · rintro ⟨i, place, missing⟩
    refine ⟨8 * w + 2 * i, Finset.mem_image.mpr ⟨i, Finset.mem_range.mpr place, rfl⟩, fun isPlace => ?_⟩
    obtain ⟨u, unit, -, same⟩ := (mem _).mp isPlace
    exact missing u unit same

theorem mem_mergedWords_iff (even : ∀ u ∈ units, u.addr % 2 = 0) : w ∈ mergedWords units ↔
    (∃ u ∈ units, u.addr / 8 = w) ∧ ∃ i, i < 4 ∧ ∀ u ∈ units, u.addr ≠ 8 * w + 2 * i := by
  rw [mergedWords, List.mem_filter, List.mem_dedup, List.mem_map, partialWord_iff even]

end Merged

/-! ## Pixels stored -/

section Stored

variable {units : List WriteUnit} {mem : List Host.Cell}

/-- A pixel that no other overlaps reads back, whether it is one of those stored or has been stored before them. -/
theorem memRead_foldl_storeUnit_same {u : WriteUnit} : ∀ (units : List WriteUnit) {mem : List Host.Cell}
    (_ : memWf mem = true) (_ : ∀ v ∈ units, unitsApart u v)
    (_ : u ∈ units ∨ (memRead mem u.addr = u.y ∧ memRead mem (u.addr + 1) = u.c)),
    memRead (units.foldl storeUnit mem) u.addr = u.y ∧ memRead (units.foldl storeUnit mem) (u.addr + 1) = u.c
  | [], _, _, _, stored => stored.resolve_left List.not_mem_nil
  | v :: units, mem, sound, apart, stored => by
    have next : u ∈ units ∨ (memRead (storeUnit mem v) u.addr = u.y ∧ memRead (storeUnit mem v) (u.addr + 1) = u.c) := by
      by_cases same : v = u
      · subst same
        refine .inr ⟨?_, memRead_memWrite_same _ (memWrite_wf sound _ _)⟩
        rw [storeUnit, memRead_memWrite_other _ (Nat.ne_of_lt (Nat.lt_succ_self _)) (memWrite_wf sound _ _),
          memRead_memWrite_same _ sound]
      · refine stored.imp (fun mem => (List.mem_cons.mp mem).resolve_left (Ne.symm same)) fun before => ?_
        have disjoint := (apart v (List.mem_cons_self ..)).resolve_left same
        have kept (a : Nat) (other : a ≠ v.addr ∧ a ≠ v.addr + 1) : memRead (storeUnit mem v) a = memRead mem a := by
          rw [storeUnit, memRead_memWrite_other _ other.2 (memWrite_wf sound _ _), memRead_memWrite_other _ other.1 sound]
        rwa [kept _ (by omega), kept _ (by omega)]
    exact memRead_foldl_storeUnit_same units (storeUnit_wf sound v)
      (fun x more => apart x (List.mem_cons_of_mem _ more)) next

end Stored

theorem mem_unitsWithin {addr len : Nat} {units : List WriteUnit} {u : WriteUnit} :
    u ∈ unitsWithin addr len units ↔ u ∈ units ∧ unitInside addr len u := by
  rw [unitsWithin, List.mem_filter, decide_eq_true_iff]
  rfl

theorem mem_unitsBeyond {addr len : Nat} {units : List WriteUnit} {u : WriteUnit} :
    u ∈ unitsBeyond addr len units ↔ u ∈ units ∧ ¬unitInside addr len u := by
  rw [unitsBeyond, List.mem_filter, Bool.not_eq_true', decide_eq_false_iff_not]
  rfl

theorem mem_soundUnits {bad : List Nat} {units : List WriteUnit} {u : WriteUnit} :
    u ∈ soundUnits bad units ↔ u ∈ units ∧ u.addr / 8 ∉ bad := by
  simp [soundUnits]

/-! ## A burst's pixels written (R144) -/

section WritePixels

variable {s : State} {all : List WriteUnit} {addr len : Nat} {e : MemErrors} {merged : List Nat}
  (merges : merged = mergedWords (unitsWithin addr len all)) {w : Nat}
include merges

theorem mem_written {u : WriteUnit} :
    u ∈ soundUnits (badWords (mergedWords (unitsWithin addr len all)) e s.store) (unitsWithin addr len all) ↔
      u ∈ all ∧ unitInside addr len u ∧ ¬(u.addr / 8 ∈ merged ∧ wordFails s.store e (u.addr / 8)) := by
  rw [mem_soundUnits, mem_unitsWithin, mem_badWords, ← merges, and_assoc]

variable (sound : memorySound s)
include sound

theorem memRead_writePixels_outside {a : Nat} (outside : a < addr ∨ addr + len ≤ a) :
    memRead (writePixels (unitsWithin addr len all) e s).store.mem a = memRead s.store.mem a :=
  memRead_foldl_storeUnit_other _ sound fun u written => by
    obtain ⟨-, ⟨low, high⟩, -⟩ := (mem_written merges).mp written
    omega

theorem memRead_writePixels_other {a : Nat} (other : ∀ u ∈ all, a ≠ u.addr ∧ a ≠ u.addr + 1) :
    memRead (writePixels (unitsWithin addr len all) e s).store.mem a = memRead s.store.mem a :=
  memRead_foldl_storeUnit_other _ sound fun u written => other u ((mem_written merges).mp written).1

/-- A word left as it was keeps its bytes. -/
theorem memRead_writePixels_failed (merge : w ∈ merged) (fails : wordFails s.store e w)
    (even : ∀ u ∈ all, u.addr % 2 = 0) {i : Nat} (inside : i < 8) :
    memRead (writePixels (unitsWithin addr len all) e s).store.mem (8 * w + i) = memRead s.store.mem (8 * w + i) :=
  memRead_foldl_storeUnit_other _ sound fun u written => by
    obtain ⟨unit, -, intact⟩ := (mem_written merges).mp written
    have other : u.addr / 8 ≠ w := by rintro rfl; exact intact ⟨merge, fails⟩
    have := even u unit
    omega

variable {u : WriteUnit} (unit : u ∈ all) (inside : unitInside addr len u)
  (intact : ¬(u.addr / 8 ∈ merged ∧ wordFails s.store e (u.addr / 8)))
include unit inside intact

theorem memRead_writePixels_same (apart : ∀ v ∈ all, unitsApart u v) :
    memRead (writePixels (unitsWithin addr len all) e s).store.mem u.addr = u.y ∧
      memRead (writePixels (unitsWithin addr len all) e s).store.mem (u.addr + 1) = u.c :=
  memRead_foldl_storeUnit_same _ sound (fun v written => apart v ((mem_written merges).mp written).1)
    (.inl ((mem_written merges).mpr ⟨unit, inside, intact⟩))

omit sound in
theorem writePixels_rewrites :
    u.addr / 8 ∉ (writePixels (unitsWithin addr len all) e s).store.singleFlaws ∧
      u.addr / 8 ∉ (writePixels (unitsWithin addr len all) e s).store.multiFlaws := by
  have rewritten := List.mem_map_of_mem (f := fun v => v.addr / 8) ((mem_written merges).mpr ⟨unit, inside, intact⟩)
  exact ⟨fun flaw => (mem_singleFlaws_rewriteWords.mp flaw).2 rewritten,
    fun flaw => (mem_multiFlaws_rewriteWords.mp flaw).2 rewritten⟩

end WritePixels

/-- A word left as it was keeps its error. -/
theorem mem_multiFlaws_writePixels {s : State} {all : List WriteUnit} {addr len : Nat} {e : MemErrors} {merged : List Nat}
    {w : Nat} (merges : merged = mergedWords (unitsWithin addr len all)) (merge : w ∈ merged)
    (fails : wordFails s.store e w) : w ∈ (writePixels (unitsWithin addr len all) e s).store.multiFlaws := by
  refine mem_multiFlaws_rewriteWords.mpr ⟨(mem_multiFlaws_checkWords ..).mpr ?_, fun rewritten => ?_⟩
  · exact fails.imp_right fun new => ⟨merges ▸ merge, new⟩
  · obtain ⟨u, written, rfl⟩ := List.mem_map.mp rewritten
    exact ((mem_written merges).mp written).2.2 ⟨merge, fails⟩

/-! ## The flags completed (R118, R141) -/

section Flags

variable {left : List WriteUnit}

theorem sameFlag_cell_iff {k x : Nat} {target : WriteTarget} : sameFlag (.cell k x) target = true ↔ target = .cell k x := by
  cases target with
  | cell k' x' => rw [sameFlag, decide_eq_true_iff, WriteTarget.cell.injEq, eq_comm (a := k), eq_comm (a := x)]
  | preview j q => simp [sameFlag]

theorem sameFlag_preview_iff {j q : Nat} {target : WriteTarget} :
    sameFlag (.preview j q) target = true ↔ ∃ p, target = .preview j p := by
  cases target with
  | cell k x => simp [sameFlag]
  | preview i p => simpa [sameFlag] using eq_comm

theorem setWrittenFlag_of_left {u : WriteUnit} {st : CanvasStore} (waits : ∃ v ∈ left, sameFlag u.target v.target = true) :
    setWrittenFlag left st u = st := if_pos (List.any_eq_true.mpr waits)

theorem setWrittenFlag_of_cell {u : WriteUnit} {st : CanvasStore} {k x : Nat} (target : u.target = .cell k x)
    (last : ∀ v ∈ left, v.target ≠ .cell k x) :
    setWrittenFlag left st u = { st with coverage := setFlag st.coverage (coverageIndex k x) } := by
  have none : ¬ left.any (fun v => sameFlag u.target v.target) = true := by
    rw [List.any_eq_true, target]
    rintro ⟨v, waits, same⟩
    exact last v waits (sameFlag_cell_iff.mp same)
  rw [setWrittenFlag, if_neg none, target]

theorem setWrittenFlag_of_preview {u : WriteUnit} {st : CanvasStore} {j q : Nat} (target : u.target = .preview j q)
    (last : ∀ v ∈ left, ∀ p, v.target ≠ .preview j p) :
    setWrittenFlag left st u = { st with computed := setFlag st.computed j } := by
  have none : ¬ left.any (fun v => sameFlag u.target v.target) = true := by
    rw [List.any_eq_true, target]
    rintro ⟨v, waits, same⟩
    obtain ⟨p, other⟩ := sameFlag_preview_iff.mp same
    exact last v waits p other
  rw [setWrittenFlag, if_neg none, target]

/-- The pixel completes the coverage flag `i`: no pixel of its column is left. -/
def completesCell (left : List WriteUnit) (u : WriteUnit) (i : Nat) : Prop :=
  ∃ k x, u.target = .cell k x ∧ i = coverageIndex k x ∧ ∀ v ∈ left, v.target ≠ .cell k x

/-- The pixel completes the computed flag `j`: no pixel of its preview column is left. -/
def completesPreview (left : List WriteUnit) (u : WriteUnit) (j : Nat) : Prop :=
  ∃ q, u.target = .preview j q ∧ ∀ v ∈ left, ∀ p, v.target ≠ .preview j p

/-- A pixel done sets the flag that it completes and no other. -/
theorem setWrittenFlag_flags (left : List WriteUnit) (st : CanvasStore) (u : WriteUnit) :
    (∀ i, i ∈ (setWrittenFlag left st u).coverage ↔ i ∈ st.coverage ∨ completesCell left u i) ∧
      ∀ j, j ∈ (setWrittenFlag left st u).computed ↔ j ∈ st.computed ∨ completesPreview left u j := by
  cases target : u.target with
  | cell k x =>
    have notPreview (j : Nat) : ¬completesPreview left u j := by
      rintro ⟨q, other, -⟩
      rw [target] at other
      cases other
    have same (i : Nat) : completesCell left u i ↔ i = coverageIndex k x ∧ ∀ v ∈ left, v.target ≠ .cell k x := by
      constructor
      · rintro ⟨k', x', other, index, last⟩
        obtain ⟨rfl, rfl⟩ := WriteTarget.cell.inj (target.symm.trans other)
        exact ⟨index, last⟩
      · exact fun ⟨index, last⟩ => ⟨k, x, target, index, last⟩
    simp only [notPreview, or_false, same]
    by_cases last : ∀ v ∈ left, v.target ≠ .cell k x
    · rw [setWrittenFlag_of_cell target last]
      exact ⟨fun i => (mem_setFlag ..).trans (by rw [and_iff_left last, or_comm]), fun j => Iff.rfl⟩
    · push Not at last
      rw [setWrittenFlag_of_left (by rw [target]; simpa only [sameFlag_cell_iff] using last)]
      exact ⟨fun i => (or_iff_left fun ⟨_, alone⟩ => by obtain ⟨v, waits, at_v⟩ := last; exact alone v waits at_v).symm,
        fun j => Iff.rfl⟩
  | preview j q =>
    have notCell (i : Nat) : ¬completesCell left u i := by
      rintro ⟨k, x, other, -⟩
      rw [target] at other
      cases other
    have same (i : Nat) : completesPreview left u i ↔ i = j ∧ ∀ v ∈ left, ∀ p, v.target ≠ .preview j p := by
      constructor
      · rintro ⟨q', other, last⟩
        obtain ⟨rfl, rfl⟩ := WriteTarget.preview.inj (target.symm.trans other)
        exact ⟨rfl, last⟩
      · rintro ⟨rfl, last⟩
        exact ⟨q, target, last⟩
    simp only [notCell, or_false, same]
    by_cases last : ∀ v ∈ left, ∀ p, v.target ≠ .preview j p
    · rw [setWrittenFlag_of_preview target last]
      exact ⟨fun i => Iff.rfl, fun i => (mem_setFlag ..).trans (by rw [and_iff_left last, or_comm])⟩
    · push Not at last
      rw [setWrittenFlag_of_left (by rw [target]; simpa only [sameFlag_preview_iff] using last)]
      exact ⟨fun i => Iff.rfl,
        fun i => (or_iff_left fun ⟨_, alone⟩ => by obtain ⟨v, waits, p, at_v⟩ := last; exact alone v waits p at_v).symm⟩

/-- The flags once a list of pixels is done. -/
theorem foldl_setWrittenFlag_flags (left : List WriteUnit) (done : List WriteUnit) (st : CanvasStore) :
    (∀ i, i ∈ (done.foldl (setWrittenFlag left) st).coverage ↔
      i ∈ st.coverage ∨ ∃ u ∈ done, completesCell left u i) ∧
    ∀ j, j ∈ (done.foldl (setWrittenFlag left) st).computed ↔
      j ∈ st.computed ∨ ∃ u ∈ done, completesPreview left u j := by
  induction done generalizing st with
  | nil => simp
  | cons u done ih =>
    obtain ⟨coverage, computed⟩ := ih (setWrittenFlag left st u)
    obtain ⟨cell, preview⟩ := setWrittenFlag_flags left st u
    simp only [List.foldl_cons, coverage, computed, cell, preview, List.exists_mem_cons_iff, or_assoc, implies_true,
      and_self]

/-- Pixels done change the flags alone. -/
theorem foldl_setWrittenFlag_eq (left : List WriteUnit) (done : List WriteUnit) (st : CanvasStore) :
    done.foldl (setWrittenFlag left) st = { st with
      coverage := (done.foldl (setWrittenFlag left) st).coverage
      computed := (done.foldl (setWrittenFlag left) st).computed } := by
  have one (st : CanvasStore) (u : WriteUnit) : setWrittenFlag left st u = { st with
      coverage := (setWrittenFlag left st u).coverage, computed := (setWrittenFlag left st u).computed } := by
    unfold setWrittenFlag
    split
    · rfl
    · split <;> rfl
  induction done generalizing st with
  | nil => rfl
  | cons u done ih =>
    rw [List.foldl_cons]
    exact (ih (setWrittenFlag left st u)).trans (by rw [one st u])

end Flags

end Sys2Proof.Machine
end

section
/-! SUPPORT. A write burst of the compositor completes, of the operation at hand or of one that has ended (R118, R141,
R144 to R146), with O48 from it. -/

namespace Sys2Proof.Machine

/-! ## What a write of the operation at hand leaves -/

section Write

variable (addr len : Nat) (e : MemErrors) (s : State)

/-- The words read first that show an uncorrectable error. -/
def failedMerges : List Nat := badWords (mergedWords (unitsWithin addr len s.comp.todo)) e s.store

/-- The pixels that leave the work: those stored, and in the closing work those of failed words too (R123). -/
def doneUnits : List WriteUnit :=
  if s.comp.state = .closing then unitsWithin addr len s.comp.todo
  else soundUnits (failedMerges addr len e s) (unitsWithin addr len s.comp.todo)

/-- The pixels that stay in the work. -/
def leftUnits : List WriteUnit :=
  if s.comp.state = .closing then unitsBeyond addr len s.comp.todo
  else unitsBeyond addr len s.comp.todo ++
    (unitsWithin addr len s.comp.todo).filter fun u => (failedMerges addr len e s).contains (u.addr / 8)

/-- The burst's pixels are stored, and those done leave the work. -/
def burstWritten : State :=
  finishUnits (doneUnits addr len e s) (leftUnits addr len e s)
    (writePixels (unitsWithin addr len s.comp.todo) e (memoryFreed s))

variable {addr len e s}

theorem mem_failedMerges {w : Nat} : w ∈ failedMerges addr len e s ↔
    w ∈ mergedWords (unitsWithin addr len s.comp.todo) ∧ wordFails s.store e w := mem_badWords ..

theorem failedMerges_isEmpty_iff : (failedMerges addr len e s).isEmpty = true ↔
    ∀ w ∈ mergedWords (unitsWithin addr len s.comp.todo), ¬wordFails s.store e w := badWords_isEmpty_iff ..

theorem doneUnits_of_ended (ended : failedMerges addr len e s = [] ∨ s.comp.state = .closing) :
    doneUnits addr len e s = unitsWithin addr len s.comp.todo := by
  unfold doneUnits
  split
  · rfl
  · rw [ended.resolve_right ‹_›]
    simp [soundUnits]

theorem leftUnits_of_ended (ended : failedMerges addr len e s = [] ∨ s.comp.state = .closing) :
    leftUnits addr len e s = unitsBeyond addr len s.comp.todo := by
  unfold leftUnits
  split
  · rfl
  · rw [ended.resolve_right ‹_›]
    simp

theorem inside_of_done {u : WriteUnit} (done : u ∈ doneUnits addr len e s) :
    u ∈ s.comp.todo ∧ unitInside addr len u := by
  unfold doneUnits at done
  split at done
  · exact mem_unitsWithin.mp done
  · exact mem_unitsWithin.mp (mem_soundUnits.mp done).1

theorem left_of_outside {v : WriteUnit} (unit : v ∈ s.comp.todo) (outside : ¬unitInside addr len v) :
    v ∈ leftUnits addr len e s := by
  have beyond := mem_unitsBeyond.mpr ⟨unit, outside⟩
  unfold leftUnits
  split
  · exact beyond
  · exact List.mem_append_left _ beyond

/-! ### The completion by its failed words -/

theorem completeEngineWrite_of_sound (sound : (failedMerges addr len e s).isEmpty = true) :
    completeEngineWrite addr len e (memoryFreed s) = burstWritten addr len e s := by
  have ended : failedMerges addr len e s = [] ∨ s.comp.state = .closing := .inl (List.isEmpty_iff.mp sound)
  rw [burstWritten, doneUnits_of_ended ended, leftUnits_of_ended ended]
  exact if_pos sound

theorem completeEngineWrite_of_closing (fault : ¬(failedMerges addr len e s).isEmpty = true)
    (closing : s.comp.state = .closing) :
    completeEngineWrite addr len e (memoryFreed s) = reportFault (burstWritten addr len e s) := by
  have state : (writePixels (unitsWithin addr len s.comp.todo) e (memoryFreed s)).comp.state = .closing := closing
  rw [burstWritten, doneUnits_of_ended (.inr closing), leftUnits_of_ended (.inr closing)]
  refine (if_neg fault).trans ?_
  dsimp only [memoryFreed] at state ⊢
  rw [state]

theorem completeEngineWrite_of_fault (fault : ¬(failedMerges addr len e s).isEmpty = true)
    (other : s.comp.state ≠ .closing) :
    completeEngineWrite addr len e (memoryFreed s) = faultCompositor addr len (burstWritten addr len e s) := by
  have state : (writePixels (unitsWithin addr len s.comp.todo) e (memoryFreed s)).comp.state = s.comp.state := rfl
  rw [burstWritten, doneUnits, leftUnits, if_neg other, if_neg other]
  refine (if_neg fault).trans ?_
  dsimp only [memoryFreed] at state ⊢
  rw [state]
  cases at_state : s.comp.state
  case closing => exact absurd at_state other
  all_goals rfl

/-! ### The store -/

theorem faultCompositor_store (u : State) : (faultCompositor addr len u).store = u.store := by
  obtain ⟨_, _, _, _, _, _, _, same⟩ := unitFaults_only .compositor addr len u
  exact (congrArg State.store same :)

theorem completeEngineWrite_store :
    (completeEngineWrite addr len e (memoryFreed s)).store = (burstWritten addr len e s).store := by
  by_cases sound : (failedMerges addr len e s).isEmpty = true
  · rw [completeEngineWrite_of_sound sound]
  · by_cases closing : s.comp.state = .closing
    · rw [completeEngineWrite_of_closing sound closing]
      rfl
    · rw [completeEngineWrite_of_fault sound closing, faultCompositor_store]

theorem burstWritten_store : (burstWritten addr len e s).store =
    { (writePixels (unitsWithin addr len s.comp.todo) e (memoryFreed s)).store with
      coverage := (burstWritten addr len e s).store.coverage
      computed := (burstWritten addr len e s).store.computed } := foldl_setWrittenFlag_eq ..

theorem mem_coverage_burstWritten {i : Nat} : i ∈ (burstWritten addr len e s).store.coverage ↔
    i ∈ s.store.coverage ∨ ∃ u ∈ doneUnits addr len e s, completesCell (leftUnits addr len e s) u i :=
  (foldl_setWrittenFlag_flags ..).1 i

theorem mem_computed_burstWritten {j : Nat} : j ∈ (burstWritten addr len e s).store.computed ↔
    j ∈ s.store.computed ∨ ∃ u ∈ doneUnits addr len e s, completesPreview (leftUnits addr len e s) u j :=
  (foldl_setWrittenFlag_flags ..).2 j

/-- A new coverage flag is that of a column with no pixel outside the burst. -/
theorem coverage_of_burstWritten {i : Nat} (flag : i ∈ (burstWritten addr len e s).store.coverage) :
    i ∈ s.store.coverage ∨ ∃ u ∈ s.comp.todo, ∃ k x, u.target = .cell k x ∧ i = coverageIndex k x ∧
      ∀ v ∈ s.comp.todo, v.target = .cell k x → unitInside addr len v := by
  refine (mem_coverage_burstWritten.mp flag).imp_right ?_
  rintro ⟨u, done, k, x, target, index, last⟩
  refine ⟨u, (inside_of_done done).1, k, x, target, index, fun v unit same => ?_⟩
  by_contra outside
  exact last v (left_of_outside unit outside) same

theorem computed_of_burstWritten {j : Nat} (flag : j ∈ (burstWritten addr len e s).store.computed) :
    j ∈ s.store.computed ∨ ∃ u ∈ s.comp.todo, ∃ q, u.target = .preview j q ∧
      ∀ v ∈ s.comp.todo, ∀ p, v.target = .preview j p → unitInside addr len v := by
  refine (mem_computed_burstWritten.mp flag).imp_right ?_
  rintro ⟨u, done, q, target, last⟩
  refine ⟨u, (inside_of_done done).1, q, target, fun v unit p same => ?_⟩
  by_contra outside
  exact last v (left_of_outside unit outside) p same

section Ended

variable (ended : failedMerges addr len e s = [] ∨ s.comp.state = .closing) {u : WriteUnit} (unit : u ∈ s.comp.todo)
  (inside : unitInside addr len u)
include ended unit inside

/-- The last pixels of a column set its flag. -/
theorem burstWritten_coverage {k x : Nat} (target : u.target = .cell k x)
    (last : ∀ v ∈ s.comp.todo, v.target = .cell k x → unitInside addr len v) :
    coverageIndex k x ∈ (burstWritten addr len e s).store.coverage := by
  rw [mem_coverage_burstWritten, doneUnits_of_ended ended, leftUnits_of_ended ended]
  refine .inr ⟨u, mem_unitsWithin.mpr ⟨unit, inside⟩, k, x, target, rfl, fun v left same => ?_⟩
  obtain ⟨waits, outside⟩ := mem_unitsBeyond.mp left
  exact outside (last v waits same)

theorem burstWritten_computed {j q : Nat} (target : u.target = .preview j q)
    (last : ∀ v ∈ s.comp.todo, ∀ p, v.target = .preview j p → unitInside addr len v) :
    j ∈ (burstWritten addr len e s).store.computed := by
  rw [mem_computed_burstWritten, doneUnits_of_ended ended, leftUnits_of_ended ended]
  refine .inr ⟨u, mem_unitsWithin.mpr ⟨unit, inside⟩, q, target, fun v left p same => ?_⟩
  obtain ⟨waits, outside⟩ := mem_unitsBeyond.mp left
  exact outside (last v waits p same)

end Ended

/-! ### What settles behind it -/

theorem finishUnits_writePixels (units done left : List WriteUnit) (e : MemErrors) (u : State) :
    ∃ stored, finishUnits done left (writePixels units e u) =
      { u with store := stored, comp := { u.comp with todo := left } } := ⟨_, rfl⟩

/-- The burst's pixels change, beside the arbiter, the store and the work. -/
theorem burstWritten_eq : burstWritten addr len e s = { s with
    store := (burstWritten addr len e s).store
    comp := { s.comp with todo := leftUnits addr len e s }
    arb := (memoryFreed s).arb } := by
  obtain ⟨stored, same⟩ := finishUnits_writePixels (unitsWithin addr len s.comp.todo) (doneUnits addr len e s)
    (leftUnits addr len e s) e (memoryFreed s)
  have store : (burstWritten addr len e s).store = stored := (congrArg State.store same :)
  rw [store]
  exact same

/-- With nothing failed, or in the closing work, the pixels within the burst leave the work. -/
theorem settle_completeEngineWrite_todo (c m : Bool) (ended : failedMerges addr len e s = [] ∨ s.comp.state = .closing)
    (planned : ∀ job, s.comp.job = some job → job.planned = true) :
    (settle c m (completeEngineWrite addr len e (memoryFreed s))).comp.todo = unitsBeyond addr len s.comp.todo := by
  have comp : (completeEngineWrite addr len e (memoryFreed s)).comp = { s.comp with
      todo := unitsBeyond addr len s.comp.todo } := by
    rw [← leftUnits_of_ended ended]
    by_cases sound : (failedMerges addr len e s).isEmpty = true
    · rw [completeEngineWrite_of_sound sound]
      rfl
    · rw [completeEngineWrite_of_closing sound (ended.resolve_left fun none => sound (List.isEmpty_iff.mpr none))]
      rfl
  have prepared (u : State) (job : u.comp.job = s.comp.job) : prepareStrip u = u := by
    unfold prepareStrip
    split
    · rename_i held
      rw [planned _ (job.symm.trans held), Bool.true_or, if_pos rfl]
    · rfl
  rw [settle_comp, prepared _ (by rw [comp]), comp]

/-- Beside the two ports, an operation with nothing failed goes on with fewer pixels. -/
theorem settle_completeEngineWrite_sound (c m : Bool) (sound : (failedMerges addr len e s).isEmpty = true) (t : State)
    (ht : t = settle c m (completeEngineWrite addr len e (memoryFreed s))) :
    restAs { s with store := t.store, comp := { s.comp with todo := t.comp.todo } } t := by
  have store : t.store = (burstWritten addr len e s).store := by rw [ht, settle_store, completeEngineWrite_store]
  obtain ⟨same, lines, job, -⟩ := (settle_settlesTo c m (completeEngineWrite addr len e (memoryFreed s))).1
  rw [← ht, completeEngineWrite_of_sound sound, burstWritten_eq] at same lines job
  rw [store]
  generalize (burstWritten addr len e s).store = stored at same
  exact ⟨same, lines, job, .inl rfl⟩

end Write

/-! ## An uncorrectable word (R122, R123, R129, R145) -/

/-- FAULT raised and a FAULT end request sent, with the compositor as it is left. -/
def faultReported (s : State) (comp : Compositor) : State :=
  { s with
    attn := { s.attn with pendingSet := s.attn.pendingSet ||| 1 }
    sweep := { s.sweep with endRequests := s.sweep.endRequests ++ [.fault] }
    comp := comp }

theorem reportFault_eq (s : State) : reportFault s = faultReported s s.comp := rfl

/-- What a fault outside the closing work makes of the compositor. -/
def faultedComp (c : Compositor) : Compositor :=
  match c.state with
  | .compositing | .harvesting => { c with state := .ready, job := none, pendingReanchor := none, todo := [] }
  | .updating => { c with todo := [], halted := true }
  | .closing | .ready => c

theorem faultedComp_of_strip {c : Compositor} (strip : c.state = .compositing ∨ c.state = .harvesting) : faultedComp c =
    { c with state := .ready, job := none, pendingReanchor := none, todo := [] } := by
  rcases strip with state | state <;> simp only [faultedComp, state]

theorem faultedComp_of_updating {c : Compositor} (state : c.state = .updating) :
    faultedComp c = { c with todo := [], halted := true } := by
  simp only [faultedComp, state]

theorem faultedComp_of_ready {c : Compositor} (state : c.state = .ready) : faultedComp c = c := by
  simp only [faultedComp, state]

theorem faultCompositor_reports (addr len : Nat) {u : State} (other : u.comp.state ≠ .closing) :
    OnlyFetch (faultReported u (faultedComp u.comp)) (faultCompositor addr len u) := by
  have strip (state : u.comp.state = .compositing ∨ u.comp.state = .harvesting) :
      OnlyFetch (faultReported u (faultedComp u.comp)) (faultCompositor addr len u) := by
    rw [faultCompositor_of_strip addr len state, faultedComp_of_strip state]
    exact ⟨u.fetch, (dropEngine .compositor (reportFault u)).arb, rfl⟩
  cases state : u.comp.state with
  | closing => exact absurd state other
  | ready =>
    rw [faultCompositor_of_ready addr len state, faultedComp_of_ready state]
    exact ⟨u.fetch, u.arb, rfl⟩
  | updating =>
    rw [faultCompositor_of_updating addr len state, faultedComp_of_updating state]
    exact ⟨u.fetch, (dropEngine .compositor (reportFault u)).arb, rfl⟩
  | compositing => exact strip (.inl state)
  | harvesting => exact strip (.inr state)

theorem faultReported_burstWritten (addr len : Nat) (e : MemErrors) (s : State) (comp : Compositor) :
    OnlyFetch { s with
      store := (burstWritten addr len e s).store
      attn := { s.attn with pendingSet := s.attn.pendingSet ||| 1 }
      sweep := { s.sweep with endRequests := s.sweep.endRequests ++ [.fault] }
      comp := comp } (faultReported (burstWritten addr len e s) comp) := by
  rw [burstWritten_eq]
  generalize (burstWritten addr len e s).store = store
  exact ⟨_, _, rfl⟩

/-- The compositor once a fault has settled: in the closing work the work goes on, and elsewhere as `faultedComp` says. -/
theorem settle_completeEngineWrite_fault {addr len : Nat} {e : MemErrors} {s : State} (c m : Bool)
    (fault : ¬(failedMerges addr len e s).isEmpty = true) (t : State)
    (ht : t = settle c m (completeEngineWrite addr len e (memoryFreed s))) : ∃ comp : Compositor,
    restAs { s with
      store := t.store
      attn := { s.attn with pendingSet := s.attn.pendingSet ||| 1 }
      sweep := { s.sweep with endRequests := s.sweep.endRequests ++ [.fault] }
      comp := comp } t ∧
    (s.comp.state = .closing → comp = { s.comp with todo := t.comp.todo }) ∧
    (s.comp.state = .compositing →
      comp = { s.comp with state := .ready, job := none, pendingReanchor := none, todo := [] }) ∧
    (s.comp.state = .updating → comp = { s.comp with todo := [], halted := true }) := by
  have store : t.store = (burstWritten addr len e s).store := by rw [ht, settle_store, completeEngineWrite_store]
  have rest := (settle_settlesTo c m (completeEngineWrite addr len e (memoryFreed s))).1
  rw [← ht] at rest
  rw [store]
  by_cases closing : s.comp.state = .closing
  · have faulted := completeEngineWrite_of_closing fault closing
    have comp : t.comp = { s.comp with todo := leftUnits addr len e s } := by
      rw [ht, faulted]
      exact settle_comp_of_ne c m _ (by show s.comp.state ≠ _; simp [closing])
    rw [faulted, reportFault_eq] at rest
    refine ⟨(burstWritten addr len e s).comp, (faultReported_burstWritten addr len e s _).rest.trans rest,
      fun _ => by rw [comp]; rfl, fun other => ?_, fun other => ?_⟩
    · rw [closing] at other; cases other
    · rw [closing] at other; cases other
  · rw [completeEngineWrite_of_fault fault closing] at rest
    refine ⟨faultedComp (burstWritten addr len e s).comp, ?_, fun other => absurd other closing, fun state => ?_,
      fun state => ?_⟩
    · exact ((faultReported_burstWritten addr len e s _).trans
        (faultCompositor_reports addr len (u := burstWritten addr len e s) closing)).rest.trans rest
    · exact faultedComp_of_strip (c := (burstWritten addr len e s).comp) (.inl state)
    · exact faultedComp_of_updating (c := (burstWritten addr len e s).comp) state

/-! ## The statement -/

section Statement

variable {s : State} {addr len : Nat} {e : MemErrors} {merged : List Nat}

theorem exec_engineWrite {late : List WriteUnit} {areas : List MoveArea}
    (inProgress : s.arb.inProgress = some (.engine .compositor true late areas))
    (formed : moveWellFormed (.write addr len) = true)
    (fits : moveFits .compositor true late areas (.write addr len) s = true) :
    exec (.memoryBurstComplete (.write addr len) e) s =
      .next (settle false true (completeEngineWrite addr len e (memoryFreed s))) := by
  rw [exec_burst_of_movable inProgress (movable_engine formed fits)]
  rfl

theorem exec_lateWrite {unit : EngineUnit} {late : List WriteUnit} {areas : List MoveArea}
    (inProgress : s.arb.inProgress = some (.engine unit false late areas))
    (formed : moveWellFormed (.write addr len) = true)
    (fits : moveFits unit false late areas (.write addr len) s = true) :
    exec (.memoryBurstComplete (.write addr len) e) s =
      .next (settle false true (writePixels (unitsWithin addr len late) e (memoryFreed s))) := by
  rw [exec_burst_of_movable inProgress (movable_engine formed fits)]
  rfl

theorem failedMerges_empty_iff (merges : merged = mergedWords (unitsWithin addr len s.comp.todo)) :
    failedMerges addr len e s = [] ↔ ∀ w ∈ merged, ¬wordFails s.store e w := by
  rw [merges, ← failedMerges_isEmpty_iff, List.isEmpty_iff]

end Statement

/-- Settles O48: `writePixels` for what is stored, `burstWritten` for the flags and the work, and
`settle_completeEngineWrite_fault` for an uncorrectable word. -/
theorem engineWriteStaysInItsBurst : Obligations.EngineWriteStaysInItsBurst := by
  refine ⟨fun units w even => mem_mergedWords_iff even, ?_, ?_⟩
  · intro s late areas addr len e merged sound inProgress formed fits merges
    have store : (settle false true (completeEngineWrite addr len e (memoryFreed s))).store =
        (burstWritten addr len e s).store := by rw [settle_store, completeEngineWrite_store]
    have todo := settle_completeEngineWrite_todo (addr := addr) (len := len) (e := e) (s := s) false true
    have intact := settle_completeEngineWrite_sound (addr := addr) (len := len) (e := e) (s := s) false true
    have faulted := settle_completeEngineWrite_fault (addr := addr) (len := len) (e := e) (s := s) false true
    refine ⟨_, exec_engineWrite inProgress formed fits, ?_⟩
    generalize settle false true (completeEngineWrite addr len e (memoryFreed s)) = t at store todo intact faulted
    have mem : t.store.mem = (writePixels (unitsWithin addr len s.comp.todo) e (memoryFreed s)).store.mem := by
      rw [store, burstWritten_store]
    have single : t.store.singleFlaws =
        (writePixels (unitsWithin addr len s.comp.todo) e (memoryFreed s)).store.singleFlaws := by
      rw [store, burstWritten_store]
    have multi : t.store.multiFlaws =
        (writePixels (unitsWithin addr len s.comp.todo) e (memoryFreed s)).store.multiFlaws := by
      rw [store, burstWritten_store]
    have none := failedMerges_empty_iff (e := e) merges
    rw [mem, single, multi]
    refine ⟨fun a outside => memRead_writePixels_outside (s := memoryFreed s) merges sound outside,
      fun a other => memRead_writePixels_other (s := memoryFreed s) merges sound other,
      fun u unit inside kept apart => ?_, ?_, ?_, ?_, ?_, ?_, ?_, fun ended => ⟨fun planned u => ?_, ?_⟩, fun allSound => ?_,
      fun fault => ?_⟩
    · obtain ⟨y, c⟩ := memRead_writePixels_same (s := memoryFreed s) merges sound unit inside kept apart
      exact ⟨y, c, writePixels_rewrites (s := memoryFreed s) merges unit inside kept⟩
    · rw [store, burstWritten_store, merges]
      rfl
    · rw [store, burstWritten_store]
      rfl
    · exact fun i flag => store ▸ mem_coverage_burstWritten.mpr (.inl flag)
    · exact fun j flag => store ▸ mem_computed_burstWritten.mpr (.inl flag)
    · exact fun i flag => coverage_of_burstWritten (store ▸ flag)
    · exact fun j flag => computed_of_burstWritten (store ▸ flag)
    · rw [todo (ended.imp_left none.mpr) planned, mem_unitsBeyond]
    · rw [store]
      exact fun u unit inside =>
        ⟨fun k x target last => burstWritten_coverage (ended.imp_left none.mpr) unit inside target last,
          fun j q target last => burstWritten_computed (ended.imp_left none.mpr) unit inside target last⟩
    · exact intact (List.isEmpty_iff.mpr (none.mpr allSound)) t rfl
    · obtain ⟨w, merge, fails⟩ := fault
      obtain ⟨comp, rest, closing, compositing, updating⟩ :=
        faulted (fun empty => none.mp (List.isEmpty_iff.mp empty) w merge fails) t rfl
      exact ⟨comp, rest, closing, compositing, updating, fun w merge fails =>
        ⟨mem_multiFlaws_writePixels (s := memoryFreed s) merges merge fails,
          fun even i inside => memRead_writePixels_failed (s := memoryFreed s) merges sound merge fails even inside⟩⟩
  · intro s unit late areas addr len e merged sound inProgress formed fits merges
    have rest := (settle_settlesTo false true (writePixels (unitsWithin addr len late) e (memoryFreed s))).1
    have store := settle_store (b := false) (m := true) (s := writePixels (unitsWithin addr len late) e (memoryFreed s))
    refine ⟨_, exec_lateWrite inProgress formed fits, ?_⟩
    generalize settle false true (writePixels (unitsWithin addr len late) e (memoryFreed s)) = t at rest store
    rw [store]
    refine ⟨fun a outside => memRead_writePixels_outside (s := memoryFreed s) merges sound outside,
      fun u unit inside kept apart => memRead_writePixels_same (s := memoryFreed s) merges sound unit inside kept apart,
      fun w merge fails => ⟨mem_multiFlaws_writePixels (s := memoryFreed s) merges merge fails,
        fun even i inside => memRead_writePixels_failed (s := memoryFreed s) merges sound merge fails even inside⟩,
      by rw [merges]; rfl, rfl, rfl, rfl, ?_⟩
    exact (OnlyFetch.rest ⟨_, _, rfl⟩).trans rest

end Sys2Proof.Machine
end

section
/-! SUPPORT. The seam choice (R113, R114) band by band, and O41 from it. -/

namespace Sys2Proof.Machine

/-! ## The jump limit and the least cost (R113) -/

section Step

variable {jump : Nat} {limited : Bool} {above costs l : List (Int × Nat)} {c : Int} {p : Int × Nat}

theorem withinJump_iff (a b : Int) : withinJump jump a b = true ↔ |a - b| ≤ jump := by
  rw [withinJump, decide_eq_true_iff, Int.abs_eq_natAbs]
  omega

theorem mem_allowedAbove : p ∈ allowedAbove jump limited above c ↔ p ∈ above ∧ (limited = true → |c - p.1| ≤ jump) := by
  rw [allowedAbove, List.mem_filter, ← withinJump_iff]
  cases limited <;> simp

theorem jumpApplies_iff : jumpApplies jump above costs = true ↔
    ∃ p ∈ above, ∃ c ∈ costs, |c.1 - p.1| ≤ (jump : Int) := by
  simp only [jumpApplies, List.any_eq_true, withinJump_iff]

theorem leastCost_iff {least : Nat} : leastCost l = some least ↔ (∃ p ∈ l, p.2 = least) ∧ ∀ q ∈ l, least ≤ q.2 := by
  cases l with
  | nil => simp [leastCost]
  | cons x xs =>
    have smallest (values : List Nat) (v : Nat) :
        values.foldl min v ∈ v :: values ∧ ∀ u ∈ v :: values, values.foldl min v ≤ u := by
      induction values generalizing v with
      | nil => simp
      | cons u values ih =>
        obtain ⟨inside, below⟩ := ih (min v u)
        have first := below _ (List.mem_cons_self ..)
        rw [List.foldl_cons]
        refine ⟨?_, ?_⟩
        · rcases List.mem_cons.mp inside with same | inside
          · rw [same]
            rcases min_choice v u with same | same <;> rw [same] <;> simp
          · exact List.mem_cons_of_mem _ (List.mem_cons_of_mem _ inside)
        · simp only [List.mem_cons, forall_eq_or_imp]
          exact ⟨first.trans (min_le_left ..), first.trans (min_le_right ..),
            fun w more => below w (List.mem_cons_of_mem _ more)⟩
    obtain ⟨inside, below⟩ := smallest (xs.map Prod.snd) x.2
    rw [← List.map_cons] at inside below
    rw [leastCost, Option.some_inj]
    constructor
    · rintro rfl
      exact ⟨List.mem_map.mp inside, fun q more => below _ (List.mem_map_of_mem more)⟩
    · rintro ⟨⟨p, member, rfl⟩, least⟩
      obtain ⟨q, other, same⟩ := List.mem_map.mp inside
      exact le_antisymm (below _ (List.mem_map_of_mem member)) (same ▸ least q other)

/-- The feasible candidates of a band below another: those that an allowed one above reaches (R113). -/
theorem mem_accumulate {total : Nat} : (c, total) ∈ accumulate jump limited above costs ↔
    ∃ cost, (c, cost) ∈ costs ∧ ∃ p ∈ above, (limited = true → |c - p.1| ≤ jump) ∧ total = cost + p.2 ∧
      ∀ q ∈ above, (limited = true → |c - q.1| ≤ jump) → p.2 ≤ q.2 := by
  simp only [accumulate, List.mem_filterMap, Option.map_eq_some_iff, leastCost_iff, mem_allowedAbove, Prod.exists,
    Prod.mk.injEq]
  constructor
  · rintro ⟨_, cost, candidate, least, ⟨⟨a, t, ⟨member, reach⟩, rfl⟩, below⟩, rfl, rfl⟩
    exact ⟨cost, candidate, a, t, member, reach, rfl, fun q other reached => below q ⟨other, reached⟩⟩
  · rintro ⟨cost, candidate, a, t, member, reach, rfl, below⟩
    exact ⟨c, cost, candidate, t, ⟨⟨a, t, ⟨member, reach⟩, rfl⟩, fun q other => below q other.1 other.2⟩, rfl, rfl⟩

/-- A candidate that some allowed one above reaches is feasible. -/
theorem exists_accumulate {cost : Nat} (candidate : (c, cost) ∈ costs) (member : p ∈ above)
    (reach : limited = true → |c - p.1| ≤ jump) :
    ∃ total, (c, total) ∈ accumulate jump limited above costs ∧ total ≤ cost + p.2 := by
  have some : (allowedAbove jump limited above c) ≠ [] := List.ne_nil_of_mem (mem_allowedAbove.mpr ⟨member, reach⟩)
  obtain ⟨least, isLeast⟩ : ∃ least, leastCost (allowedAbove jump limited above c) = Option.some least := by
    cases h : allowedAbove jump limited above c with
    | nil => exact absurd h some
    | cons x xs => exact ⟨_, rfl⟩
  obtain ⟨⟨q, allowed, rfl⟩, below⟩ := leastCost_iff.mp isLeast
  obtain ⟨other, reached⟩ := mem_allowedAbove.mp allowed
  refine ⟨cost + q.2, mem_accumulate.mpr ⟨cost, candidate, q, other, reached, rfl, fun u more within => ?_⟩,
    Nat.add_le_add_left (below p (mem_allowedAbove.mpr ⟨member, reach⟩)) _⟩
  exact below u (mem_allowedAbove.mpr ⟨more, within⟩)

/-- With candidates above and below some are feasible. -/
theorem accumulate_ne_nil (some : above ≠ []) (candidates : costs ≠ []) :
    accumulate jump (jumpApplies jump above costs) above costs ≠ [] := by
  obtain ⟨p, member, c, candidate, reach⟩ : ∃ p ∈ above, ∃ c ∈ costs,
      jumpApplies jump above costs = true → |c.1 - p.1| ≤ (jump : Int) := by
    by_cases applies : jumpApplies jump above costs = true
    · obtain ⟨p, member, c, candidate, reach⟩ := jumpApplies_iff.mp applies
      exact ⟨p, member, c, candidate, fun _ => reach⟩
    · obtain ⟨p, member⟩ := List.exists_mem_of_ne_nil _ some
      obtain ⟨c, candidate⟩ := List.exists_mem_of_ne_nil _ candidates
      exact ⟨p, member, c, candidate, fun yes => absurd yes applies⟩
  obtain ⟨total, feasible, -⟩ := exists_accumulate candidate member reach
  exact List.ne_nil_of_mem feasible

end Step

/-! ## The bands from above downward (R113) -/

/-- What a band is below another, or as the first of its run. -/
def bandBelow (jump : Nat) (above : Option (List (Int × Nat))) (costs : List (Int × Nat)) : Option SeamBand :=
  match costs.head?, costs.getLast? with
  | some first, some last =>
    some (match above with
      | none => ⟨first.1, last.1, costs, false, false⟩
      | some feasible =>
        ⟨first.1, last.1, accumulate jump (jumpApplies jump feasible costs) feasible costs, true,
          jumpApplies jump feasible costs⟩)
  | _, _ => none

theorem accumulateBands_cons (jump : Nat) (above : Option (List (Int × Nat))) (costs : List (Int × Nat))
    (rest : List (List (Int × Nat))) : accumulateBands jump above (costs :: rest) =
      bandBelow jump above costs :: accumulateBands jump ((bandBelow jump above costs).map SeamBand.feasible) rest := by
  cases costs with
  | nil => rfl
  | cons x xs => cases above <;> simp [accumulateBands, bandBelow, List.getLast?_cons]

theorem accumulateBands_length (jump : Nat) : ∀ (above : Option (List (Int × Nat))) (costs : List (List (Int × Nat))),
    (accumulateBands jump above costs).length = costs.length
  | _, [] => rfl
  | above, costs :: rest => by
    rw [accumulateBands_cons, List.length_cons, List.length_cons, accumulateBands_length]

/-- Each band follows from the one above it. -/
theorem accumulateBands_getD (jump : Nat) (above : Option (List (Int × Nat))) (costs : List (List (Int × Nat))) (k : Nat) :
    (accumulateBands jump above costs).getD k none = bandBelow jump
      (if k = 0 then above else ((accumulateBands jump above costs).getD (k - 1) none).map SeamBand.feasible)
      (costs.getD k []) := by
  induction costs generalizing above k with
  | nil => simp [accumulateBands, bandBelow]
  | cons first rest ih =>
    rw [accumulateBands_cons]
    cases k with
    | zero => rfl
    | succ k =>
      rw [List.getD_cons_succ, List.getD_cons_succ, ih]
      cases k with
      | zero => rfl
      | succ k => rfl

section Band

variable {jump : Nat} {costs : List (List (Int × Nat))} {k : Nat}

/-- The bands of the seam choice. -/
def seamBands (jump : Nat) (costs : List (List (Int × Nat))) (k : Nat) : Option SeamBand :=
  (accumulateBands jump none costs).getD k none

theorem seamBands_of_empty (empty : costs.getD k [] = []) : seamBands jump costs k = none := by
  rw [seamBands, accumulateBands_getD, empty]
  rfl

section Ends

variable {first last : Int × Nat} (head : (costs.getD k []).head? = some first)
  (tail : (costs.getD k []).getLast? = some last)
include head tail

theorem seamBands_of_first (top : k = 0 ∨ costs.getD (k - 1) [] = []) :
    seamBands jump costs k = some ⟨first.1, last.1, costs.getD k [], false, false⟩ := by
  have none : (if k = 0 then none else ((accumulateBands jump none costs).getD (k - 1) none).map SeamBand.feasible) =
      none := by
    split
    · rfl
    · have empty := seamBands_of_empty (jump := jump) (top.resolve_left ‹_›)
      rw [seamBands] at empty
      rw [empty]
      rfl
  rw [seamBands, accumulateBands_getD, none, bandBelow, head, tail]

end Ends

theorem seamBands_of_above {above : SeamBand} {first last : Int × Nat}
    (head : (costs.getD (k + 1) []).head? = some first) (tail : (costs.getD (k + 1) []).getLast? = some last)
    (band : seamBands jump costs k = some above) : seamBands jump costs (k + 1) =
      some ⟨first.1, last.1,
        accumulate jump (jumpApplies jump above.feasible (costs.getD (k + 1) [])) above.feasible (costs.getD (k + 1) []),
        true, jumpApplies jump above.feasible (costs.getD (k + 1) [])⟩ := by
  rw [seamBands] at band
  rw [seamBands, accumulateBands_getD, if_neg (Nat.succ_ne_zero k), Nat.add_sub_cancel, band, bandBelow, head, tail]
  rfl

/-- A list with something in it has a first and a last. -/
theorem exists_ends {l : List (Int × Nat)} (some : l ≠ []) :
    ∃ first last, l.head? = Option.some first ∧ l.getLast? = Option.some last :=
  ⟨l.head some, l.getLast some, List.head?_eq_some_head some, List.getLast?_eq_some_getLast some⟩

/-- A band with candidates: its ends, and feasible candidates that are candidates. -/
theorem seamBands_of_candidates (some : costs.getD k [] ≠ []) :
    ∃ band, seamBands jump costs k = Option.some band ∧ band.feasible ≠ [] ∧
      (∀ p ∈ band.feasible, ∃ cost, (p.1, cost) ∈ costs.getD k []) ∧
      ∀ first last, (costs.getD k []).head? = Option.some first → (costs.getD k []).getLast? = Option.some last →
        band.first = first.1 ∧ band.last = last.1 := by
  induction k with
  | zero =>
    obtain ⟨first, last, head, tail⟩ := exists_ends some
    refine ⟨_, seamBands_of_first head tail (.inl rfl), some, fun p member => ⟨p.2, member⟩, fun f l hf hl => ?_⟩
    rw [head] at hf
    rw [tail] at hl
    cases hf
    cases hl
    exact ⟨rfl, rfl⟩
  | succ k ih =>
    obtain ⟨first, last, head, tail⟩ := exists_ends some
    have ends (f l : Int × Nat) (hf : (costs.getD (k + 1) []).head? = Option.some f)
        (hl : (costs.getD (k + 1) []).getLast? = Option.some l) : first.1 = f.1 ∧ last.1 = l.1 := by
      rw [head] at hf
      rw [tail] at hl
      cases hf
      cases hl
      exact ⟨rfl, rfl⟩
    by_cases top : costs.getD k [] = []
    · exact ⟨_, seamBands_of_first head tail (.inr top), some, fun p member => ⟨p.2, member⟩, ends⟩
    · obtain ⟨above, band, feasible, -⟩ := ih top
      refine ⟨_, seamBands_of_above head tail band, accumulate_ne_nil feasible some, fun p member => ?_, ends⟩
      obtain ⟨cost, candidate, -⟩ := mem_accumulate.mp member
      exact ⟨cost, candidate⟩

end Band

/-! ## The choice in a band (R114) -/

section Choice

/-- What the order of R114 compares, part after part. -/
def seamKey (middle2 : Int) (p : Int × Nat) : ℕ ×ₗ ℕ ×ₗ ℤ := toLex (p.2, toLex ((2 * p.1 - middle2).natAbs, p.1))

theorem beforeSeam_iff (middle2 : Int) (a b : Int × Nat) :
    beforeSeam middle2 a b = true ↔ seamKey middle2 a < seamKey middle2 b := by
  rw [beforeSeam, decide_eq_true_iff]
  simp only [seamKey, Prod.Lex.toLex_lt_toLex]

theorem seamKey_le_iff {middle2 : Int} {a b : Int × Nat} : seamKey middle2 a ≤ seamKey middle2 b ↔
    a.2 < b.2 ∨ (a.2 = b.2 ∧ (|2 * a.1 - middle2| < |2 * b.1 - middle2| ∨
      (|2 * a.1 - middle2| = |2 * b.1 - middle2| ∧ a.1 ≤ b.1))) := by
  simp only [seamKey, Prod.Lex.toLex_le_toLex, Int.abs_eq_natAbs, Nat.cast_lt, Nat.cast_inj]

/-- The seam of a list of options: one of them, and none comes before it. -/
theorem chooseSeam_spec (middle2 : Int) {options : List (Int × Nat)} (some : options ≠ []) :
    ∃ best ∈ options, chooseSeam middle2 options = Option.some best.1 ∧
      ∀ p ∈ options, seamKey middle2 best ≤ seamKey middle2 p := by
  cases options with
  | nil => exact absurd rfl some
  | cons x xs =>
    obtain ⟨inside, least⟩ := foldl_first (beforeSeam_iff middle2) xs x
    exact ⟨_, inside, rfl, least⟩

/-- A chosen seam is an option. -/
theorem mem_of_chooseSeam {middle2 : Int} {options : List (Int × Nat)} {c : Int}
    (chosen : chooseSeam middle2 options = some c) : ∃ total, (c, total) ∈ options := by
  have some : options ≠ [] := by rintro rfl; cases chosen
  obtain ⟨best, option, choice, -⟩ := chooseSeam_spec middle2 some
  obtain rfl := Option.some.inj (chosen.symm.trans choice)
  exact ⟨best.2, option⟩

end Choice

/-! ## The seams from below upward (R114) -/

/-- What a band hands to the one above it: its seam and whether the jump limit applies to it. -/
def seamLink (band : Option SeamBand) (seam : Option Int) : Option (Int × Bool) :=
  match band with
  | some band => if band.linked then seam.map fun c => (c, band.limited) else none
  | none => none

/-- The options of a band by what the band below hands it. -/
def seamOptions (jump : Nat) (below : Option (Int × Bool)) (band : SeamBand) : List (Int × Nat) :=
  match below with
  | none => band.feasible
  | some (c, limited) => allowedAbove jump limited band.feasible c

/-- The seam of a band by what the band below hands it. -/
def seamOf (jump : Nat) (below : Option (Int × Bool)) (band : Option SeamBand) : Option Int :=
  band.bind fun band => chooseSeam (band.first + band.last) (seamOptions jump below band)

theorem fixSeams_cons (jump : Nat) (below : Option (Int × Bool)) (band : Option SeamBand) (rest : List (Option SeamBand)) :
    fixSeams jump below (band :: rest) =
      seamOf jump below band :: fixSeams jump (seamLink band (seamOf jump below band)) rest := by
  cases band with
  | none => rfl
  | some band => rfl

theorem fixSeams_length (jump : Nat) : ∀ (below : Option (Int × Bool)) (bands : List (Option SeamBand)),
    (fixSeams jump below bands).length = bands.length
  | _, [] => rfl
  | below, band :: rest => by rw [fixSeams_cons, List.length_cons, List.length_cons, fixSeams_length]

/-- Each seam follows from that of the band below. -/
theorem fixSeams_getD (jump : Nat) (below : Option (Int × Bool)) (bands : List (Option SeamBand)) (j : Nat) :
    (fixSeams jump below bands).getD j none = seamOf jump
      (if j = 0 then below
      else seamLink (bands.getD (j - 1) none) ((fixSeams jump below bands).getD (j - 1) none))
      (bands.getD j none) := by
  induction bands generalizing below j with
  | nil => rfl
  | cons band rest ih =>
    rw [fixSeams_cons]
    cases j with
    | zero => rfl
    | succ j =>
      rw [List.getD_cons_succ, List.getD_cons_succ, ih]
      cases j with
      | zero => rfl
      | succ j => rfl

section Seams

variable {jump : Nat} {costs : List (List (Int × Nat))} {k : Nat}

theorem solveSeams_length : (solveSeams jump costs).length = costs.length := by
  rw [solveSeams, List.length_reverse, fixSeams_length, List.length_reverse, accumulateBands_length]

/-- A list read from its end. -/
theorem getD_reverse {α : Type} (l : List α) (d : α) {k : Nat} (inside : k < l.length) :
    l.reverse.getD (l.length - 1 - k) d = l.getD k d := by
  rw [List.getD_eq_getElem _ _ (by rw [List.length_reverse]; omega), List.getD_eq_getElem _ _ inside,
    List.getElem_reverse]
  congr 1
  omega

/-- A band's seam is chosen among what the seam below it allows. -/
theorem solveSeams_getD : (solveSeams jump costs).getD k none = seamOf jump
    (seamLink (seamBands jump costs (k + 1)) ((solveSeams jump costs).getD (k + 1) none)) (seamBands jump costs k) := by
  have beyond {j : Nat} (out : costs.length ≤ j) : seamBands jump costs j = none :=
    seamBands_of_empty (List.getD_eq_default _ _ out)
  by_cases inside : k < costs.length
  · have length := solveSeams_length (jump := jump) (costs := costs)
    have bands := accumulateBands_length jump none costs
    have seams {j : Nat} (within : j < costs.length) :
        (solveSeams jump costs).getD j none =
          (fixSeams jump none (accumulateBands jump none costs).reverse).getD (costs.length - 1 - j) none := by
      have read := getD_reverse (solveSeams jump costs) none (k := j) (by omega)
      rw [length, solveSeams, List.reverse_reverse] at read
      exact read.symm
    have read {j : Nat} (within : j < costs.length) :
        (accumulateBands jump none costs).reverse.getD (costs.length - 1 - j) none = seamBands jump costs j := by
      rw [← bands, getD_reverse _ _ (by omega), seamBands]
    rw [seams inside]
    refine (fixSeams_getD ..).trans ?_
    rw [read inside]
    congr 1
    split
    · rw [beyond (by omega), seamLink]
    · have next : k + 1 < costs.length := by omega
      rw [show costs.length - 1 - k - 1 = costs.length - 1 - (k + 1) by omega, read next, seams next]
  · rw [List.getD_eq_default _ _ (by rw [solveSeams_length]; omega), beyond (j := k) (by omega)]
    rfl

theorem solveSeams_of_empty (empty : costs.getD k [] = []) : (solveSeams jump costs).getD k none = none := by
  rw [solveSeams_getD, seamBands_of_empty empty]
  rfl

/-- The candidates of band k that the seam below allows. -/
def seamAllowed (jump : Nat) (costs : List (List (Int × Nat))) (k : Nat) (band : SeamBand) (p : Int × Nat) : Prop :=
  p ∈ band.feasible ∧ ∀ below, (solveSeams jump costs).getD (k + 1) none = some below →
    jumpApplies jump band.feasible (costs.getD (k + 1) []) = true → |below - p.1| ≤ jump

theorem mem_seamOptions {band : SeamBand} (hband : seamBands jump costs k = some band) (p : Int × Nat) :
    p ∈ seamOptions jump (seamLink (seamBands jump costs (k + 1)) ((solveSeams jump costs).getD (k + 1) none)) band ↔
      seamAllowed jump costs k band p := by
  unfold seamAllowed
  by_cases empty : costs.getD (k + 1) [] = []
  · rw [seamBands_of_empty empty, solveSeams_of_empty empty]
    simp [seamLink, seamOptions]
  · obtain ⟨first, last, head, tail⟩ := exists_ends empty
    rw [seamBands_of_above head tail hband]
    cases (solveSeams jump costs).getD (k + 1) none with
    | none => simp [seamLink, seamOptions]
    | some below => simp [seamLink, seamOptions, mem_allowedAbove]

/-- A band's seam is the first of those that the seam below allows. -/
theorem solveSeams_of_allowed {band : SeamBand} (hband : seamBands jump costs k = some band)
    (allowed : ∃ p, seamAllowed jump costs k band p) : ∃ best, seamAllowed jump costs k band best ∧
      (solveSeams jump costs).getD k none = some best.1 ∧
      ∀ p, seamAllowed jump costs k band p → seamKey (band.first + band.last) best ≤ seamKey (band.first + band.last) p := by
  obtain ⟨p, allowed⟩ := allowed
  obtain ⟨best, option, seam, least⟩ := chooseSeam_spec (band.first + band.last)
    (List.ne_nil_of_mem ((mem_seamOptions hband p).mpr allowed))
  refine ⟨best, (mem_seamOptions hband best).mp option, ?_,
    fun q other => least q ((mem_seamOptions hband q).mpr other)⟩
  rw [solveSeams_getD, hband]
  exact seam

/-- Every band with candidates has a seam: a seam below has a predecessor that it allows. -/
theorem exists_seamAllowed {band : SeamBand} (hband : seamBands jump costs k = some band) (feasible : band.feasible ≠ []) :
    ∃ p, seamAllowed jump costs k band p := by
  by_cases empty : costs.getD (k + 1) [] = []
  · obtain ⟨p, member⟩ := List.exists_mem_of_ne_nil _ feasible
    refine ⟨p, member, fun below seam => ?_⟩
    rw [solveSeams_of_empty empty] at seam
    cases seam
  · obtain ⟨first, last, head, tail⟩ := exists_ends empty
    have below := seamBands_of_above head tail hband
    cases seam : (solveSeams jump costs).getD (k + 1) none with
    | none =>
      obtain ⟨p, member⟩ := List.exists_mem_of_ne_nil _ feasible
      exact ⟨p, member, fun c other => by rw [seam] at other; cases other⟩
    | some c =>
      have chosen := solveSeams_getD (jump := jump) (costs := costs) (k := k + 1)
      rw [seam, below, seamOf, Option.bind_some] at chosen
      obtain ⟨total, member⟩ := mem_of_chooseSeam chosen.symm
      have inside := ((mem_seamOptions below (c, total)).mp member).1
      obtain ⟨cost, -, p, reached, within, -⟩ := mem_accumulate.mp inside
      refine ⟨p, reached, fun d other applies => ?_⟩
      obtain rfl := Option.some.inj (seam.symm.trans other)
      exact within applies

/-- A band with candidates has a seam: the first of those that the seam below allows. -/
theorem solveSeams_best (some : costs.getD k [] ≠ []) : ∃ band best,
    seamBands jump costs k = Option.some band ∧ seamAllowed jump costs k band best ∧
      (solveSeams jump costs).getD k none = Option.some best.1 ∧
      ∀ p, seamAllowed jump costs k band p → seamKey (band.first + band.last) best ≤ seamKey (band.first + band.last) p := by
  obtain ⟨band, hband, feasible, -⟩ := seamBands_of_candidates (jump := jump) some
  obtain ⟨best, chosen⟩ := solveSeams_of_allowed hband (exists_seamAllowed hband feasible)
  exact ⟨band, best, hband, chosen⟩

end Seams

/-! ## The least total cost of a run -/

section Run

variable {jump : Nat} {costs : List (List (Int × Nat))} {n m : Nat}

/-- What the seams of a run and the accumulated costs of their bands are, band by band. -/
structure SeamRun (jump : Nat) (costs : List (List (Int × Nat))) (n m : Nat) (best : Nat → Int × Nat) : Prop where
  seam : ∀ k, n ≤ k → k ≤ m → (solveSeams jump costs).getD k none = some (best k).1
  first : best n ∈ costs.getD n []
  next : ∀ k, n ≤ k → k < m → ∃ cost, ((best (k + 1)).1, cost) ∈ costs.getD (k + 1) [] ∧
    (best (k + 1)).2 = cost + (best k).2
  last : ∀ band, seamBands jump costs m = some band → ∀ p ∈ band.feasible, (best m).2 ≤ p.2

/-- A band's seam with its own cost, from the accumulated costs of a run. -/
def ownCost (best : Nat → Int × Nat) (n k : Nat) : Int × Nat :=
  ((best k).1, if k = n then (best k).2 else (best k).2 - (best (k - 1)).2)

variable (order : n ≤ m) (candidates : ∀ k, n ≤ k → k ≤ m → costs.getD k [] ≠ [])
  (top : n = 0 ∨ costs.getD (n - 1) [] = [])
include order candidates top

/-- The first band of a run has its candidates with their costs. -/
theorem seamBands_of_top : ∃ band, seamBands jump costs n = some band ∧ band.feasible = costs.getD n [] := by
  obtain ⟨first, last, head, tail⟩ := exists_ends (candidates n le_rfl order)
  exact ⟨_, seamBands_of_first head tail top, rfl⟩

/-- A choice that keeps to the limit is feasible in each of its bands, at no more than its total cost so far. -/
theorem exists_feasible_of_choice {other : Nat → Int × Nat} (chosen : ∀ k, n ≤ k → k ≤ m → other k ∈ costs.getD k [])
    (keeps : ∀ (k : Nat) (above : SeamBand), n ≤ k → k < m → seamBands jump costs k = some above →
      jumpApplies jump above.feasible (costs.getD (k + 1) []) = true → |(other (k + 1)).1 - (other k).1| ≤ jump)
    (j : Nat) (inside : n + j ≤ m) : ∃ band total, seamBands jump costs (n + j) = some band ∧
      ((other (n + j)).1, total) ∈ band.feasible ∧
      total ≤ ((List.range (j + 1)).map fun d => (other (n + d)).2).sum := by
  induction j with
  | zero =>
    obtain ⟨band, hband, feasible⟩ := seamBands_of_top (jump := jump) order candidates top
    refine ⟨band, (other n).2, hband, feasible ▸ chosen n le_rfl order, ?_⟩
    simp
  | succ j ih =>
    obtain ⟨above, total, hband, member, least⟩ := ih (by omega)
    obtain ⟨first, last, head, tail⟩ := exists_ends (candidates (n + j + 1) (by omega) inside)
    obtain ⟨next, feasible, below⟩ := exists_accumulate
      (limited := jumpApplies jump above.feasible (costs.getD (n + j + 1) []))
      (chosen (n + j + 1) (by omega) inside) member (keeps (n + j) above (by omega) (by omega) hband)
    refine ⟨_, next, seamBands_of_above head tail hband, feasible, ?_⟩
    rw [List.range_succ, List.map_append, List.sum_append, List.map_singleton, List.sum_singleton]
    show next ≤ _ + (other (n + j + 1)).2
    omega

/-- The seams of a run are those of `solveSeams_best`, band by band. -/
theorem exists_seamRun (bottom : costs.getD (m + 1) [] = []) : ∃ best, SeamRun jump costs n m best := by
  have each (k : Nat) : ∃ best : Int × Nat, n ≤ k → k ≤ m → ∃ band, seamBands jump costs k = some band ∧
      seamAllowed jump costs k band best ∧ (solveSeams jump costs).getD k none = some best.1 ∧
      ∀ p, seamAllowed jump costs k band p → best.2 ≤ p.2 := by
    by_cases inside : n ≤ k ∧ k ≤ m
    · obtain ⟨band, best, hband, allowed, seam, least⟩ := solveSeams_best (candidates k inside.1 inside.2)
      refine ⟨best, fun _ _ => ⟨band, hband, allowed, seam, fun p other => ?_⟩⟩
      rcases seamKey_le_iff.mp (least p other) with less | ⟨same, -⟩
      · exact less.le
      · exact same.le
    · exact ⟨(0, 0), fun low high => absurd ⟨low, high⟩ inside⟩
  choose best spec using each
  refine ⟨best, fun k low high => ?_, ?_, fun k low high => ?_, fun band hband p member => ?_⟩
  · obtain ⟨-, -, -, seam, -⟩ := spec k low high
    exact seam
  · obtain ⟨band, hband, ⟨member, -⟩, -⟩ := spec n le_rfl order
    obtain ⟨band', hband', feasible⟩ := seamBands_of_top (jump := jump) order candidates top
    obtain rfl := Option.some.inj (hband.symm.trans hband')
    exact feasible ▸ member
  · obtain ⟨above, hband, ⟨memberAbove, reachAbove⟩, -, leastAbove⟩ := spec k low (by omega)
    obtain ⟨below, hbelow, ⟨member, -⟩, seam, -⟩ := spec (k + 1) (by omega) high
    obtain ⟨first, last, head, tail⟩ := exists_ends (candidates (k + 1) (by omega) high)
    obtain rfl := Option.some.inj ((seamBands_of_above head tail hband).symm.trans hbelow)
    obtain ⟨cost, candidate, p, reached, within, total, least⟩ := mem_accumulate.mp member
    refine ⟨cost, candidate, total.trans (congrArg (cost + ·) (le_antisymm ?_ ?_))⟩
    · exact least (best k) memberAbove (reachAbove _ seam)
    · refine leastAbove p ⟨reached, fun c other applies => ?_⟩
      obtain rfl := Option.some.inj (seam.symm.trans other)
      exact within applies
  · obtain ⟨band', hband', -, -, least⟩ := spec m order le_rfl
    obtain rfl := Option.some.inj (hband.symm.trans hband')
    refine least p ⟨member, fun c other => ?_⟩
    rw [solveSeams_of_empty bottom] at other
    cases other

/-- The seams of a run have the least total cost of all choices that keep to the limit. -/
theorem seams_least (bottom : costs.getD (m + 1) [] = []) : ∃ seam : Nat → Int × Nat,
    (∀ k, n ≤ k → k ≤ m → seam k ∈ costs.getD k [] ∧ (solveSeams jump costs).getD k none = some (seam k).1) ∧
    ∀ other : Nat → Int × Nat, (∀ k, n ≤ k → k ≤ m → other k ∈ costs.getD k []) →
      (∀ (k : Nat) (above : SeamBand), n ≤ k → k < m → seamBands jump costs k = some above →
        jumpApplies jump above.feasible (costs.getD (k + 1) []) = true → |(other (k + 1)).1 - (other k).1| ≤ jump) →
      ((List.range (m + 1 - n)).map fun d => (seam (n + d)).2).sum ≤
        ((List.range (m + 1 - n)).map fun d => (other (n + d)).2).sum := by
  obtain ⟨best, run⟩ := exists_seamRun (jump := jump) order candidates top bottom
  have step (k : Nat) (low : n ≤ k) (high : k < m) :
      ownCost best n (k + 1) ∈ costs.getD (k + 1) [] ∧ (ownCost best n (k + 1)).2 + (best k).2 = (best (k + 1)).2 := by
    obtain ⟨cost, candidate, total⟩ := run.next k low high
    have own : (ownCost best n (k + 1)).2 = cost := by
      show (if k + 1 = n then _ else _) = cost
      rw [if_neg (by omega), Nat.add_sub_cancel, total, Nat.add_sub_cancel]
    exact ⟨by rw [show ownCost best n (k + 1) = ((best (k + 1)).1, cost) from Prod.ext rfl own]; exact candidate, by omega⟩
  have begin : ownCost best n n = best n := Prod.ext rfl (if_pos rfl)
  have accumulated (j : Nat) (inside : n + j ≤ m) :
      ((List.range (j + 1)).map fun d => (ownCost best n (n + d)).2).sum = (best (n + j)).2 := by
    induction j with
    | zero => simp [begin]
    | succ j ih =>
      rw [List.range_succ, List.map_append, List.sum_append, List.map_singleton, List.sum_singleton, ih (by omega)]
      have next := (step (n + j) (by omega) (by omega)).2
      show _ + (ownCost best n (n + j + 1)).2 = (best (n + j + 1)).2
      omega
  refine ⟨ownCost best n, fun k low high => ⟨?_, run.seam k low high⟩, fun other chosen keeps => ?_⟩
  · rcases Nat.eq_or_lt_of_le low with rfl | later
    · rw [begin]
      exact run.first
    · obtain ⟨k, rfl⟩ : ∃ i, k = i + 1 := ⟨k - 1, by omega⟩
      exact (step k (by omega) (by omega)).1
  · obtain ⟨j, rfl⟩ : ∃ j, m = n + j := ⟨m - n, by omega⟩
    rw [show n + j + 1 - n = j + 1 by omega, accumulated j le_rfl]
    obtain ⟨band, total, hband, member, least⟩ := exists_feasible_of_choice order candidates top chosen keeps j le_rfl
    exact (run.last band hband _ member).trans least

end Run

/-! ## The statement -/

/-- A band below another, once both have candidates. -/
theorem seams_follow {jump : Nat} {costs : List (List (Int × Nat))} {k : Nat} {above : SeamBand}
    (hband : seamBands jump costs k = some above) (some : costs.getD (k + 1) [] ≠ []) :
    (∃ below, seamBands jump costs (k + 1) = Option.some below ∧ below.feasible ≠ [] ∧
      ∀ (c : Int) (total : Nat), (c, total) ∈ below.feasible ↔
        ∃ cost, (c, cost) ∈ costs.getD (k + 1) [] ∧
          ∃ p ∈ above.feasible, (jumpApplies jump above.feasible (costs.getD (k + 1) []) = true → |c - p.1| ≤ jump) ∧
            total = cost + p.2 ∧ ∀ q ∈ above.feasible,
              (jumpApplies jump above.feasible (costs.getD (k + 1) []) = true → |c - q.1| ≤ jump) → p.2 ≤ q.2) ∧
    (jumpApplies jump above.feasible (costs.getD (k + 1) []) = true →
      ∃ a c : Int, (solveSeams jump costs).getD k none = Option.some a ∧
        (solveSeams jump costs).getD (k + 1) none = Option.some c ∧ |c - a| ≤ jump) := by
  obtain ⟨first, last, head, tail⟩ := exists_ends some
  have hbelow := seamBands_of_above head tail hband
  have inhabited : above.feasible ≠ [] := by
    by_cases empty : costs.getD k [] = []
    · rw [seamBands_of_empty empty] at hband
      cases hband
    · obtain ⟨band, hband', feasible, -⟩ := seamBands_of_candidates (jump := jump) empty
      obtain rfl := Option.some.inj (hband.symm.trans hband')
      exact feasible
  refine ⟨⟨_, hbelow, accumulate_ne_nil inhabited some, fun c total => mem_accumulate⟩, fun applies => ?_⟩
  obtain ⟨best, ⟨member, reach⟩, seam, -⟩ := solveSeams_of_allowed hband (exists_seamAllowed hband inhabited)
  obtain ⟨_, below, -, -, seamBelow, -⟩ := solveSeams_best (jump := jump) some
  exact ⟨best.1, below.1, seam, seamBelow, reach _ seamBelow applies⟩

/-- Settles O41: the bands by `seamBands_of_first` and `seams_follow`, the choice by `solveSeams_of_allowed`, the total by
`seams_least`. -/
theorem seamsAreCandidates : Obligations.SeamsAreCandidates := by
  refine ⟨fun jump costs => ⟨solveSeams_length, fun k empty => solveSeams_of_empty empty, fun k some => ?_,
    fun k some top => ?_, fun k above hband some => seams_follow hband some⟩, ?_, ?_⟩
  · obtain ⟨band, best, hband, ⟨member, -⟩, seam, -⟩ := solveSeams_best (jump := jump) some
    obtain ⟨band', hband', -, candidate, -⟩ := seamBands_of_candidates (jump := jump) some
    obtain rfl := Option.some.inj (hband.symm.trans hband')
    obtain ⟨cost, candidate⟩ := candidate best member
    exact ⟨best.1, cost, seam, candidate⟩
  · obtain ⟨first, last, head, tail⟩ := exists_ends some
    exact congrArg (Option.map SeamBand.feasible) (seamBands_of_first (jump := jump) head tail top)
  · intro jump costs k band first last allowed hband head tail same
    have some : costs.getD k [] ≠ [] := by intro empty; rw [empty] at head; cases head
    obtain ⟨band', hband', feasible, -, ends⟩ := seamBands_of_candidates (jump := jump) some
    obtain rfl := Option.some.inj (hband.symm.trans hband')
    obtain rfl : allowed = seamAllowed jump costs k band := funext fun p => propext (same p)
    obtain ⟨best, isAllowed, seam, least⟩ := solveSeams_of_allowed hband (exists_seamAllowed hband feasible)
    obtain ⟨low, high⟩ := ends first last head tail
    refine ⟨best, isAllowed, seam, fun p other => ?_⟩
    rw [← low, ← high]
    exact seamKey_le_iff.mp (least p other)
  · intro jump costs n m order candidates top bottom
    exact seams_least order candidates top bottom

end Sys2Proof.Machine
end

section
/-! SUPPORT. What a strip writes, cell by cell: its columns, the candidates' costs and the pixels (R111 to R117). -/

namespace Sys2Proof.Machine

/-! ## The written columns -/

section Columns

variable {cfg : Configuration} {store : CanvasStore} {dir : Direction} {front : Int} {job : StripJob} {k : Nat}

theorem mem_writtenColumns {seams : List (Option Int)} {x : Int} :
    x ∈ writtenColumns cfg front job seams k ↔ writeStart cfg front job seams k ≤ x ∧ x < job.newFront := by
  simp only [writtenColumns, List.mem_map, List.mem_range]
  constructor
  · rintro ⟨i, inside, rfl⟩; omega
  · rintro ⟨low, high⟩
    exact ⟨(x - writeStart cfg front job seams k).toNat, by omega, by omega⟩

/-- The seam of a band with candidates is one of them. -/
theorem mem_of_solveSeams {jump : Nat} {costs : List (List (Int × Nat))} {c : Int}
    (seam : (solveSeams jump costs).getD k none = some c) : c ∈ (costs.getD k []).map Prod.fst := by
  by_cases empty : costs.getD k [] = []
  · rw [solveSeams_of_empty empty] at seam
    cases seam
  · obtain ⟨band, best, hband, ⟨feasible, -⟩, chosen, -⟩ := solveSeams_best (jump := jump) empty
    obtain ⟨other, same, -, candidates, -⟩ := seamBands_of_candidates (jump := jump) empty
    obtain rfl := Option.some.inj (hband.symm.trans same)
    obtain ⟨cost, candidate⟩ := candidates best feasible
    obtain rfl := Option.some.inj (chosen.symm.trans seam)
    exact List.mem_map.mpr ⟨_, candidate, rfl⟩

theorem getD_bandCosts (inside : k < 8) :
    (bands.map (bandCosts cfg store dir front job)).getD k [] = bandCosts cfg store dir front job k := by
  have place : bands[k]? = some k := by
    interval_cases k <;> rfl
  rw [List.getD_eq_getElem?_getD, List.getElem?_map, place]
  rfl

theorem mem_seamCandidates_of_seam {c : Int} (ordinary : job.strip0 = false) (inside : k < 8)
    (seam : (stripSeams cfg store dir front job).getD k none = some c) :
    c ∈ seamCandidates cfg front (job.edges.getD k 0) := by
  rw [stripSeams, ordinary, if_neg (by decide)] at seam
  have candidate := mem_of_solveSeams seam
  rw [getD_bandCosts inside, bandCosts, List.map_map] at candidate
  obtain ⟨d, member, rfl⟩ := List.mem_map.mp candidate
  exact member

/-- A column that a strip other than strip 0 writes begins behind its band's edge and the reach of its seam. -/
theorem writeStart_bounds (ordinary : job.strip0 = false) (inside : k < 8) :
    job.edges.getD k 0 ≤ writeStart cfg front job (stripSeams cfg store dir front job) k ∧
      front - cfg.seamReach - (cfg.blend / 2 : Nat) ≤ writeStart cfg front job (stripSeams cfg store dir front job) k := by
  rw [writeStart, ordinary, if_neg (by decide)]
  cases seam : (stripSeams cfg store dir front job).getD k none with
  | none => dsimp only; omega
  | some c =>
    obtain ⟨-, edge, reach, -⟩ := (mem_seamCandidates ..).mp (mem_seamCandidates_of_seam ordinary inside seam)
    dsimp only
    omega

end Columns

/-! ## The cells and the pixels -/

section Cells

variable {cfg : Configuration} {store : CanvasStore} {dir : Direction} {front clean : Int} {job : StripJob}
  {seams : List (Option Int)} {k row : Nat} {x : Int}

/-- The row lies in band k. -/
def inBand (cfg : Configuration) (k row : Nat) : Prop := k * bandRows cfg ≤ row ∧ row < (k + 1) * bandRows cfg

/-- The column is written in band k. -/
def cellWritten (cfg : Configuration) (store : CanvasStore) (k : Nat) (x : Int) : Prop :=
  k * 16384 + storedColumn cfg x ∈ store.coverage

theorem coverageFlag_iff :
    flagSet store.coverage (coverageIndex k (storedColumn cfg x)) = true ↔ cellWritten cfg store k x := by
  simp [flagSet, coverageIndex, cellWritten]

theorem readCell_of_written (band : inBand cfg k row) (written : cellWritten cfg store k x) :
    readCell cfg store (storedColumn cfg x) row =
      ⟨memRead store.mem (cellAddress cfg (storedColumn cfg x) row),
        memRead store.mem (cellAddress cfg (storedColumn cfg x) row + 1), true⟩ := by
  rw [readCell, bandOfRow_of_row cfg band.1 band.2, if_pos (coverageFlag_iff.mpr written)]

theorem readCell_of_unwritten (band : inBand cfg k row) (unwritten : ¬cellWritten cfg store k x) :
    readCell cfg store (storedColumn cfg x) row =
      ⟨store.fill.y, fillChroma store.fill (storedColumn cfg x), false⟩ := by
  rw [readCell, bandOfRow_of_row cfg band.1 band.2, if_neg (mt coverageFlag_iff.mp unwritten)]

/-- The column lies in the zone around band k's seam (R116). -/
def inSeamZone (cfg : Configuration) (seams : List (Option Int)) (k : Nat) (x : Int) : Prop :=
  ∃ c, seams.getD k none = some c ∧ c - (cfg.blend / 2 : Nat) ≤ x ∧ x < c + (cfg.blend / 2 : Nat)

/-- The column lies in the reverse zone of a closing strip (R117). -/
def inReverseZone (cfg : Configuration) (clean : Int) (job : StripJob) (x : Int) : Prop :=
  job.cls = .closing ∧ clean + (ringWidth cfg : Int) - cfg.blend ≤ x

theorem stripPixel_of_unwritten (unwritten : (readCell cfg store (storedColumn cfg x) row).written = false) :
    stripPixel cfg store dir clean job seams k x row =
      (newLuma cfg store dir job k x row, newChroma cfg store dir job k x row) := by
  rw [stripPixel, unwritten]
  rfl

theorem stripPixel_of_outside (zone : ¬inSeamZone cfg seams k x) (reverse : ¬inReverseZone cfg clean job x) :
    stripPixel cfg store dir clean job seams k x row =
      (newLuma cfg store dir job k x row, newChroma cfg store dir job k x row) := by
  rw [stripPixel]
  dsimp only
  split
  · split
    · rename_i seam
      rw [if_neg fun inside => zone ⟨_, seam, inside⟩]
      exact if_neg reverse
    · exact if_neg reverse
  · rfl

theorem stripPixel_of_zone {c : Int} (written : (readCell cfg store (storedColumn cfg x) row).written = true)
    (seam : seams.getD k none = some c) (zone : inSeamZone cfg seams k x) :
    stripPixel cfg store dir clean job seams k x row =
      (mixBytes (blendValue cfg.blend (x - (c - (cfg.blend / 2 : Nat))).toNat)
          (readCell cfg store (storedColumn cfg x) row).y (newLuma cfg store dir job k x row),
        mixBytes (blendValue cfg.blend
            ((x - (c - (cfg.blend / 2 : Nat))).toNat - (x - (c - (cfg.blend / 2 : Nat))).toNat % 2))
          (readCell cfg store (storedColumn cfg x) row).c (newChroma cfg store dir job k x row)) := by
  obtain ⟨d, other, inside⟩ := zone
  obtain rfl := Option.some.inj (seam.symm.trans other)
  rw [stripPixel]
  simp only [written, seam, if_true]
  rw [if_pos inside]

theorem stripPixel_of_reverse (written : (readCell cfg store (storedColumn cfg x) row).written = true)
    (zone : ¬inSeamZone cfg seams k x) (reverse : inReverseZone cfg clean job x) :
    stripPixel cfg store dir clean job seams k x row =
      (mixBytes (reverseValue cfg.blend (x - (clean + (ringWidth cfg : Int) - cfg.blend)).toNat)
          (readCell cfg store (storedColumn cfg x) row).y (newLuma cfg store dir job k x row),
        mixBytes (reverseValue cfg.blend
            ((x - (clean + (ringWidth cfg : Int) - cfg.blend)).toNat -
              (x - (clean + (ringWidth cfg : Int) - cfg.blend)).toNat % 2))
          (readCell cfg store (storedColumn cfg x) row).c (newChroma cfg store dir job k x row)) := by
  rw [stripPixel]
  simp only [written, if_true]
  split
  · rename_i seam
    rw [if_neg fun inside => zone ⟨_, seam, inside⟩]
    exact if_pos reverse
  · exact if_pos reverse

theorem frameColumn_eq (cfg : Configuration) (dir : Direction) (u : Nat) :
    frameColumn cfg dir u = if dir = .minus then cfg.frameWidth - 1 - u else u := by
  cases dir <;> rfl

/-- The cost of a candidate, row by row of its band (R112). -/
theorem seamCost_eq (c : Int) : seamCost cfg store dir job k c = ((List.range (bandRows cfg)).map fun r =>
    (((readCell cfg store (storedColumn cfg c) (k * bandRows cfg + r)).y.toNat : Int) -
      (newLuma cfg store dir job k c (k * bandRows cfg + r)).toNat).natAbs).sum := by
  rw [seamCost, rowsOfBand, List.map_map]
  rfl

theorem inBand_add {r : Nat} (inside : r < bandRows cfg) : inBand cfg k (k * bandRows cfg + r) :=
  ⟨by omega, by rw [Nat.add_mul]; omega⟩

end Cells

/-! ## The values that enter the pixels -/

/-- The values of the new and the old cells of a strip, by band, column and row. -/
structure CellValues (cfg : Configuration) (store : CanvasStore) (dir : Direction) (job : StripJob)
    (newY newC oldY oldC : Nat → Int → Nat → Byte) : Prop where
  newY : ∀ k x row, newY k x row = newLuma cfg store dir job k x row
  newC : ∀ k x row, newC k x row = newChroma cfg store dir job k x row
  oldY : ∀ k x row, inBand cfg k row → oldY k x row = (readCell cfg store (storedColumn cfg x) row).y
  oldC : ∀ k x row, inBand cfg k row → cellWritten cfg store k x →
    oldC k x row = (readCell cfg store (storedColumn cfg x) row).c

section Values

variable {cfg : Configuration} {store : CanvasStore} {dir : Direction} {front clean : Int} {job : StripJob}
  {seams : List (Option Int)} {newY newC oldY oldC : Nat → Int → Nat → Byte}

/-- The values as their addresses give them (R77, R133, R134, R139). -/
theorem CellValues.of_addresses {edge : Nat → Int} {line : Nat → Nat} {column chroma : Nat → Int → Nat}
    {written : Nat → Int → Prop} (edges : ∀ k, edge k = job.edges.getD k 0)
    (lines : ∀ row, line row = ((row : Int) + cfg.margin + job.yP).toNat)
    (columns : ∀ k x, column k x =
      if dir = .minus then cfg.frameWidth - 1 - (x - edge k).toNat else (x - edge k).toNat)
    (chromas : ∀ k x, chroma k x = 2 * (column k x / 2) + (x - edge k).toNat % 2)
    (luma : ∀ k x row, newY k x row = memRead store.mem (slotAddress cfg job.slot (line row) (column k x)))
    (sample : ∀ k x row, newC k x row = memRead store.mem (slotAddress cfg job.slot (line row) (chroma k x) + 1))
    (flag : ∀ k x, written k x ↔ k * 16384 + storedColumn cfg x ∈ store.coverage)
    (old : ∀ k x row, written k x →
      oldY k x row = memRead store.mem (cellAddress cfg (storedColumn cfg x) row) ∧
      oldC k x row = memRead store.mem (cellAddress cfg (storedColumn cfg x) row + 1))
    (fill : ∀ k x row, ¬written k x → oldY k x row = store.fill.y) :
    CellValues cfg store dir job newY newC oldY oldC where
  newY k x row := by
    rw [luma, lines, columns, edges, newLuma, slotLuma, frameColumn_eq]
  newC k x row := by
    rw [sample, lines, chromas, columns, edges, newChroma, slotChroma, chromaColumn, frameColumn_eq]
  oldY k x row band := by
    by_cases set : written k x
    · rw [(old k x row set).1, readCell_of_written band ((flag k x).mp set)]
    · rw [fill k x row set, readCell_of_unwritten band (mt (flag k x).mpr set)]
  oldC k x row band set := by
    rw [(old k x row ((flag k x).mpr set)).2, readCell_of_written band set]

variable (values : CellValues cfg store dir job newY newC oldY oldC)

include values

/-- The costs of a band's candidates (R112). -/
theorem CellValues.bandCosts_eq (k : Nat) : bandCosts cfg store dir front job k =
    (seamCandidates cfg front (job.edges.getD k 0)).map fun c =>
      (c, ((List.range (bandRows cfg)).map fun r =>
        (((oldY k c (k * bandRows cfg + r)).toNat : Int) - (newY k c (k * bandRows cfg + r)).toNat).natAbs).sum) := by
  refine List.map_congr_left fun c _ => ?_
  rw [seamCost_eq]
  have same : ∀ r ∈ List.range (bandRows cfg),
      (((readCell cfg store (storedColumn cfg c) (k * bandRows cfg + r)).y.toNat : Int) -
        (newLuma cfg store dir job k c (k * bandRows cfg + r)).toNat).natAbs =
      (((oldY k c (k * bandRows cfg + r)).toNat : Int) - (newY k c (k * bandRows cfg + r)).toNat).natAbs := by
    intro r inside
    rw [values.oldY k c _ (inBand_add (List.mem_range.mp inside)), values.newY]
  rw [List.map_congr_left same]

variable {k row : Nat} {x : Int}

/-- The frame's pixel goes where the old cell is unwritten or no zone holds the column (R115). -/
theorem CellValues.pixel_new (band : inBand cfg k row)
    (free : ¬cellWritten cfg store k x ∨ (¬inSeamZone cfg seams k x ∧ ¬inReverseZone cfg clean job x)) :
    stripPixel cfg store dir clean job seams k x row = (newY k x row, newC k x row) := by
  rw [values.newY, values.newC]
  rcases free with unwritten | ⟨zone, reverse⟩
  · exact stripPixel_of_unwritten (by rw [readCell_of_unwritten band unwritten])
  · exact stripPixel_of_outside zone reverse

/-- The blend in the zone around the seam (R116). -/
theorem CellValues.pixel_blend {c : Int} (band : inBand cfg k row) (written : cellWritten cfg store k x)
    (seam : seams.getD k none = some c) (zone : inSeamZone cfg seams k x) {z : Nat}
    (index : z = (x - (c - (cfg.blend / 2 : Nat))).toNat) :
    stripPixel cfg store dir clean job seams k x row =
      (mixBytes (blendValue cfg.blend z) (oldY k x row) (newY k x row),
        mixBytes (blendValue cfg.blend (z - z % 2)) (oldC k x row) (newC k x row)) := by
  rw [values.newY, values.newC, values.oldY k x row band, values.oldC k x row band written, index]
  exact stripPixel_of_zone (by rw [readCell_of_written band written]) seam zone

/-- The reverse blend in the last columns of a closing strip (R117). -/
theorem CellValues.pixel_reverse (band : inBand cfg k row) (written : cellWritten cfg store k x)
    (zone : ¬inSeamZone cfg seams k x) (reverse : inReverseZone cfg clean job x) {z : Nat}
    (index : z = (x - (clean + (ringWidth cfg : Int) - cfg.blend)).toNat) :
    stripPixel cfg store dir clean job seams k x row =
      (mixBytes (blendValue cfg.blend z) (newY k x row) (oldY k x row),
        mixBytes (blendValue cfg.blend (z - z % 2)) (newC k x row) (oldC k x row)) := by
  rw [values.newY, values.newC, values.oldY k x row band, values.oldC k x row band written, index]
  exact stripPixel_of_reverse (by rw [readCell_of_written band written]) zone reverse

end Values

end Sys2Proof.Machine
end

section
/-! SUPPORT. No operation leaves a strip in compositing whose choice is already made, unless it found one: the choice is
made where a command settles (R111 to R117, log entry 26). -/

namespace Sys2Proof.Machine

/-- A strip is in compositing and its seams are chosen. -/
def stripChosen (s : State) : Prop := s.comp.state = .compositing ∧ s.comp.job.map StripJob.planned = some true

/-- A strip in compositing is chosen only if `C` holds. -/
def ChosenOnlyIf (C : Prop) (s : State) : Prop := stripChosen s → C

section Operations

variable {C : Prop} {s : State}

theorem ChosenOnlyIf.of_same {t : State} (h : ChosenOnlyIf C s) (state : t.comp.state = s.comp.state)
    (job : t.comp.job = s.comp.job) : ChosenOnlyIf C t :=
  fun ⟨composites, planned⟩ => h ⟨state ▸ composites, job ▸ planned⟩

theorem ChosenOnlyIf.of_comp {t : State} (h : ChosenOnlyIf C s) (same : t.comp = s.comp) : ChosenOnlyIf C t :=
  h.of_same (by rw [same]) (by rw [same])

theorem chosenOnlyIf_of_state (other : s.comp.state ≠ .compositing) : ChosenOnlyIf C s :=
  fun chosen => absurd chosen.1 other

theorem chosenOnlyIf_of_none (none : s.comp.job = none) : ChosenOnlyIf C s := fun ⟨_, planned⟩ => by
  rw [none] at planned; cases planned

theorem OnlyFetch.comp_eq {t : State} : OnlyFetch s t → t.comp = s.comp := by
  rintro ⟨_, _, rfl⟩; rfl

/-! ## The sweep controller -/

/-- A strip begins with its choice to come. -/
theorem beginStrip_chosen {job : StripJob} (unplanned : job.planned = false) : ChosenOnlyIf C (beginStrip job s) :=
  fun ⟨_, planned⟩ => by
    have planned : some job.planned = some true := planned
    rw [unplanned] at planned
    cases planned

theorem enterDone_state (s : State) : (enterDone s).comp.state = .closing := by
  obtain ⟨_, _, same⟩ := enterDone_eq s
  rw [same]

theorem enterDone_chosen : ChosenOnlyIf C (enterDone s) :=
  chosenOnlyIf_of_state (by rw [enterDone_state]; exact nofun)

theorem handStrip0_chosen (h : ChosenOnlyIf C s) : ChosenOnlyIf C (handStrip0 s) := by
  unfold handStrip0
  split
  · split
    · exact h
    · exact beginStrip_chosen rfl
  · exact h

theorem drainTest_chosen (h : ChosenOnlyIf C s) : ChosenOnlyIf C (drainTest s) := by
  unfold drainTest
  split
  · split
    · exact enterDone_chosen
    · exact handStrip0_chosen (s := { s with place := { s.place with direction := .plus, state := .passed } }) h
  · exact h

/-! ## Releases and hand-overs -/

theorem freeSlot_comp_eq (i : Nat) (fate : Fate) (s : State) : (freeSlot i fate s).comp = s.comp := by
  unfold freeSlot; split <;> rfl

theorem releaseFrame_chosen (i : Nat) (fate : Fate) (h : ChosenOnlyIf C s) : ChosenOnlyIf C (releaseFrame i fate s) :=
  drainTest_chosen (h.of_comp (freeSlot_comp_eq i fate s))

theorem applyPending_chosen (h : ChosenOnlyIf C s) : ChosenOnlyIf C (applyPending s) := by
  unfold applyPending
  split
  · exact h
  · exact h

theorem advanceTest_chosen (job : StripJob) : ChosenOnlyIf C (advanceTest job s) := by
  unfold advanceTest
  dsimp only
  split
  · exact beginStrip_chosen rfl
  · exact releaseFrame_chosen _ _ (applyPending_chosen (chosenOnlyIf_of_none rfl))

theorem handOver_chosen (job : StripJob) (h : ChosenOnlyIf C s) : ChosenOnlyIf C (handOver job s) := by
  unfold handOver
  split
  · exact h
  · exact advanceTest_chosen job

theorem recordResult_chosen (r : RegResult) (h : ChosenOnlyIf C s) : ChosenOnlyIf C (recordResult r s) := by
  unfold recordResult; split <;> exact h

theorem placementOffer_chosen (w : Working) (advance overlap : Int) (h : ChosenOnlyIf C s) :
    ChosenOnlyIf C (placementOffer w advance overlap s) := by
  unfold placementOffer; split <;> exact h

theorem finishRegistration_chosen (r : RegResult) (w : Working) (h : ChosenOnlyIf C s) :
    ChosenOnlyIf C (finishRegistration r w s) := by
  have recorded : ChosenOnlyIf C (recordResult r
      { s with
        place := { s.place with state := .passed, work := some (edgeStep s.sweepCfg r w) }
        reg := { s.reg with state := .idle } }) :=
    recordResult_chosen r h
  unfold finishRegistration
  dsimp only
  split
  · exact releaseFrame_chosen _ _ recorded
  · exact handOver_chosen _ recorded

theorem registerFrame_chosen (w : Working) (h : ChosenOnlyIf C s) : ChosenOnlyIf C (registerFrame w s) := by
  unfold registerFrame
  split
  · exact finishRegistration_chosen _ w h
  · exact h

theorem offerAndRegister_chosen (w : Working) (h : ChosenOnlyIf C s) : ChosenOnlyIf C (offerAndRegister w s) :=
  registerFrame_chosen w (placementOffer_chosen _ _ _ h)

/-! ## The steps of placement -/

theorem holdOpening_chosen (w : Working) (h : ChosenOnlyIf C s) : ChosenOnlyIf C (holdOpening w s) :=
  drainTest_chosen (placementOffer_chosen (s := s) w 0 0 h)

theorem directionStep_chosen (w : Working) (h : ChosenOnlyIf C s) : ChosenOnlyIf C (directionStep w s) := by
  unfold directionStep
  dsimp only
  split
  · exact releaseFrame_chosen _ _ (placementOffer_chosen _ _ _ h)
  · split
    · exact releaseFrame_chosen _ _ (placementOffer_chosen _ _ _ h)
    · exact handStrip0_chosen h

theorem afterReference_chosen (pose : PoseFound) (w : Working) (h : ChosenOnlyIf C s) :
    ChosenOnlyIf C (afterReference pose w s).state := by
  unfold afterReference
  dsimp only
  split
  · exact h
  · split
    · exact directionStep_chosen _ h
    · exact h

theorem afterBand_chosen (k : Nat) (pose : PoseFound) (w : Working) (h : ChosenOnlyIf C s) :
    ChosenOnlyIf C (afterBand k pose w s).state := by
  unfold afterBand
  dsimp only
  split
  · exact h
  · split
    · exact holdOpening_chosen _ h
    · exact offerAndRegister_chosen _ h

theorem takeAnswer_chosen (answer : LookupAnswer) (w : Working) (h : ChosenOnlyIf C s) :
    ChosenOnlyIf C (takeAnswer answer w s).state := by
  unfold takeAnswer
  split
  · exact h
  · exact offerAndRegister_chosen _ h
  · split
    · exact afterReference_chosen _ w h
    · exact afterBand_chosen _ _ w h
    all_goals exact h

theorem placeStep_chosen (w : Working) (h : ChosenOnlyIf C s) : ChosenOnlyIf C (placeStep w s).state := by
  unfold placeStep
  split
  · exact h
  · exact h
  all_goals exact takeAnswer_chosen _ _ h

theorem placeRun_chosen : ∀ (n : Nat) (w : Working) {s : State}, ChosenOnlyIf C s → ChosenOnlyIf C (placeRun n w s)
  | 0, _, _, h => h
  | n + 1, w, s, h => by
    have step := placeStep_chosen (s := { s with place := { s.place with state := .placing, work := some w } }) w h
    unfold placeRun
    split
    · rename_i went; rw [went] at step; exact placeRun_chosen n _ step
    · rename_i rests; rw [rests] at step; exact step

theorem takeFrame_chosen (i : Nat) (h : ChosenOnlyIf C s) : ChosenOnlyIf C (takeFrame i s) := by
  unfold takeFrame
  dsimp only
  split
  · exact releaseFrame_chosen _ _ h
  · exact placeRun_chosen _ _ h

theorem engineGo_chosen : ∀ (n : Nat) {s : State}, ChosenOnlyIf C s → ChosenOnlyIf C (engineGo n s)
  | 0, _, h => h
  | n + 1, _, h => by
    unfold engineGo
    split
    · split
      · exact h
      · exact engineGo_chosen n (takeFrame_chosen _ h)
    · exact h

/-! ## Placement goes on -/

theorem resumePlacement_chosen (h : ChosenOnlyIf C s) : ChosenOnlyIf C (resumePlacement s) := by
  unfold resumePlacement
  split
  · exact placeRun_chosen _ _ h
  · exact h

theorem entryAnnounced_chosen (h : ChosenOnlyIf C s) : ChosenOnlyIf C (entryAnnounced s) := by
  unfold entryAnnounced
  split
  · split
    · exact placeRun_chosen _ _ h
    · exact h
  · exact h

theorem expireWait_chosen (h : ChosenOnlyIf C s) : ChosenOnlyIf C (expireWait s) := by
  unfold expireWait
  split
  · exact placeRun_chosen _ _ h
  · exact h

theorem resumeDeciding_chosen (h : ChosenOnlyIf C s) : ChosenOnlyIf C (resumeDeciding s) := by
  unfold resumeDeciding
  split
  · split
    · exact placeRun_chosen _ _ h
    · exact h
  · exact h

/-! ## The engine's completions -/

theorem completeSearch_chosen (h : ChosenOnlyIf C s) : ChosenOnlyIf C (completeSearch s) := by
  unfold completeSearch
  split
  · split
    · exact engineGo_chosen _ (finishRegistration_chosen _ _ h)
    · exact h
  · exact h

theorem completeWrites_chosen (h : ChosenOnlyIf C s) : ChosenOnlyIf C (completeWrites s) := by
  unfold completeWrites
  split
  · split
    · exact chosenOnlyIf_of_state nofun
    · exact h
  · exact h

theorem commitCauses_comp_eq (job : StripJob) (s : State) : (commitCauses job s).comp = s.comp := by
  unfold commitCauses; dsimp only; split <;> rfl

theorem commitEnd_comp_eq (job : StripJob) (s : State) : (commitEnd job s).comp = s.comp := by
  unfold commitEnd; split <;> rfl

theorem commitDrain_chosen (job : StripJob) (handedOver : Bool) (h : ChosenOnlyIf C s) :
    ChosenOnlyIf C (commitDrain job handedOver s) := by
  unfold commitDrain
  split
  · exact h
  · exact drainTest_chosen h

theorem commitStrip_chosen (job : StripJob) : ChosenOnlyIf C (commitStrip job s) := by
  have committed : ChosenOnlyIf C (applyPending (commitComp job s)) := applyPending_chosen (chosenOnlyIf_of_none rfl)
  unfold commitStrip
  extract_lets handedOver s1 s2 s3
  have freed : ChosenOnlyIf C s2 := committed.of_comp (freeSlot_comp_eq ..)
  have updates : ChosenOnlyIf C (beginUpdate s2) := freed
  have stall : s3.comp = (beginUpdate s2).comp := by
    rw [show s3 = retestStall (commitEnd job (commitCauses job (beginUpdate s2))) from rfl,
      (retestStall_only _).comp_eq, commitEnd_comp_eq, commitCauses_comp_eq]
  exact engineGo_chosen _ (resumeDeciding_chosen (commitDrain_chosen job handedOver (updates.of_comp stall)))

theorem completeHarvest_chosen (h : ChosenOnlyIf C s) : ChosenOnlyIf C (completeHarvest s) := by
  unfold completeHarvest
  split
  · split
    · exact commitStrip_chosen _
    · exact h
  · exact h

theorem completeUpdate_chosen (h : ChosenOnlyIf C s) : ChosenOnlyIf C (completeUpdate s) := by
  unfold completeUpdate
  split
  · dsimp only
    split
    · exact engineGo_chosen _ (advanceTest_chosen _)
    · exact chosenOnlyIf_of_state nofun
  · exact h

theorem completeClosing_chosen (h : ChosenOnlyIf C s) : ChosenOnlyIf C (completeClosing s) := by
  unfold completeClosing
  split
  · refine chosenOnlyIf_of_state ?_
    dsimp only
    rw [(retestStall_only _).comp_eq]
    exact nofun
  · exact h

/-! ## The ends of a sweep and its beginning -/

theorem takeEndRequest_chosen (reason : EndReason) (h : ChosenOnlyIf C s) : ChosenOnlyIf C (takeEndRequest reason s) := by
  unfold takeEndRequest
  split
  · dsimp only
    split
    · exact enterDone_chosen
    · exact enterDone_chosen
    all_goals exact h
  · exact h

theorem stopSweep_chosen (h : ChosenOnlyIf C s) : ChosenOnlyIf C (stopSweep s) := by
  unfold stopSweep
  split
  · exact h
  · exact drainTest_chosen h
  all_goals exact h

theorem abortSweep_chosen : ChosenOnlyIf C (abortSweep s) := by
  refine chosenOnlyIf_of_none ?_
  unfold abortSweep
  dsimp only
  rw [(discardFetch_only _).comp_eq]
  rfl

theorem abortBody_chosen (h : ChosenOnlyIf C s) : ChosenOnlyIf C (abortBody s) := by
  unfold abortBody
  split
  · exact abortSweep_chosen
  · exact abortSweep_chosen
  · exact abortSweep_chosen
  · exact abortSweep_chosen
  all_goals exact h

theorem armSweep_chosen : ChosenOnlyIf C (armSweep s) := by
  refine chosenOnlyIf_of_none ?_
  unfold armSweep
  dsimp only
  rw [(discardFetch_only _).comp_eq]
  rfl

theorem beginSelftest_chosen : ChosenOnlyIf C (beginSelftest s) := by
  refine chosenOnlyIf_of_none ?_
  unfold beginSelftest
  dsimp only
  rw [startTests_comp, (discardFetch_only _).comp_eq]
  rfl

/-! ## The pixel input port -/

theorem placeHeader_comp_eq (header : Header) (tSof : Time) (s : State) : (placeHeader header tSof s).comp = s.comp := by
  unfold placeHeader
  split
  · split <;> rfl
  · rfl

theorem admitHeader_chosen (header : Option Header) (tSof : Time) (h : ChosenOnlyIf C s) :
    ChosenOnlyIf C (admitHeader header tSof s) := by
  cases header with
  | none => exact h
  | some header =>
    have marked : (readStopMark header (checkSequence header (countReceived s))).comp = s.comp := by
      unfold readStopMark; split <;> rfl
    exact drainTest_chosen (h.of_comp ((placeHeader_comp_eq ..).trans marked))

theorem truncateFrame_chosen (slot : Nat) (port : PortFrame) (h : ChosenOnlyIf C s) :
    ChosenOnlyIf C (truncateFrame slot port s) :=
  drainTest_chosen (h.of_comp (freeSlot_comp_eq slot .truncated s))

/-! ## The motion link -/

theorem regain_chosen (entry : PoseEntry) (h : ChosenOnlyIf C s) : ChosenOnlyIf C (regain entry s) := by
  unfold regain sendReanchor
  dsimp only
  split
  · split <;> exact h
  · exact h

theorem goodSample_chosen (sample : Time) (bytes : BitVec 48) (h : ChosenOnlyIf C s) :
    ChosenOnlyIf C (goodSample sample bytes s) := by
  unfold goodSample
  dsimp only
  refine engineGo_chosen _ (entryAnnounced_chosen ?_)
  split
  · exact regain_chosen _ h
  · exact h

theorem missSample_chosen (h : ChosenOnlyIf C s) : ChosenOnlyIf C (missSample s) := by
  unfold missSample
  dsimp only
  split
  · exact engineGo_chosen _ (resumePlacement_chosen h)
  · exact h

/-! ## Memory bursts -/

theorem reportFault_comp_eq (s : State) : (reportFault s).comp = s.comp := rfl

theorem failTest_comp_eq (test : Nat) (s : State) : (failTest test s).comp = s.comp := rfl

theorem store_chosen (store : CanvasStore) (h : ChosenOnlyIf C s) : ChosenOnlyIf C { s with store := store } := h

theorem dropStrip_chosen : ChosenOnlyIf C (dropStrip s) := chosenOnlyIf_of_none rfl

theorem faultCompositor_chosen (addr len : Nat) (h : ChosenOnlyIf C s) : ChosenOnlyIf C (faultCompositor addr len s) := by
  cases state : s.comp.state with
  | ready => rw [faultCompositor_of_ready addr len state]; exact h
  | compositing => rw [faultCompositor_of_strip addr len (.inl state)]; exact dropStrip_chosen
  | harvesting => rw [faultCompositor_of_strip addr len (.inr state)]; exact dropStrip_chosen
  | updating => rw [faultCompositor_of_updating addr len state]; exact h
  | closing => rw [faultCompositor_of_closing addr len state]; exact h

theorem faultRegistration_chosen (h : ChosenOnlyIf C s) : ChosenOnlyIf C (faultRegistration s) := by
  cases state : s.reg.state with
  | idle => rw [faultRegistration_of_idle state]; exact h
  | searching => rw [faultRegistration_of_searching state]; exact h
  | harvesting => rw [faultRegistration_of_harvesting state]; exact dropStrip_chosen

theorem unitFaults_chosen (unit : EngineUnit) (addr len : Nat) (h : ChosenOnlyIf C s) :
    ChosenOnlyIf C (unitFaults unit addr len s) := by
  cases unit with
  | registration => exact faultRegistration_chosen h
  | compositor => exact faultCompositor_chosen addr len h

theorem completeIngest_chosen (b : IngestBurst) (live : Bool) (h : ChosenOnlyIf C s) :
    ChosenOnlyIf C (completeIngest b live s) := by
  unfold completeIngest lineWritten
  dsimp only
  split
  · split <;> exact h
  · exact h

theorem completeEngineRead_chosen (unit : EngineUnit) (addr len : Nat) (e : MemErrors) (h : ChosenOnlyIf C s) :
    ChosenOnlyIf C (completeEngineRead unit addr len e s) := by
  have read : ChosenOnlyIf C (wordsRead unit (touchedWords addr len) e s) := h
  rw [completeEngineRead_eq]
  split
  · exact read
  · exact unitFaults_chosen unit addr len read

theorem completeEngineWrite_chosen (addr len : Nat) (e : MemErrors) (h : ChosenOnlyIf C s) :
    ChosenOnlyIf C (completeEngineWrite addr len e s) := by
  have stored (done left : List WriteUnit) :
      ChosenOnlyIf C (finishUnits done left (writePixels (unitsWithin addr len s.comp.todo) e s)) := h
  unfold completeEngineWrite
  dsimp only
  split
  · exact stored _ _
  · split
    · exact (stored _ _).of_comp (reportFault_comp_eq _)
    all_goals exact faultCompositor_chosen addr len (stored _ _)

theorem completeFetch_chosen (b : FetchRead) (data : List Byte) (live : Bool) (e : MemErrors) (h : ChosenOnlyIf C s) :
    ChosenOnlyIf C (completeFetch b data live e s) := by
  have checked : ChosenOnlyIf C (checkWords (touchedWords b.addr b.len) e s) := h
  unfold completeFetch
  dsimp only
  split
  · split
    · exact checked.of_comp (fetchData_only ..).comp_eq
    · exact checked.of_comp (fetchError_only ..).comp_eq
  · exact checked

theorem completeSelf_chosen (b : SelfBurst) (live : Bool) (e : MemErrors) (h : ChosenOnlyIf C s) :
    ChosenOnlyIf C (completeSelf b live e s) := by
  have checked : ChosenOnlyIf C (checkWords (touchedWords (testAddress b) 64) e s) := h.of_comp (checkWords_comp ..)
  unfold completeSelf
  split
  · exact store_chosen _ h
  · dsimp only
    split
    · exact checked.of_comp (failTest_comp_eq ..)
    · exact checked

theorem completeBurst_chosen (burst : InFlight) (move : EngineMove) (e : MemErrors) (h : ChosenOnlyIf C s) :
    ChosenOnlyIf C (completeBurst burst move e s) := by
  unfold completeBurst
  cases burst with
  | ingest b live => exact completeIngest_chosen b live h
  | engine unit live late areas =>
    dsimp only
    unfold completeEngine completeLate
    split
    · split
      · exact completeEngineRead_chosen _ _ _ e h
      · exact completeEngineWrite_chosen _ _ e h
      · exact h
    · split <;> exact h
  | fetch b data live => exact completeFetch_chosen b data live e h
  | selfTest b live => exact completeSelf_chosen b live e h

theorem finishCommand_comp_eq (payload : List Byte) (s : State) : (finishCommand payload s).comp = s.comp := by
  unfold finishCommand; split <;> rfl

theorem endTests_comp_eq (outcome : Nat) (s : State) : (endTests outcome s).comp = s.comp := by
  unfold endTests
  dsimp only
  rw [finishCommand_comp_eq]
  split <;> rfl

theorem expireStall_comp_eq (s : State) : (expireStall s).comp = s.comp := by
  unfold expireStall
  split
  · split
    · rfl
    · rename_i t _ _ _
      exact (endWith_only .r0 .errorNotSettled t.item _).comp_eq
  · rfl

end Operations

end Sys2Proof.Machine
end

section
/-! SUPPORT. What every command leaves of the strip in compositing: a choice made where the command settles, or the strip
as it was; and O42 from it. -/

namespace Sys2Proof.Machine

/-! ## The choice of a strip -/

/-- A strip's job once its seams are chosen. -/
def chosenJob (s : State) (job : StripJob) : StripJob :=
  { job with
    planned := true
    seams := stripSeams s.sweepCfg s.store s.place.direction s.comp.front job
    detached := stripDetached s.comp.front job (stripSeams s.sweepCfg s.store s.place.direction s.comp.front job)
    wrapped :=
      stripWrapped s.sweepCfg s.comp.front job (stripSeams s.sweepCfg s.store s.place.direction s.comp.front job) }

/-- The compositor with the choice made. -/
def chosenComp (s : State) (job : StripJob) : Compositor :=
  { s.comp with
    job := some (chosenJob s job)
    todo := stripUnits s.sweepCfg s.store s.place.direction s.comp.front (stripClean s.comp.clean job) job
      (stripSeams s.sweepCfg s.store s.place.direction s.comp.front job) }

/-- No strip in compositing with all its lines in the slot waits for its choice. -/
def noneWaits (s : State) : Prop := ∀ job : StripJob, s.comp.state = .compositing → s.comp.job = some job →
  job.planned = false → linesReady s job.slot = false

/-- The preparation makes the choice, or finds none to make. -/
theorem prepareStrip_choice (s : State) : (∃ job, (prepareStrip s).comp = chosenComp s job) ∨
    ((prepareStrip s).comp = s.comp ∧ noneWaits s) := by
  unfold prepareStrip
  split
  · rename_i job _ held
    split
    · rename_i rests
      refine .inr ⟨rfl, fun other _ same unplanned => ?_⟩
      obtain rfl := Option.some.inj (held.symm.trans same)
      simpa [unplanned] using rests
    · exact .inl ⟨job, rfl⟩
  · rename_i idle
    exact .inr ⟨rfl, fun job state held => absurd held (idle job state)⟩

theorem stripDetached_iff {front : Int} {job : StripJob} {seams : List (Option Int)} :
    stripDetached front job seams = true ↔
      job.strip0 = false ∧ ∃ k, k < 8 ∧ seams.getD k none = none ∧ front < job.edges.getD k 0 := by
  simp only [stripDetached, Bool.and_eq_true, Bool.not_eq_true', List.any_eq_true, mem_bands, decide_eq_true_eq,
    Option.isNone_iff_eq_none]

theorem stripWrapped_iff {cfg : Configuration} {front : Int} {job : StripJob} {seams : List (Option Int)} :
    stripWrapped cfg front job seams = true ↔
      ∃ k x, k < 8 ∧ x ∈ writtenColumns cfg front job seams k ∧ (storedColumn cfg x : Int) ≠ x := by
  simp only [stripWrapped, List.any_eq_true, mem_bands, decide_eq_true_eq]
  exact ⟨fun ⟨k, inside, x, written, other⟩ => ⟨k, x, inside, written, other⟩,
    fun ⟨k, x, inside, written, other⟩ => ⟨k, inside, x, written, other⟩⟩

/-- The seams, the flags and the pixels of a strip's job are those of the choice (R110 to R117). -/
def jobChosen (t : State) (job : StripJob) : Prop :=
  job.seams = stripSeams t.sweepCfg t.store t.place.direction t.comp.front job ∧
  (job.detached = true ↔ job.strip0 = false ∧
    ∃ k, k < 8 ∧ job.seams.getD k none = none ∧ t.comp.front < job.edges.getD k 0) ∧
  (job.wrapped = true ↔
    ∃ k x, k < 8 ∧ x ∈ writtenColumns t.sweepCfg t.comp.front job job.seams k ∧
      (storedColumn t.sweepCfg x : Int) ≠ x) ∧
  t.comp.todo = stripUnits t.sweepCfg t.store t.place.direction t.comp.front
    (if job.strip0 then maxOf 0 job.edges else t.comp.clean.getD 0) job job.seams

theorem chosenJob_chosen {s t : State} (job : StripJob) (comp : t.comp = chosenComp s job)
    (sweepCfg : t.sweepCfg = s.sweepCfg) (store : t.store = s.store) (place : t.place = s.place) :
    jobChosen t (chosenJob s job) := by
  rw [jobChosen, comp, sweepCfg, store, place]
  exact ⟨rfl, stripDetached_iff, stripWrapped_iff, rfl⟩

/-! ## What a command leaves -/

/-- A strip in compositing that is chosen is chosen right, unless `C` holds, and none that could be chosen waits. -/
def ChoiceMade (C : Prop) (t : State) : Prop :=
  (∀ job : StripJob, t.comp.state = .compositing → t.comp.job = some job → job.planned = true → ¬C → jobChosen t job) ∧
    noneWaits t

theorem linesReady_congr {s t : State} (sweepCfg : t.sweepCfg = s.sweepCfg) (slots : t.ingest.slots = s.ingest.slots)
    (slot : Nat) : linesReady t slot = linesReady s slot := by
  rw [linesReady, linesReady, sweepCfg, slots]

/-- The choice is made where a command settles (log entry 26). -/
theorem settle_choice {C : Prop} {b m : Bool} {u : State} (h : ChosenOnlyIf C u) : ChoiceMade C (settle b m u) := by
  have settled := settle_comp b m u
  rcases prepareStrip_choice u with ⟨job, prepared⟩ | ⟨same, none⟩
  · have comp := settled.trans prepared
    have held : (settle b m u).comp.job = some (chosenJob u job) := by rw [comp]; rfl
    refine ⟨fun other _ at_other _ _ => ?_, fun other _ at_other unplanned => ?_⟩
    all_goals obtain rfl := Option.some.inj (held.symm.trans at_other)
    · exact chosenJob_chosen job comp (settle_sweepCfg ..) (settle_store ..) (settle_place ..)
    · cases unplanned
  · have comp := settled.trans same
    refine ⟨fun job state held planned free => absurd (h ⟨?_, ?_⟩) free, fun job state held unplanned => ?_⟩
    · rw [← comp, state]
    · rw [← comp, held, Option.map_some, planned]
    · rw [linesReady_congr (settle_sweepCfg ..) (settle_slots ..)]
      rw [comp] at state held
      exact none job state held unplanned

/-- The strip in compositing and the lines of the slots are as they were. -/
def SameStrip (s t : State) : Prop :=
  t.comp = s.comp ∧ t.sweepCfg = s.sweepCfg ∧ t.ingest.slots = s.ingest.slots

/-- What a command leaves of the choice: it has settled, or the strip is as it was. -/
def KeepsChoice (s t : State) : Prop := ChoiceMade (stripChosen s) t ∨ SameStrip s t

theorem KeepsChoice.same {s t : State} (comp : t.comp = s.comp) (sweepCfg : t.sweepCfg = s.sweepCfg)
    (slots : t.ingest.slots = s.ingest.slots) : KeepsChoice s t := .inr ⟨comp, sweepCfg, slots⟩

theorem KeepsChoice.refl (s : State) : KeepsChoice s s := .same rfl rfl rfl

theorem KeepsChoice.settled {s u : State} {b m : Bool} (h : ChosenOnlyIf (stripChosen s) u) :
    KeepsChoice s (settle b m u) := .inl (settle_choice h)

theorem KeepsChoice.ready {s t : State} (ready : t.comp.state = .ready) : KeepsChoice s t := by
  have other : t.comp.state ≠ .compositing := by rw [ready]; exact nofun
  exact .inl ⟨fun _ state => absurd state other, fun _ state => absurd state other⟩

theorem stripChosen_self (s : State) : ChosenOnlyIf (stripChosen s) s := id

/-- What a command answers keeps the choice. -/
def AnswerKeepsChoice (s : State) : Answer → Prop
  | .next t => KeepsChoice s t
  | .fault _ | .refused _ => True

/-! ## The control link, start-up and self-test -/

theorem runCommand_choice (kind tag : Byte) (length : Nat) (takenIn : SweepState → Bool) (payload : List Byte)
    {body : State → Ran} (s : State) (h : ∀ t, KeepsChoice t (body t).state) :
    AnswerKeepsChoice s (.next (runCommand kind tag length takenIn payload body s)) := by
  have ran := h (takeSlot kind tag s)
  show KeepsChoice s (runCommand kind tag length takenIn payload body s)
  unfold runCommand
  dsimp only
  split
  · split
    · exact .same rfl rfl rfl
    · exact ran
  · exact .same rfl rfl rfl

theorem configureBody_choice (payload : List Byte) (s : State) : KeepsChoice s (configureBody payload s).state := by
  unfold configureBody
  dsimp only
  split <;> exact .same rfl rfl rfl

theorem acknowledge_choice (code : Nat) (s : State) : KeepsChoice s (acknowledge code s).state := by
  unfold acknowledge
  split
  · exact .refl s
  · split
    · exact .refl s
    · split <;> exact .same rfl rfl rfl

theorem execDramInitialised_choice (strap : Bool) (s : State) : AnswerKeepsChoice s (execDramInitialised strap s) := by
  have comp : (finishCommand [] { s with store := { s.store with mem := [], singleFlaws := [], multiFlaws := [] } }).comp =
    s.comp := finishCommand_comp_eq ..
  show KeepsChoice s (if _ then _ else _)
  split
  · dsimp only
    split
    · exact .settled ((stripChosen_self s).of_comp comp)
    · have same : ∃ c, finishCommand []
          { s with store := { s.store with mem := [], singleFlaws := [], multiFlaws := [] } } =
          { s with store := { s.store with mem := [], singleFlaws := [], multiFlaws := [] }, ctl := c } := by
        unfold finishCommand; split <;> exact ⟨_, rfl⟩
      obtain ⟨_, same⟩ := same
      rw [same]
      exact .same rfl rfl rfl
  · exact .refl s

theorem execSelftest_choice (tag : Byte) (payload : List Byte) (s : State) :
    AnswerKeepsChoice s (execSelftest tag payload s) := by
  show KeepsChoice s (if _ then _ else _)
  split
  · split
    · exact .same rfl rfl rfl
    · exact .settled beginSelftest_chosen
  · exact .same rfl rfl rfl

/-! ## The ports and the motion link -/

theorem setPort_choice (port : PortFrame) (s : State) : KeepsChoice s (setPort port s) := .same rfl rfl rfl

theorem execFrameStart_choice (s : State) : AnswerKeepsChoice s (execFrameStart s) := by
  show KeepsChoice s (match s.ingest.port with | .low => _ | .ignored | .header _ | .filling _ _ _ => _)
  split
  · split <;> exact setPort_choice _ s
  all_goals exact .refl s

theorem execHeaderArrival_choice (words : List Half) (s : State) : AnswerKeepsChoice s (execHeaderArrival words s) := by
  show KeepsChoice s (match s.ingest.port with | .header tSof => _ | .low | .ignored | .filling _ _ _ => _)
  split
  · rename_i tSof _
    split
    · exact .settled (admitHeader_chosen _ _ (stripChosen_self s))
    · split
      · exact .settled (admitHeader_chosen (s := openSweep tSof s) _ _ (stripChosen_self s))
      · exact setPort_choice _ s
    all_goals exact setPort_choice _ s
  all_goals exact .refl s

theorem truncateFrame_choice (slot : Nat) (port : PortFrame) (s : State) :
    KeepsChoice s (settle false false (truncateFrame slot port s)) :=
  .settled (truncateFrame_chosen slot port (stripChosen_self s))

theorem execPixelLineStart_choice (s : State) : AnswerKeepsChoice s (execPixelLineStart s) := by
  show KeepsChoice s (match s.ingest.port with
    | .filling slot line false => _ | .low | .ignored | .header _ | .filling _ _ true => _)
  split
  · split
    · exact truncateFrame_choice ..
    · exact setPort_choice _ s
  all_goals exact .refl s

theorem execLineTooLong_choice (s : State) : AnswerKeepsChoice s (execLineTooLong s) := by
  show KeepsChoice s (match s.ingest.port with
    | .filling slot _ true => _ | .low | .ignored | .header _ | .filling _ _ false => _)
  split
  · exact truncateFrame_choice ..
  all_goals exact .refl s

theorem execPixelLineClose_choice (words : List Half) (s : State) : AnswerKeepsChoice s (execPixelLineClose words s) := by
  show KeepsChoice s (match s.ingest.port with
    | .filling slot line true => _ | .low | .ignored | .header _ | .filling _ _ false => _)
  split
  · rename_i slot line _
    split
    · exact truncateFrame_choice ..
    · split
      · exact .settled (stripChosen_self s)
      · exact .settled (engineGo_chosen (s := completeFrame slot (bufferLine slot line words s)) _ (stripChosen_self s))
  all_goals exact .refl s

theorem execFrameEnd_choice (s : State) : AnswerKeepsChoice s (execFrameEnd s) := by
  show KeepsChoice s (match s.ingest.port with | .filling slot _ _ => _ | .low | .ignored | .header _ => _)
  split
  · exact truncateFrame_choice ..
  all_goals exact setPort_choice _ s

theorem execGoodSample_choice (bytes : BitVec 48) (s : State) : AnswerKeepsChoice s (execGoodSample bytes s) := by
  show KeepsChoice s (match s.motion.tx with
    | .reading sample start => _ | .discarding start => _ | .absent | .window _ _ => _)
  split
  · rename_i start _
    exact .settled
      (goodSample_chosen (s := { s with timeBase := advanceTo (readDue start) s.timeBase }) _ _ (stripChosen_self s))
  all_goals exact .same rfl rfl rfl

theorem execSampleMissed_choice (s : State) : AnswerKeepsChoice s (execSampleMissed s) := by
  show KeepsChoice s (match s.motion.tx with | .window strobeTime _ => _ | .absent | .reading _ _ | .discarding _ => _)
  split
  · rename_i strobeTime _ _
    exact .settled
      (missSample_chosen (s := { s with timeBase := advanceTo (missDue s.sweepCfg strobeTime) s.timeBase })
        (stripChosen_self s))
  all_goals exact .refl s

theorem execMemoryBurstComplete_choice (move : EngineMove) (e : MemErrors) (s : State) :
    AnswerKeepsChoice s (execMemoryBurstComplete move e s) := by
  unfold execMemoryBurstComplete
  split
  · exact .refl s
  · split
    · split
      · exact .settled (completeBurst_chosen _ move e (stripChosen_self s))
      · exact .refl s
    · trivial
  · exact .settled (completeBurst_chosen _ move e (stripChosen_self s))

theorem OnlyFetch.choice {s u : State} {b m : Bool} (only : OnlyFetch s u) : KeepsChoice s (settle b m u) :=
  .settled ((stripChosen_self s).of_comp only.comp_eq)

/-! ## Every command -/

theorem exec_choice (c : Instr) (s : State) : AnswerKeepsChoice s (exec c s) := by
  have here := stripChosen_self s
  cases c with
  | powerOn => exact .ready rfl
  | resetnAssert => exact .ready rfl
  | resetnRelease =>
    show KeepsChoice s (if _ then _ else _)
    split
    · exact .ready rfl
    · exact .refl s
  | dramInitialised strap => exact execDramInitialised_choice strap s
  | selftestComplete outcome =>
    show KeepsChoice s (match s.sweep.state, s.selfTest.run with | .test, some r => _ | _, _ => _)
    split
    · split
      · exact .settled (here.of_comp (endTests_comp_eq ..))
      · exact .refl s
    · exact .refl s
  | configure tag payload => exact runCommand_choice 1 tag _ _ payload s (configureBody_choice payload)
  | arm tag payload => exact runCommand_choice 2 tag _ _ payload s fun _ => .settled armSweep_chosen
  | start tag payload => exact runCommand_choice 3 tag _ _ payload s fun _ => .same rfl rfl rfl
  | stop tag payload =>
    exact runCommand_choice 4 tag _ _ payload s fun t => .settled (stopSweep_chosen (stripChosen_self t))
  | abort tag payload =>
    exact runCommand_choice 5 tag _ _ payload s fun t => .settled (abortBody_chosen (stripChosen_self t))
  | query tag payload => exact runCommand_choice 6 tag _ _ payload s fun t => .refl t
  | readAttention tag payload => exact runCommand_choice 7 tag _ _ payload s fun t => .refl t
  | ackAttention tag payload => exact runCommand_choice 8 tag _ _ payload s (acknowledge_choice _)
  | setAttention tag payload => exact runCommand_choice 9 tag _ _ payload s fun _ => .same rfl rfl rfl
  | selftest tag payload => exact execSelftest_choice tag payload s
  | reset tag payload =>
    show KeepsChoice s (if _ then _ else _)
    split
    · split
      · exact .same rfl rfl rfl
      · exact .ready rfl
    · exact .same rfl rfl rfl
  | unknownCommand kind tag payload =>
    show KeepsChoice s (if _ then _ else _)
    split
    · split <;> exact .same rfl rfl rfl
    · exact .refl s
  | commandDiscarded =>
    show KeepsChoice s (if _ then _ else _)
    split <;> exact .same rfl rfl rfl
  | replyTransaction clocked =>
    show KeepsChoice s (match s.ctl.latched with | none => _ | some status => _)
    split
    · exact .refl s
    · split <;> exact .same rfl rfl rfl
  | sweepTimeLimit =>
    show KeepsChoice s (match s.sweep.state, s.sweep.openTime with | .opened, some openTime => _ | _, _ => _)
    split
    · split
      · rename_i openTime _ _ _
        exact .settled (drainTest_chosen
          (s := beginDraining .timeLimit { s with timeBase := advanceTo (limitDue s openTime) s.timeBase }) here)
      · exact .refl s
    · exact .refl s
  | endRequest reason => exact .settled (takeEndRequest_chosen reason here)
  | frameStart => exact execFrameStart_choice s
  | headerArrival words => exact execHeaderArrival_choice words s
  | pixelLineStart => exact execPixelLineStart_choice s
  | lineTooLong => exact execLineTooLong_choice s
  | pixelLineClose words => exact execPixelLineClose_choice words s
  | frameEnd => exact execFrameEnd_choice s
  | sampleStrobe =>
    show KeepsChoice s (if _ then _ else _)
    split
    · split <;> exact .same rfl rfl rfl
    · exact .refl s
  | mdrdySeen =>
    show KeepsChoice s (match s.motion.tx with
      | .window strobeTime sample => _ | .absent | .reading _ _ | .discarding _ => _)
    split
    · split <;> exact .same rfl rfl rfl
    all_goals exact .refl s
  | goodSample bytes => exact execGoodSample_choice bytes s
  | sampleMissed => exact execSampleMissed_choice s
  | motionWaitExpiry => exact .settled (engineGo_chosen _ (expireWait_chosen here))
  | searchComplete => exact .settled (completeSearch_chosen here)
  | stripWritesComplete => exact .settled (completeWrites_chosen here)
  | harvestComplete => exact .settled (completeHarvest_chosen here)
  | previewUpdateComplete => exact .settled (completeUpdate_chosen here)
  | closingWorkComplete => exact .settled (completeClosing_chosen here)
  | memoryBurstComplete move errors => exact execMemoryBurstComplete_choice move errors s
  | fetchRequest requester message =>
    show KeepsChoice s (if _ then _ else _)
    split
    · exact (messageArrives_only ..).choice
    · exact .refl s
  | fetchAbandon requester message =>
    show KeepsChoice s (if _ then _ else _)
    split
    · exact .refl s
    · exact (messageArrives_only ..).choice
  | returnBurstComplete =>
    show KeepsChoice s (if _ then _ else _)
    split
    · exact (completeBus_only s).choice
    · exact .refl s
  | fetchWaitExpiry => exact .settled (here.of_comp (expireStall_comp_eq s))
  | transactionStart =>
    show KeepsChoice s (if _ then _ else _)
    split <;> exact .same rfl rfl rfl
  | requestMessageStart requester =>
    show KeepsChoice s (match (sideOf s.fetch requester).line with | .idle => _ | .shifting | .ignored => _)
    split
    · obtain ⟨_, _, only⟩ := setSide_only requester
        { sideOf s.fetch requester with line := if s.inReset ∨ s.sweep.state = .init then .ignored else .shifting } s
      rw [only]
      exact .same rfl rfl rfl
    all_goals exact .refl s

/-- What a command leaves chosen and was not chosen is chosen right (R111 to R117). -/
theorem KeepsChoice.chosen {s t : State} (h : KeepsChoice s t) {job : StripJob} (state : t.comp.state = .compositing)
    (held : t.comp.job = some job) (planned : job.planned = true) (new : ¬stripChosen s) : jobChosen t job := by
  rcases h with ⟨made, -⟩ | ⟨comp, -⟩
  · exact made job state held planned new
  · rw [comp] at state held
    exact absurd ⟨state, by rw [held, Option.map_some, planned]⟩ new

/-- No command leaves a strip waiting whose lines are all in the slot (log entry 26). -/
theorem KeepsChoice.noneWaits {s t : State} (h : KeepsChoice s t) (before : noneWaits s) : noneWaits t := by
  rcases h with ⟨-, none⟩ | ⟨comp, sweepCfg, slots⟩
  · exact none
  · intro job state held unplanned
    rw [comp] at state held
    rw [linesReady_congr sweepCfg slots]
    exact before job state held unplanned

/-! ## The obligation -/

theorem replicate_of_strip0 {cfg : Configuration} {store : CanvasStore} {dir : Direction} {front : Int} {job : StripJob}
    (strip0 : job.strip0 = true) : stripSeams cfg store dir front job = List.replicate 8 none := by
  rw [stripSeams, if_pos strip0]

/-- Settles O42, by the bounds of a band's first written column, the pixels' cases and what each command leaves of the
strip in compositing. -/
theorem writesStayAboveTheSettledFront : Obligations.WritesStayAboveTheSettledFront := by
  refine ⟨?_, ?_, ?_, ?_, ?_⟩
  · intro cfg store dir front settled job k x ordinary inside even bound positive written
    obtain ⟨low, high⟩ := mem_writtenColumns.mp written
    obtain ⟨edge, reach⟩ := writeStart_bounds (cfg := cfg) (store := store) (dir := dir) (front := front) ordinary inside
    exact ⟨high, by omega, fun above => by omega⟩
  · exact fun cfg front edge => ⟨seamCandidates_pairwise cfg front edge, mem_seamCandidates cfg front edge⟩
  · intro cfg x slot line column row
    refine ⟨fun linear => by rw [storedColumn, linear], fun ring => ?_, rfl, rfl⟩
    rw [storedColumn, ring]
    rfl
  · intro cfg store dir front clean job edge line column chroma newY newC oldY oldC written edges lines columns chromas luma
      sample flag old fill
    have values := CellValues.of_addresses edges lines columns chromas luma sample flag old fill
    refine ⟨replicate_of_strip0, fun ordinary => ?_, fun seams output start starts outputs => ⟨fun u => ?_, ?_⟩⟩
    · refine ⟨bands.map (bandCosts cfg store dir front job), rfl, ?_, fun k inside => ?_⟩
      · rw [stripSeams, ordinary]
        rfl
      · rw [getD_bandCosts inside, values.bandCosts_eq, edges]
    · have begins (k : Nat) : start k = writeStart cfg front job seams k := by
        rw [starts, edges]
        rfl
      simp only [begins, outputs]
      exact mem_stripUnits ..
    · intro k row z even x reverse inZone inReverse low high zone reverseStart back pair
      have band : inBand cfg k row := ⟨low, high⟩
      have zone : inZone ↔ inSeamZone cfg seams k x := zone
      have back : inReverse ↔ inReverseZone cfg clean job x := by rw [back, reverseStart]; rfl
      have flag : written k x ↔ cellWritten cfg store k x := flag k x
      rw [outputs, zone, back, flag, pair]
      refine ⟨values.pixel_new band, ?_, ?_⟩
      · rintro set ⟨c, seam, inside, index⟩
        exact values.pixel_blend band set seam inside index
      · intro set outside inside index
        exact values.pixel_reverse band set outside inside (reverseStart ▸ index)
  · intro c s t run
    have kept := exec_choice c s
    rw [run] at kept
    have kept : KeepsChoice s t := kept
    exact ⟨fun _ state held planned new => kept.chosen state held planned new, kept.noneWaits⟩

end Sys2Proof.Machine
end
